-- ==== Sys2Proof/Word.lean ====
section
/-!
DEFINITION. Words: a byte, a string of bytes, a table of values by number.
-/
namespace Sys2Proof

/-- One byte. -/
abbrev Byte := BitVec 8

/-- A string of bytes, lowest address first (R10). -/
abbrev Bytes := List Byte

/-- A table of values by number: pairs in one canonical form, numbers strictly rising. -/
abbrev Tab (α : Type) := List (Nat × α)

end Sys2Proof
end

