-- ==== Sys2Proof/Syntax.lean ====
section
/-!
DEFINITION. The commands of the ZKV-9600, one constructor per row of spec/opcode_table.json, and the operand types
that carry what comes from outside the node with each of them.
-/
namespace Sys2Proof

/-- Where a 64-byte write came from: the PF0 admin window of a port (R157), a VF's service window (R136), or a RoCEv2
message of a fabric-bound bib (R441), from the remote endpoint of its binding or, while a composition change drains, from
that of the binding it left (R132). -/
inductive Src where
  | pf0 (port : Nat)
  | vf (port vf window : Nat)
  | fab (bib window : Nat)
  | fabOld (bib window : Nat)
deriving DecidableEq, Repr

/-- R76: where in its block an access falls, and its size in bytes. -/
structure Span where
  off : Nat
  size : Nat
deriving DecidableEq, Repr

/-- R419, R420: the tiles whose unit a patrol read finds with many corrected bits; those with codewords that cannot be corrected,
with the numbers of these; how many units fail the CRC-32 of their spare bytes (R410). -/
structure PatrolFinds where
  heavy : List Nat
  bad : List (Nat × List Nat)
  crcFails : Nat := 0
deriving DecidableEq, Repr

/-- What the node drops under R137 and Table 06.10. -/
inductive TlpDrop where
  | incomplete | poisoned | malformed | ecrc
deriving DecidableEq, Repr

/-- The causes of the binding-loss row of Table 06.10. -/
inductive PortLoss where
  | vfEnableCleared | linkDown | hotReset
deriving DecidableEq, Repr

/-- The end of one DMA read request (R160): its data, or how it failed. -/
inductive DmaResult where
  | data (b : Bytes) | unsupported | aborted | timeout
deriving DecidableEq, Repr

/-- The received frames of R437. -/
inductive NeighborKind where
  | arp | neighborDiscovery | icmpEcho | other
deriving DecidableEq, Repr

/-- The Relay header of Table 19.3, without the fields that the row itself fixes. -/
structure RHdr where
  src : Nat
  dst : Nat
  restart : Nat
  baton : Nat
  seq : Nat
  ack : Nat
  retx : Bool
  more : Bool
deriving DecidableEq, Repr

/-- What the SECDED checks found in a Stride read or a register file entry (R222, R234, R235): counts of corrected
errors, whether some sector was beyond correction, and which entry of the batch or group was, counted from 0; for a bad
sector, whether it held references alone (R218), and which record of the unit it belonged to. -/
structure EccOutcome where
  onDie : Nat
  secded : Nat
  qrf : Nat
  sectorBad : Bool
  badEntry : Option Nat
  adjOnly : Bool := false
  badRec : Nat := 0
deriving DecidableEq, Repr

/-- An error that a unit reports to the Referee (R498, R502). `bib` is absent for an internal operation; `onDie` says that
a stack's on-die ECC corrected it, not the SECDED code of the Track die (R31, R234). -/
structure ErrReport where
  source : Nat
  utype : Nat
  uinst : Nat
  bib : Option Nat
  addr : Nat
  access : Nat
  onDie : Bool
deriving DecidableEq, Repr

/-- The end of a flash read (R416 to R419): the retry level that each 4 KiB codeword of the tile needed, in order, above 8 where
it is uncorrectable and 0 beyond the list; codewords corrected at the first decode; units that fail the CRC-32 of their spare
bytes. -/
structure FlashRead where
  levels : List Nat
  corrected : Nat
  crcFails : Nat := 0
deriving DecidableEq, Repr

/-- The straps of Table 22.5 as the board drives them, APT_EN apart (R73). -/
structure Straps where
  bootMode : Nat
  xspiQuad : Bool
  smbAddr0 : Bool
  testEn : Bool
deriving DecidableEq, Repr

/-- The clocks and PLLs of R535. -/
inductive ClkLoss where
  | sysRef | core | track | stk (n : Nat) | stride (n : Nat) | flash | mgmt
  | pcieRef (port : Nat) | ethRef
deriving DecidableEq, Repr

/-- What Read ID and the parameter page say at one chip enable (R404, R406): planes of a LUN, data and spare bytes of a page, LUNs,
blocks of a LUN, pages of a block in the cells' native mode. -/
structure TargetInfo where
  ce : Nat
  id : Nat
  planes : Nat
  page : Nat
  spare : Nat
  luns : Nat
  blocks : Nat
  pages : Nat
deriving DecidableEq, Repr

/-- What discovery found on one channel of a sled (R406): its targets, the trained rate and the failures. -/
structure ChanInfo where
  targets : List TargetInfo
  mts : Nat
  trainFails : Nat
deriving DecidableEq, Repr

/-- What discovery of a sled found (R406), by channel. -/
structure SledInfo where
  chans : List ChanInfo
deriving DecidableEq, Repr

/-- The power estimate and the conversions that GET_POWER reports (Table 22.16). -/
structure PowerSample where
  watts : Nat
  main : Nat
  hold : Nat
deriving DecidableEq, Repr

/-- The SEND operations that the node refuses as responder (Table 18.2). -/
inductive RoceBad where
  | send | sendInvalidate | rdmaWrite
deriving DecidableEq, Repr

/-- The fields of a port's configuration space that Table 06.9 gives; `ident` stands for those that only the published
standard gives. -/
inductive CfgField where
  | totalVfs | firstVfOffset | vfStride | numVfs | vfEnable | ariCapable | ariEnable | maxPayload | maxRead
  | linkSpeed | linkWidth | msixSize (fn : Nat) | msixEnable (fn : Nat) | powerState (fn : Nat) | ecrcGen | ecrcCheck
  | completionTimeout | timeoutDisable | bar (index : Nat) | ident
deriving DecidableEq, Repr

/-- The configuration requests of a port (R159, Tables 03.1 and 06.9). Function 0 is PF0, function n the VF n; BAR
dwords 0 to 5 are those of PF0, 6 to 11 the VF BARs of its SR-IOV capability. -/
inductive CfgReq where
  | vfEnable (on : Bool) (numVfs : Nat)
  | msixEnable (fn : Nat) (on : Bool)
  | powerState (fn : Nat) (d3 : Bool)
  | maxPayload (bytes : Nat)
  | maxRead (bytes : Nat)
  | ariEnable (on : Bool)
  | ecrc (gen check : Bool)
  | completionTimeout (code : Nat)
  | barWrite (index value : Nat)
  | read (f : CfgField)
deriving DecidableEq, Repr

/-- The commands of the block: one constructor per row of spec/opcode_table.json. `t` is the split time
at which the command happens (R9; log 1). -/
inductive Instr where
  /-- R190: A SEARCH descriptor lands in a bib's search window and, once admitted, runs encode, shard search, merge, rerank, final cut and completion. -/
  | search (t : Nat) (src : Src) (d : Bytes)
  /-- R188: A SEARCH_CODE descriptor brings its own query code and runs a search without an encoder step. -/
  | searchCode (t : Nat) (src : Src) (d : Bytes)
  /-- R240: An INSERT descriptor is admitted, its code is read by DMA, and it is forwarded to the heat's primary to join a commit group. -/
  | insert (t : Nat) (src : Src) (d : Bytes)
  /-- R240: A DELETE descriptor is admitted and forwarded to the heat's primary to join a commit group. -/
  | delete (t : Nat) (src : Src) (d : Bytes)
  /-- R196: A CANCEL descriptor leaves its FIFO at landing and cancels the bib's searches whose TAG equals TARGET and that have not begun the rerank step. -/
  | cancel (t : Nat) (src : Src) (d : Bytes)
  /-- R289: PROG_LOAD reads a program package by DMA, checks it, and copies it into a program slot of the bib's partition. -/
  | progLoad (t : Nat) (src : Src) (d : Bytes)
  /-- R292: PROG_FREE puts a program slot into the freeing state and releases it when its last pass ends. -/
  | progFree (t : Nat) (src : Src) (d : Bytes)
  /-- R290: A RUN descriptor queues a program run over host input rows for an Infield pass. -/
  | run (t : Nat) (src : Src) (d : Bytes)
  /-- R297: RUN_CANCEL leaves its FIFO at landing and cancels the bib's RUNs with a matching TAG that have no pass yet. -/
  | runCancel (t : Nat) (src : Src) (d : Bytes)
  /-- R343: LOOKUP reads embedding rows from their owners and writes them raw or pooled into bags. -/
  | lookup (t : Nat) (src : Src) (d : Bytes)
  /-- R347: UPDATE places delta rows into the step buffers of their owners. -/
  | update (t : Nat) (src : Src) (d : Bytes)
  /-- R347: ROW_SET places replacement rows into the step buffers of their owners. -/
  | rowSet (t : Nat) (src : Src) (d : Bytes)
  /-- R348: STEP_END sends this node's end marker for a step to every owner and completes when the step is applied everywhere. -/
  | stepEnd (t : Nat) (src : Src) (d : Bytes)
  /-- R368: SEG_READ reads a range of a segment's published version, taken at admission at the home. -/
  | segRead (t : Nat) (src : Src) (d : Bytes)
  /-- R363: SEG_STAT reports a segment's published version, holder, ownership state and current grant. -/
  | segStat (t : Nat) (src : Src) (d : Bytes)
  /-- R363: SEG_CREATE creates a segment at its home, and the requester holds grant 1. -/
  | segCreate (t : Nat) (src : Src) (d : Bytes)
  /-- R365: SEG_WRITE writes a range into the holder's shadow at the home, opens or extends the lease, and sets the dirty mark. -/
  | segWrite (t : Nat) (src : Src) (d : Bytes)
  /-- R366: SEG_FLUSH completes when the holder's earlier writes have been applied, and clears the dirty mark. -/
  | segFlush (t : Nat) (src : Src) (d : Bytes)
  /-- R367: SEG_PUBLISH compares the version with the published one and, when accepted, publishes the shadow in one step. -/
  | segPublish (t : Nat) (src : Src) (d : Bytes)
  /-- R369: SEG_RENEW extends the write lease, or with RESTART clears EXPIRED. -/
  | segRenew (t : Nat) (src : Src) (d : Bytes)
  /-- R372: SEG_HANDOFF offers, accepts, claims or cancels ownership of a segment at its home under the ownership table. -/
  | segHandoff (t : Nat) (src : Src) (d : Bytes)
  /-- R363: SEG_DROP removes a segment owned under the current grant. -/
  | segDrop (t : Nat) (src : Src) (d : Bytes)
  /-- R391: ALLOC creates a tier allocation of COUNT tiles with a placement hint. -/
  | alloc (t : Nat) (src : Src) (d : Bytes)
  /-- R398: FREE frees an allocation after earlier requests that name it have ended. -/
  | free (t : Nat) (src : Src) (d : Bytes)
  /-- R395: TILE_WRITE writes tiles through the one-bit write buffer in ascending order, stopping below the NV bar. -/
  | tileWrite (t : Nat) (src : Src) (d : Bytes)
  /-- R396: TILE_READ reads whole tiles to host memory and fills the DRAM tier under the allocation's hint. -/
  | tileRead (t : Nat) (src : Src) (d : Bytes)
  /-- R397: SET_HINT changes an allocation's placement hint, pinning or unpinning its tiles. -/
  | setHint (t : Nat) (src : Src) (d : Bytes)
  /-- R396: PREFETCH brings tiles into the DRAM tier as cache at age 0 without counting misses. -/
  | prefetch (t : Nat) (src : Src) (d : Bytes)
  /-- R422: DISCARD marks tiles of an allocation discarded, frees their flash units and drops unpinned copies. -/
  | discard (t : Nat) (src : Src) (d : Bytes)
  /-- R423: SCRUB reads tiles from flash and rewrites those that patrol would rewrite. -/
  | scrub (t : Nat) (src : Src) (d : Bytes)
  /-- R62: LOAD_IMAGE copies a course image from a host buffer or the NOR slot and starts the loader's CHECKING state. -/
  | loadImage (t : Nat) (src : Src) (d : Bytes)
  /-- R108: CONTRACT_SET adds, changes or removes one bib's contracts and Pacers after re-running admission for that bib. -/
  | contractSet (t : Nat) (src : Src) (d : Bytes)
  /-- R123: BIB_ENABLE moves a bib toward ACTIVE under the bib state machine. -/
  | bibEnable (t : Nat) (src : Src) (d : Bytes)
  /-- R123: BIB_DISABLE starts a teardown with grace toward DISABLED or changes the pending target. -/
  | bibDisable (t : Nat) (src : Src) (d : Bytes)
  /-- R123: BIB_RESET starts a teardown without grace toward ACTIVE, from PF0 or from the bib's own window with SELF_RESET. -/
  | bibReset (t : Nat) (src : Src) (d : Bytes)
  /-- R129: BIB_BIND moves a bib to a new binding in one MGMT cycle at T0 and starts the old path's drain. -/
  | bibBind (t : Nat) (src : Src) (d : Bytes)
  /-- R156: RING_SET configures, enables or disables one completion ring of a bib. -/
  | ringSet (t : Nat) (src : Src) (d : Bytes)
  /-- R504: FAULT_ACK reads, acknowledges and clears a Referee record, in that order, in one MGMT cycle. -/
  | faultAck (t : Nat) (src : Src) (d : Bytes)
  /-- R548: QUOTE writes a signed 256-byte quote over the measurement log's running digest. -/
  | quote (t : Nat) (src : Src) (d : Bytes)
  /-- R549: KEY_ADMIN checks a signed key administration record and writes its one-way fuse action. -/
  | keyAdmin (t : Nat) (src : Src) (d : Bytes)
  /-- R424: LOG_READ copies a coherent snapshot of a sled health, media error, bib flash use or measurement log to host memory. -/
  | logRead (t : Nat) (src : Src) (d : Bytes)
  /-- R155: NOP completes with ST_OK, returning credits and LOAD. -/
  | nop (t : Nat) (src : Src) (d : Bytes)
  /-- R495: MEET_STAT writes a 4,096-byte record of the meet's epochs, holder, slot states and heat primaries. -/
  | meetStat (t : Nat) (src : Src) (d : Bytes)
  /-- R483: HEAT_ROLE starts a planned handoff of a heat's primary role to a named replica. -/
  | heatRole (t : Nat) (src : Src) (d : Bytes)
  /-- R489: MEET_RESTART makes the holder begin a meet restart with a new restart epoch. -/
  | meetRestart (t : Nat) (src : Src) (d : Bytes)
  /-- R480: BATON_MOVE hands the baton to a live standby at the next beacon instant. -/
  | batonMove (t : Nat) (src : Src) (d : Bytes)
  /-- R25: A descriptor whose opcode is undefined, or outside its window's range, completes with ST_BAD_DESC. -/
  | unknownOpcode (t : Nat) (src : Src) (d : Bytes)
  /-- R149: A release record written to offset 0x1FC0 of an admin window returns consumed ring entries. -/
  | ringRelease (t : Nat) (src : Src) (rec : Bytes)
  /-- R116: A write to the command window of a VF that carries no bib is discarded and counted. -/
  | strayWindowWrite (t : Nat) (port : Nat) (vf : Nat)
  /-- R137: Incomplete blocks or a poisoned, malformed or ECRC-failing TLP are dropped, counted and reported. -/
  | tlpDropped (t : Nat) (src : Src) (kind : TlpDrop) (off : Nat)
  /-- R76: An access outside every block or not naturally aligned in PF0 BAR0 reads 0 or is discarded and increments ID_STRAY. -/
  | bar0StrayAccess (t : Nat) (port : Nat) (off : Nat) (size : Nat) (wr : Option Nat)
  /-- R15: A read of an RC register returns its value and clears it, keeping any event of the same cycle. -/
  | rcRegisterRead (t : Nat) (port : Nat) (blk : Nat) (inst : Nat) (span : Span) (hw : Nat)
  /-- R15: A write to a register without behaviour of its own is stored, discarded or ignored according to its access type. -/
  | registerWrite (t : Nat) (port : Nat) (blk : Nat) (inst : Nat) (span : Span) (value : Nat)
  /-- R514: A 1 written to REF_PEND.PEND clears the pending notification bit. -/
  | refPendClear (t : Nat) (value : Nat) (hwSet : Bool)
  /-- R511: A write to REF_CFG.ERRCLASS re-evaluates ERR_N and may release it. -/
  | errclassWrite (t : Nat) (value : Nat)
  /-- R537: 0x5AA5 written to PWR_RST.KEY from PF0 resets the node 10 µs later. -/
  | softReset (t : Nat) (port : Nat) (value : Nat)
  /-- R158: A write to ADM_RING_CFG enables or configures the PF0 admin ring, or is refused when fields are out of range. -/
  | adminRingConfig (t : Nat) (port : Nat) (value : Nat)
  /-- R380: A write of POOL_APTKEY or POOL_APTCTL.EN maps a segment into an aperture slot for later TLPs. -/
  | apertureSlotSet (t : Nat) (slot : Nat) (isKey : Bool) (value : Nat)
  /-- R379: A read TLP to PF0 BAR4 is served whole from one published version of the mapped segment, or refused with Unsupported Request. -/
  | apertureRead (t : Nat) (port : Nat) (off : Nat) (len : Nat)
  /-- R379: A write to PF0 BAR4 is dropped and counted. -/
  | apertureWrite (t : Nat) (port : Nat) (off : Nat) (len : Nat)
  /-- R520: A 1 written to a slot's bit of PANEL_CMD.REMOVE is a removal request for that sled slot. -/
  | panelRemove (t : Nat) (mask : Nat)
  /-- R520: A 1 written to a slot's bit of PANEL_CMD.CANCEL cancels a removal in the abort window. -/
  | panelCancel (t : Nat) (mask : Nat)
  /-- R518: A PF0 write to PANEL_CFG.ID sets or clears identify and ID_LED. -/
  | identifyWrite (t : Nat) (value : Nat)
  /-- R545: A write of RCV_CMD.GO in recovery phase reads, checks and runs a recovery firmware image, with STORE writing it to NOR. -/
  | recoveryLoad (t : Nat) (port : Nat) (value : Nat)
  /-- R161: A Function Level Reset of a VF carrying a bib acts as BIB_RESET from PF0 and clears its ring configuration. -/
  | vfFlr (t : Nat) (port : Nat) (vf : Nat)
  /-- R161: A PF0 Function Level Reset disables the admin ring and clears VF Enable. -/
  | pf0Flr (t : Nat) (port : Nat)
  /-- R161: VF Enable cleared, link down or hot reset raises BIB_FATAL BINDING_LOST against every bib bound to a VF of the port. -/
  | portBindingLoss (t : Nat) (port : Nat) (kind : PortLoss)
  /-- R539: PERST_N of a port resets that port's controller, PF0, VFs and admin ring only. -/
  | perstAssert (t : Nat) (port : Nat)
  /-- R449: A PCIe link trains below its rate at load and the Referee records UNIT_FATAL without fencing. -/
  | linkDegraded (t : Nat) (port : Nat) (lanes : Nat) (rate : Nat)
  /-- R160: A DMA read returns data, Unsupported Request or Completer Abort, or times out, and the waiting request resumes or fails. -/
  | dmaReadDone (t : Nat) (id : Nat) (res : DmaResult)
  /-- R441: A RoCEv2 SEND with Immediate carrying descriptors is handled as a posted write to a service window. -/
  | roceSubmission (t : Nat) (bib : Nat) (imm : Nat) (payload : Bytes)
  /-- R442: A RoCEv2 SEND with Immediate carrying a key record sets the regions used to resolve a fabric bib's DMA. -/
  | roceKeyRecord (t : Nat) (bib : Nat) (rec : Bytes)
  /-- R440: A received RoCEv2 packet marked CE makes the node send a CNP, at most one per queue pair per 50 µs. -/
  | roceCeReceived (t : Nat) (bib : Nat)
  /-- R439: RoCEv2 retries of a queue pair are exhausted and BIB_FATAL BINDING_LOST is raised against the bib. -/
  | roceRetryExhausted (t : Nat) (bib : Nat)
  /-- R436: A received PAUSE or PFC frame is counted and discarded. -/
  | pauseReceived (t : Nat) (port : Nat)
  /-- R437: A received ARP, Neighbor Discovery or ICMP echo frame is answered by Cerone; other non-node frames are dropped and counted. -/
  | neighborFrame (t : Nat) (port : Nat) (kind : NeighborKind)
  /-- R444: A PTP event message is timestamped and processed by the servo, which steps or slews split time and updates lock. -/
  | ptpMessage (t : Nat) (port : Nat) (offset : Int) (freq : Int)
  /-- R445: No synchronisation arrives for 2 s, so LOCKED clears and HOLDOVER sets. -/
  | ptpSyncTimeout (t : Nat)
  /-- R481: A node has been in holdover for more than 1 s and its copies report DOWN. -/
  | holdoverLimit (t : Nat)
  /-- R472: A HEARTBEAT frame from a member reaches the holder or a standby and updates that slot's state, levels and copies. -/
  | heartbeat (t : Nat) (h : RHdr) (body : Bytes)
  /-- R472: A BEACON frame from the holder reaches a member, refreshing its beacon timer and sequence numbers. -/
  | beacon (t : Nat) (h : RHdr) (body : Bytes)
  /-- R472: A MEMBERS frame installs the holder's slot states and load levels at a member. -/
  | members (t : Nat) (h : RHdr) (body : Bytes)
  /-- R476: A ROLES frame installs each heat's primary and serving copies at a member. -/
  | roles (t : Nat) (h : RHdr) (body : Bytes)
  /-- R473: A LOST frame makes a member stop sending to the slot and treat its outstanding shard queries as failed copies. -/
  | lost (t : Nat) (h : RHdr) (body : Bytes)
  /-- R476: A TAKEOVER frame makes the successor commit or drop pending groups, commit later epochs empty and become primary. -/
  | takeover (t : Nat) (h : RHdr) (body : Bytes)
  /-- R480: A BATON frame installs a new baton number and holder, and may fence a holder that sees a newer number. -/
  | baton (t : Nat) (h : RHdr) (body : Bytes)
  /-- R489: A RESTART frame makes a node answer with JOIN within JOIN_MS. -/
  | restart (t : Nat) (h : RHdr) (body : Bytes)
  /-- R490: A JOIN frame reaches the holder, which checks digest, fingerprint and signature for admission at the restart. -/
  | join (t : Nat) (h : RHdr) (body : Bytes)
  /-- R491: A REFILL frame installs region, side-list, tombstone or index data of a heat copy from its primary. -/
  | refill (t : Nat) (h : RHdr) (body : Bytes)
  /-- R470: An ACK frame acknowledges reliable Relay frames and stops their retransmission. -/
  | relayAck (t : Nat) (h : RHdr)
  /-- R197: A SHARD_QUERY frame starts a shard query of a heat copy on SERVE_PART at the carried epoch. -/
  | shardQuery (t : Nat) (h : RHdr) (body : Bytes)
  /-- R269: A PARTIAL_LIST message reaches the admitting node and is accepted into the merge or discarded. -/
  | partialList (t : Nat) (h : RHdr) (body : Bytes)
  /-- R486: A SHARD_FAIL frame marks a copy failed and triggers a hedge or gives the source up. -/
  | shardFail (t : Nat) (h : RHdr) (body : Bytes)
  /-- R486: A SHARD_CANCEL frame ends a shard query at a copy, which sends nothing more. -/
  | shardCancel (t : Nat) (h : RHdr) (body : Bytes)
  /-- R241: An UPDATE frame reaches a heat's primary, which judges the update and appends it to the open commit group, or answers a repeated ID with its first outcome. -/
  | updateFrame (t : Nat) (h : RHdr) (body : Bytes)
  /-- R240: An OUTCOME frame reaches the admitting node, which completes the update with its status and result. -/
  | outcome (t : Nat) (h : RHdr) (body : Bytes)
  /-- R242: A GROUP frame delivers a commit group's journal record to a replica, which acknowledges it. -/
  | group (t : Nat) (h : RHdr) (body : Bytes)
  /-- R242: A GROUP_ACK frame records a replica's receipt of a commit group at the primary. -/
  | groupAck (t : Nat) (h : RHdr) (body : Bytes)
  /-- R242: A COMMIT frame makes a replica apply the group and advance its applied epoch, and acknowledge. -/
  | commit (t : Nat) (h : RHdr) (body : Bytes)
  /-- R343: An EMBED frame carries an embedding row request, response, step data, end marker, migration row, log, switch announcement or cancellation. -/
  | embedFrame (t : Nat) (h : RHdr) (body : Bytes)
  /-- R360: A POOL frame carries a forwarded pool operation to its home or its response back to the admitting node. -/
  | poolFrame (t : Nat) (h : RHdr) (body : Bytes)
  /-- R467: A Relay frame with unknown magic, version or type, wrong length or non-member source is discarded and counted. -/
  | relayBadFrame (t : Nat) (raw : Bytes)
  /-- R470: A reliable Relay frame unacknowledged for RETX_US is retransmitted, up to three times except UPDATE. -/
  | relayRetransmit (t : Nat) (dst : Nat) (seq : Nat)
  /-- R472: At each 50 µs instant every member sends a heartbeat and the holder sends a beacon. -/
  | heartbeatInstant (t : Nat)
  /-- R472: The holder sends MEMBERS once every 1 ms. -/
  | membersPeriod (t : Nat)
  /-- R473: A live slot has missed four heartbeat instants and the holder declares it lost and starts takeovers. -/
  | slotLossDeadline (t : Nat) (slot : Nat)
  /-- R474: A member that has had no beacon for 200 µs commits every group of its primaries empty. -/
  | beaconSilenceCommit (t : Nat)
  /-- R474: A member with no beacon for 225 µs fences itself and answers Relay requests with ST_FENCED. -/
  | selfFence (t : Nat)
  /-- R479: A standby takes the baton when the holder and earlier standbys have each missed four instants. -/
  | standbyTakesBaton (t : Nat)
  /-- R489: At the end of the join window the holder admits passing JOINs, sends MEMBERS and ROLES, and passes the baton. -/
  | joinWindowEnd (t : Nat)
  /-- R493: A node that hears no beacons for its wait at cold start takes the baton and begins a restart if it is the anchor or a standby. -/
  | coldStartListenEnd (t : Nat)
  /-- R483: At commit boundary k × I the primary role of a heat under planned handoff passes to the new primary. -/
  | plannedHandoffBoundary (t : Nat) (heat : Nat)
  /-- R486: A shard query's hedge threshold passes unanswered and it is sent to the next copy. -/
  | hedgeThreshold (t : Nat) (req : Nat) (source : Nat)
  /-- R486: Four times the hedge threshold passes since the first send and the merge gives the source up. -/
  | sourceGiveUp (t : Nat) (req : Nat) (source : Nat)
  /-- R485: At every whole millisecond the admitting node recomputes each heat's hedge threshold. -/
  | hedgeRecompute (t : Nat)
  /-- R496: At each whole hour the interrupted-time registers move to the previous-hour register. -/
  | interruptedHourRoll (t : Nat)
  /-- R241: At k × I the primary closes group k, starting its journal program and sending it to replicas, or ends it EMPTY below the NV bar. -/
  | commitGroupClose (t : Nat) (heat : Nat)
  /-- R241: At k × I + P a durable group is applied and committed, or a non-durable group's updates move into group k + 1. -/
  | commitGroupPublish (t : Nat) (heat : Nat)
  /-- R180: A shard query held at a lagging copy for HOLD_US completes with ST_TIMEOUT. -/
  | lagholdExpiry (t : Nat) (sq : Nat)
  /-- R33: A query context frees and waiting head descriptors are admitted from reserves and the shared remainder. -/
  | contextFree (t : Nat) (req : Nat)
  /-- R32: An operation tracker entry frees and a unit stalled on a full tracker resumes. -/
  | trackerEntryFree (t : Nat)
  /-- R197: A Walk engine slot frees and a waiting shard query is placed on it. -/
  | walkSlotFree (t : Nat) (part : Nat)
  /-- R210: A coalescer group closes WINDOW ns after its first request and awaits dispatch. -/
  | packWindowClose (t : Nat) (grp : Nat)
  /-- R211: A Stride engine finishes a walk group and returns distances, pass bits and references to the waiting queries. -/
  | strideGroupReturn (t : Nat) (grp : Nat) (ecc : EccOutcome)
  /-- R231: A Stride slice begins on every engine, changing owner or lending, restoring or dispatching work. -/
  | sliceBoundary (t : Nat)
  /-- R232: The last 160 ns before an owner change begin: the engine starts no new work and saves a suspended batch. -/
  | sliceGuard (t : Nat)
  /-- R225: A scan batch closes after SCANWIN and is loaded into the batch half of every engine. -/
  | scanBatchClose (t : Nat) (batch : Nat)
  /-- R250: A side-list batch closes after WIN, takes head, tail and pause number, and is scanned. -/
  | sideBatchClose (t : Nat) (batch : Nat)
  /-- R227: A scan engine's miss notice reaches the Track die, which grants the tile or marks queries miss-exhausted. -/
  | missNotice (t : Nat) (batch : Nat) (engine : Nat) (tile : Nat)
  /-- R236: A Stride engine finishes no record for WDOG µs and is fenced. -/
  | strWdog (t : Nat) (engine : Nat)
  /-- R258: Selector slots free and a waiting list is placed on a selector. -/
  | podSlotsFree (t : Nat) (part : Nat)
  /-- R266: A closed Podium list is delivered after its delivery delay and its slots are freed. -/
  | listDelivery (t : Nat) (list : Nat)
  /-- R293: The head of a partition's Infield queue receives tiles and Track SRAM pages for a pass. -/
  | passGrant (t : Nat) (part : Nat)
  /-- R299: A requested weight tile arrives in Track SRAM and a waiting layer may start. -/
  | weightTileArrival (t : Nat) (pass : Nat) (layer : Nat) (tile : Nat)
  /-- R299: A program layer ends, its tiles are released and the next layer beyond the window is requested. -/
  | layerEnd (t : Nat) (pass : Nat)
  /-- R308: An Infield tile retires no operation for WDOG µs and is fenced. -/
  | tileWdog (t : Nat) (tile : Nat)
  /-- R252: A copy starts a consolidation build walk as its consolidation bucket allows. -/
  | buildWalkStart (t : Nat) (heat : Nat)
  /-- R254: At a whole millisecond one copy with complete staging runs a consolidation pause. -/
  | consolidationPause (t : Nat)
  /-- R349: STEP_TO_US passes since the first change or marker of a step and the owner closes it. -/
  | stepTimeout (t : Nat) (table : Nat) (step : Nat)
  /-- R354: At the end of each 1 ms window an owner updates its load level and may start a migration of a hot row. -/
  | loadWindowEnd (t : Nat) (busy : Nat)
  /-- R355: A migration in COPY or REPLAY reaches 1 ms and aborts. -/
  | migrationTimeout (t : Nat) (mig : Nat)
  /-- R355: The switch epoch k becomes current and every member routes the migrated row to the destination. -/
  | migrationSwitch (t : Nat) (mig : Nat)
  /-- R370: A write lease expires and the home discards the shadow and marks the segment EXPIRED. -/
  | leaseExpiry (t : Nat) (key : Nat)
  /-- R372: An ownership offer lapses after HANDOFF_MS and the segment returns to HELD. -/
  | offerExpiry (t : Nat) (key : Nat)
  /-- R387: Every 10 ms the node adds each unpinned resident tile's sweep step to its age. -/
  | tierSweep (t : Nat)
  /-- R452: At a refill instant a Pacer gains tokens and applies pending changes. -/
  | pacerRefill (t : Nat) (pacer : Nat)
  /-- R454: A gate control list entry comes into force and opens or closes service gates. -/
  | gateChange (t : Nat) (outlet : Nat)
  /-- R456: An outlet is free and the traffic manager commits the first eligible head frame by band order. -/
  | outletCommit (t : Nat) (outlet : Nat) (lane : Nat)
  /-- R457: An OPEN head's wait exceeds its PROMO_AGE and it enters URGENT. -/
  | promotionAge (t : Nat) (outlet : Nat) (sub : Nat) (svc : Nat)
  /-- R152: MOD_TIME passes since the first unsignalled ring entry and the ring's interrupt is sent. -/
  | modTimeExpiry (t : Nat) (ring : Nat)
  /-- R150: A completion has waited 1 ms for ring space and is discarded, with a RING_FULL fault. -/
  | ringFullTimeout (t : Nat) (ring : Nat)
  /-- R500: A unit's error report reaches the Referee and is filed in a record, opening or raising it. -/
  | errorReport (t : Nat) (e : ErrReport)
  /-- R507: An OPEN record's grace window ends and it escalates one step on the ladder. -/
  | graceExpiry (t : Nat) (rec : Nat)
  /-- R124: A teardown's grace ends and work still running completes with ST_FENCED. -/
  | teardownGraceEnd (t : Nat) (bib : Nat)
  /-- R124: Every operation of a bib has retired, so teardown releases its resources, increments the generation and enters the pending state. -/
  | teardownEnd (t : Nat) (bib : Nat)
  /-- R126: A teardown reaches 12 ms and every unit still holding an operation of the bib is fenced. -/
  | teardownStuck (t : Nat) (bib : Nat)
  /-- R62: The loader's checks end and it moves to STORING, DRAINING or APPLYING, or refuses the image. -/
  | loaderChecksDone (t : Nat)
  /-- R63: The admission check has not ended within 200 ms and the load is refused with ST_TIMEOUT. -/
  | admissionTimeout (t : Nat)
  /-- R108: A contract change check has not ended within 20 ms and completes with ST_TIMEOUT. -/
  | contractCheckTimeout (t : Nat)
  /-- R64: The NOR write of a STORE ends and the loader moves to DRAINING or APPLYING. -/
  | storeEnd (t : Nat)
  /-- R66: In-flight work ends or 2 ms elapse in DRAINING, the rest completes with ST_FENCED and APPLYING begins. -/
  | drainEnd (t : Nat)
  /-- R67: APPLYING finishes structure, carve-outs, bibs, Start List and locks and LOAD_IMAGE completes; the loader is ACTIVE. -/
  | applyingEnd (t : Nat)
  /-- R386: A flash read of a tile ends, fills its frame and resumes every request waiting on it. -/
  | flashReadDone (t : Nat) (op : Nat) (res : FlashRead)
  /-- R395: A flash program ends, updating the map and the tile's DRAM copy, or retiring a failed block. -/
  | flashProgramDone (t : Nat) (op : Nat) (ok : Bool)
  /-- R420: A block erase ends, freeing the block or retiring it on failure. -/
  | flashEraseDone (t : Nat) (op : Nat) (ok : Bool)
  /-- R414: The write buffer fills above FOLD_PCT and folding starts copying buffer tiles into native blocks. -/
  | foldStart (t : Nat)
  /-- R415: A target's free blocks fall below 2% and reclaim moves valid units from the emptiest block. -/
  | reclaimStart (t : Nat) (target : Nat)
  /-- R412: Dirty map segments reach 75% of the bound and are written back oldest first. -/
  | journalWriteback (t : Nat)
  /-- R389: The node starts the write-back of a dirty resident tile to its flash home. -/
  | dirtyWriteback (t : Nat) (tile : Nat)
  /-- R420: Patrol reads a used target through and rewrites units with many corrected bits. -/
  | patrolRead (t : Nat) (target : Nat) (found : PatrolFinds)
  /-- R425: VSENSE_MAIN stays below NVBAR for 2 µs and no new program, erase, fuse or NOR write may start. -/
  | nvBarEntry (t : Nat) (main : Nat)
  /-- R425: VSENSE_MAIN stays at or above NVBAR + 2 for 100 µs and the NV bar lifts. -/
  | nvBarExit (t : Nat) (main : Nat)
  /-- R427: VSENSE_MAIN below LOSS or HOLDUP_N asserted for 2 µs begins flush mode. -/
  | flushEntry (t : Nat) (cause : Nat) (main : Nat)
  /-- R427: VSENSE_HOLD falls below FLOOR and no further flush program starts. -/
  | holdFloorReached (t : Nat) (hold : Nat)
  /-- R427: The end record's program ends, or the last programs after the floor end, and the node enters HALT. -/
  | flushEnd (t : Nat)
  /-- R532: In HALT, VSENSE_MAIN holds above the NV bar + 2 for 100 ms with HOLDUP_N deasserted and the node resets itself. -/
  | resumeReset (t : Nat) (main : Nat)
  /-- R537: PWR_OK deasserts and the node enters OFF with cause POWER. -/
  | pwrOkFall (t : Nat)
  /-- R531: PWR_OK asserts and the node enters RESET. -/
  | pwrOkRise (t : Nat)
  /-- R537: RESET_N held low for at least 1 µs resets the node with cause PIN. -/
  | resetPin (t : Nat)
  /-- R542: Internal reset is released after 100 µs and boot or recovery starts. -/
  | resetRelease (t : Nat) (straps : Straps)
  /-- R537: The control core watchdog is not served for 1 s, or a boot step overruns, and the node resets with cause WDOG. -/
  | controlWdog (t : Nat)
  /-- R535: A reference clock is lost or a PLL unlocks and the node resets, a port link drops, or TIME switches to its backup. -/
  | clockLoss (t : Nat) (clk : ClkLoss)
  /-- R535: ETH_REFCLK has run stably for 10 ms and TIME returns to it. -/
  | timeClockReturn (t : Nat)
  /-- R566: A die sensor reaches its trip or THERMTRIP_N is held low, and the node drives THERMTRIP_N low and enters RESET with cause THERM. -/
  | thermalTrip (t : Nat)
  /-- R406: Discovery of a sled ends and it becomes ONLINE or FAILED. -/
  | sledDiscoveryEnd (t : Nat) (sled : Nat) (info : SledInfo)
  /-- R542: Boot step 6 or 8 reaches its bound and ends with undiscovered sleds FAILED or the loader in NO_IMAGE. -/
  | bootStepOverrun (t : Nat)
  /-- R516: A short press of a sled's attention button is recognised at its counted rise and acts as a removal request, cancel or insertion. -/
  | attnButtonPress (t : Nat) (slot : Nat)
  /-- R516: A button held low for 4 s toggles identify. -/
  | attnLongPress (t : Nat) (slot : Nat)
  /-- R517: SLED_PRSNT_N held asserted for 100 ms counts as an insertion. -/
  | sledInsertion (t : Nat) (slot : Nat)
  /-- R517: SLED_PRSNT_N held deasserted for 20 ms counts as a removal, a surprise removal outside OFF. -/
  | sledRemoval (t : Nat) (slot : Nat)
  /-- R520: Five seconds after the removal press the sled goes QUIESCING and the node's copies report DOWN. -/
  | abortWindowEnd (t : Nat) (slot : Nat)
  /-- R520: 100 ms after SLED_PWR_EN low the slot turns PWR_LED off. -/
  | sledPowerOffDone (t : Nat) (slot : Nat)
  /-- R551: An MCTP Set Endpoint ID control message sets the endpoint ID. -/
  | mctpSetEndpointId (t : Nat) (eid : Nat)
  /-- R551: An MCTP Get Endpoint ID control message returns the endpoint ID. -/
  | mctpGetEndpointId (t : Nat)
  /-- R551: An MCTP Get MCTP Version Support message returns the supported versions. -/
  | mctpGetVersionSupport (t : Nat)
  /-- R551: An MCTP Get Message Type Support message returns the supported types. -/
  | mctpGetMessageType (t : Nat)
  /-- R551: An MCTP Get Vendor Defined Message Support message returns the vendor message support. -/
  | mctpGetVdmSupport (t : Nat)
  /-- R551: The MCTP vendor command GET_STATUS returns boot, power, Referee, supply and temperature status. -/
  | getStatus (t : Nat)
  /-- R551: The MCTP vendor command GET_POWER returns power and sense readings. -/
  | getPower (t : Nat) (sample : PowerSample)
  /-- R551: The MCTP vendor command READ_LOG returns 64 bytes of log 0x01 or 0x40. -/
  | readLog (t : Nat) (log : Nat) (sled : Nat) (off : Nat)
  /-- R537: The MCTP vendor command NODE_RESET with the confirmation bytes resets the node with cause BMC. -/
  | nodeReset (t : Nat) (b0 : Nat) (b1 : Nat)
  /-- R551: The MCTP vendor command SET_IDENTIFY writes PANEL_CFG.ID. -/
  | setIdentify (t : Nat) (value : Bool)
  /-- R550: The JTAG BYPASS instruction selects the bypass register. -/
  | jtagBypass (t : Nat)
  /-- R550: The JTAG IDCODE instruction shifts out the device identification code. -/
  | jtagIdcode (t : Nat)
  /-- R550: The JTAG SAMPLE/PRELOAD instruction samples or preloads the boundary register. -/
  | jtagSamplePreload (t : Nat)
  /-- R537: Loading EXTEST drives the boundary register and holds the node in reset with cause JTAG. -/
  | jtagExtest (t : Nat)
  /-- R537: Loading CLAMP holds the node in reset with cause JTAG. -/
  | jtagClamp (t : Nat)
  /-- R537: Loading HIGHZ floats outputs and holds the node in reset with cause JTAG. -/
  | jtagHighz (t : Nat)
  /-- R537: TRST_N low or the Test-Logic-Reset state resets the TAP and releases a JTAG-held reset. -/
  | tapReset (t : Nat)
  /-- R539: PERST_N of a port deasserts, APT_EN is sampled for that port, and link training starts. -/
  | perstDeassert (t : Nat) (port : Nat) (aptEn : Bool)
  /-- R443: An Ethernet port or lane group comes up or goes down, changing Relay paths and the port that PTP runs on. -/
  | ethLinkChange (t : Nat) (port : Nat) (up : Nat) (lock : Nat)
  /-- R439: The local ACK timeout of a queue pair expires and the unacknowledged RoCEv2 packets are retransmitted. -/
  | roceAckTimeout (t : Nat) (bib : Nat)
  /-- R438: A received RoCEv2 SEND, SEND with Invalidate or RDMA WRITE is answered with NAK Invalid Request. -/
  | roceInvalidRequest (t : Nat) (bib : Nat) (kind : RoceBad)
  /-- R440: A received CNP is counted in ETH_CNPRX and does not change the sending rate. -/
  | cnpReceived (t : Nat) (port : Nat)
  /-- R159: A host configuration request reaches a port's configuration space, setting VF Enable, MSI-X enable or a power state. -/
  | pcieConfigRequest (t : Nat) (port : Nat) (cfg : CfgReq)
  /-- R152: A write that unmasks an MSI-X vector with its pending bit set sends the pending message. -/
  | msixUnmask (t : Nat) (port : Nat) (fn : Nat) (vec : Nat)
  /-- R443: The node sends its own PTP messages (Sync and Announce as master, Delay_Req or Pdelay as slave) at the protocol's intervals. -/
  | ptpSendInterval (t : Nat)
  /-- R512: The 10 µs limit on Referee vectors ends and the shared vector for events held within it is sent. -/
  | notifyHoldoffEnd (t : Nat)
  /-- R424: Once per second of split time the node samples sled temperature into the health log's bins and SLED_TEMP. -/
  | flashTempSample (t : Nat) (sled : Nat) (celsius : Int)
  /-- R425: VSENSE_HOLD returns to FLOOR or above and FTL_SUPPLY.HOLDLOW clears. -/
  | holdFloorRecovered (t : Nat) (hold : Nat)
  /-- R228: A Stride engine returns scan hits or share-ended entries of a scan or side-list batch to Podium. -/
  | strideBatchReturn (t : Nat) (batch : Nat) (engine : Nat) (unit : Nat) (ecc : EccOutcome)
  /-- R109: The admission re-check of a contract change ends, and the command completes with ST_OK or ST_REFUSED_DEADLINE. -/
  | contractCheckDone (t : Nat)
  /-- R291: The cost check of a PROG_LOAD has not ended within 20 ms and the command completes with ST_TIMEOUT. -/
  | progCheckTimeout (t : Nat) (req : Nat)
  /-- R548: Cerone finishes signing a quote, writes it to ADDR, completes the QUOTE and starts the next waiting one. -/
  | quoteSigned (t : Nat)
  /-- R549: A KEY_ADMIN fuse write ends, the KIND 5 measurement entry is appended and the command completes. -/
  | fuseWriteDone (t : Nat)
  /-- R545: The erase, write and read-back of the firmware slot in a recovery load end, and the image runs or the load fails with NOR_WRITE. -/
  | recoveryWriteDone (t : Nat) (ok : Bool)
deriving DecidableEq, Repr

end Sys2Proof
end

