-- ==== Sys2Proof/Machine/Tab.lean ====
section
/-!
DEFINITION. Tables by number. `find`, `ins`, `del` serve a table whose entries are present or absent; `get` and
`put` serve a store in which an unlisted number reads as a default, and keep no entry equal to that default.
-/
namespace Sys2Proof

/-- The entry at a number, if one is listed. -/
def Tab.find {α : Type} : Tab α → Nat → Option α
  | [], _ => none
  | (k, v) :: r, n => if n = k then some v else Tab.find r n

/-- The table with the entry at a number set. -/
def Tab.ins {α : Type} : Tab α → Nat → α → Tab α
  | [], n, v => [(n, v)]
  | (k, w) :: r, n, v =>
    if n < k then (n, v) :: (k, w) :: r else if n = k then (n, v) :: r else (k, w) :: Tab.ins r n v

/-- The table without an entry at a number. -/
def Tab.del {α : Type} : Tab α → Nat → Tab α
  | [], _ => []
  | (k, w) :: r, n => if n = k then Tab.del r n else (k, w) :: Tab.del r n

/-- The table with the entry at a number changed, if one is listed. -/
def Tab.upd {α : Type} : Tab α → Nat → (α → α) → Tab α
  | [], _, _ => []
  | (k, w) :: r, n, f => if n = k then (k, f w) :: r else (k, w) :: Tab.upd r n f

/-- Whether a number is listed. -/
def Tab.has {α : Type} (t : Tab α) (n : Nat) : Bool := (Tab.find t n).isSome

/-- The values listed, by rising number. -/
def Tab.vals {α : Type} (t : Tab α) : List α := t.map Prod.snd

/-- The numbers listed, rising. -/
def Tab.keys {α : Type} (t : Tab α) : List Nat := t.map Prod.fst

/-- The table with every value changed. -/
def Tab.mapV {α β : Type} (t : Tab α) (f : Nat → α → β) : Tab β := t.map fun p => (p.1, f p.1 p.2)

/-- The entries that satisfy a test. -/
def Tab.keep {α : Type} (t : Tab α) (f : Nat → α → Bool) : Tab α := t.filter fun p => f p.1 p.2

/-- How many entries satisfy a test. -/
def Tab.count {α : Type} (t : Tab α) (f : α → Bool) : Nat := (t.filter fun p => f p.2).length

/-- The value at a number of a store with a default. -/
def Tab.get {α : Type} (d : α) (t : Tab α) (n : Nat) : α := (Tab.find t n).getD d

/-- The store with the value at a number set. -/
def Tab.put {α : Type} [DecidableEq α] (d : α) (t : Tab α) (n : Nat) (v : α) : Tab α :=
  if v = d then Tab.del t n else Tab.ins t n v

/-- The numbers rise strictly, and the first is above `lo` where `lo` is given. -/
def Tab.sortedFrom {α : Type} : Option Nat → Tab α → Bool
  | _, [] => true
  | lo, (k, _) :: r => (match lo with | none => true | some l => l < k) && Tab.sortedFrom (some k) r

/-- The canonical form of a table of present entries. -/
def Tab.ok {α : Type} (t : Tab α) : Bool := Tab.sortedFrom none t

/-- The canonical form of a store: numbers strictly rising, and no entry equal to the default. -/
def Tab.wf {α : Type} [DecidableEq α] (d : α) (t : Tab α) : Bool :=
  Tab.sortedFrom none t && t.all fun p => decide (p.2 ≠ d)

/-- A run of bytes read from a store of bytes. -/
def Tab.getRun {α : Type} (d : α) (t : Tab α) : Nat → Nat → List α
  | _, 0 => []
  | a, n + 1 => Tab.get d t a :: Tab.getRun d t (a + 1) n

/-- A run of bytes written to a store of bytes. -/
def Tab.putRun {α : Type} [DecidableEq α] (d : α) (t : Tab α) : Nat → List α → Tab α
  | _, [] => t
  | a, v :: r => Tab.putRun d (Tab.put d t a v) (a + 1) r

/-- The store without the numbers of a half-open range. -/
def Tab.clearRange {α : Type} (t : Tab α) (lo hi : Nat) : Tab α := t.filter fun p => !(lo ≤ p.1 && p.1 < hi)

end Sys2Proof
end

