-- ==== Sys2Proof/Machine/Bits.lean ====
section
/-!
DEFINITION. Bit fields, byte order (R10), sequence comparison (R11), the CRC of R80.
-/
namespace Sys2Proof

/-- Bits [hi:lo] of a number (R10). -/
def bits (v hi lo : Nat) : Nat := v / 2 ^ lo % 2 ^ (hi + 1 - lo)

/-- Bit n of a number. -/
def bit (v n : Nat) : Bool := bits v n n = 1

/-- The number with bits [hi:lo] replaced. -/
def setBits (v hi lo x : Nat) : Nat :=
  v - bits v hi lo * 2 ^ lo + x % 2 ^ (hi + 1 - lo) * 2 ^ lo

/-- A Boolean as a bit. -/
def ofBool (b : Bool) : Nat := if b then 1 else 0

/-- A little-endian string as a number (R10). -/
def leNat : Bytes → Nat
  | [] => 0
  | b :: r => b.toNat + 256 * leNat r

/-- A big-endian string as a number (fields whose published standard says so). -/
def beNat (b : Bytes) : Nat := leNat b.reverse

/-- The n low bytes of a number, little-endian (R10). -/
def le : Nat → Nat → Bytes
  | 0, _ => []
  | n + 1, v => BitVec.ofNat 8 v :: le n (v / 256)

/-- A run of bytes of a string. -/
def sub (b : Bytes) (off len : Nat) : Bytes := (b.drop off).take len

/-- An n-byte number at an offset; bytes beyond the end count as 0. -/
def un (n : Nat) (b : Bytes) (off : Nat) : Nat := leNat (sub b off n)

def u8 (b : Bytes) (off : Nat) : Nat := un 1 b off
def u16 (b : Bytes) (off : Nat) : Nat := un 2 b off
def u32 (b : Bytes) (off : Nat) : Nat := un 4 b off
def u64 (b : Bytes) (off : Nat) : Nat := un 8 b off

/-- Whether a run of bytes is all 0. -/
def zeros (b : Bytes) (off len : Nat) : Bool := (sub b off len).all (· == 0)

/-- Whether every byte of a string that no listed (offset, length) covers is 0: the reserved bytes of a record. -/
def reservedZero : Nat → List (Nat × Nat) → Bytes → Bool
  | _, _, [] => true
  | i, used, x :: r => ((used.any fun p => p.1 ≤ i && i < p.1 + p.2) || x == 0) && reservedZero (i + 1) used r

/-- A string of n equal bytes. -/
def fill (n : Nat) (b : Byte) : Bytes := List.replicate n b

/-- A string cut or filled with 0 to n bytes. -/
def fit (n : Nat) (b : Bytes) : Bytes := b.take n ++ fill (n - b.length) 0

/-- A string cut into pieces of n bytes. -/
def chunks (n : Nat) : Nat → Bytes → List Bytes
  | 0, _ => []
  | k + 1, b => b.take n :: chunks n k (b.drop n)

/-- The two's complement value of an n-bit field. -/
def signed (n v : Nat) : Int := if v % 2 ^ n < 2 ^ (n - 1) then (v % 2 ^ n : Nat) else (v % 2 ^ n : Nat) - (2 ^ n : Nat)

/-- The n-bit two's complement field of an integer. -/
def unsigned (n : Nat) (i : Int) : Nat := (i % (2 ^ n : Nat)).toNat

/-- R11: a is newer than b among n-bit epochs or generations. -/
def newer (n a b : Nat) : Bool :=
  let k := (a + 2 ^ n - b % 2 ^ n) % 2 ^ n
  1 ≤ k && k < 2 ^ (n - 1)

/-- R11, R12: the presented value a is stale against b, neither equal to it nor newer. -/
def stale (n a b : Nat) : Bool := !(a % 2 ^ n == b % 2 ^ n) && !newer n a b

/-- Rounding up. -/
def ceilDiv (a b : Nat) : Nat := (a + b - 1) / b

/-- How many bits of a number are 1, over its low n bits. -/
def popcount : Nat → Nat → Nat
  | 0, _ => 0
  | n + 1, v => v % 2 + popcount n (v / 2)

/-- The floor of the base-2 logarithm of a positive number, by fuel. -/
def log2Fuel : Nat → Nat → Nat
  | 0, _ => 0
  | f + 1, n => if n < 2 then 0 else 1 + log2Fuel f (n / 2)

def log2 (n : Nat) : Nat := log2Fuel 4096 n

/-- R80: one bit of the reflected CRC-32. -/
def crcBit (c : Nat) : Nat := if c % 2 = 1 then (c / 2) ^^^ 0xEDB88320 else c / 2

/-- R80: one byte of the reflected CRC-32. -/
def crcByte (c : Nat) (b : Byte) : Nat :=
  crcBit (crcBit (crcBit (crcBit (crcBit (crcBit (crcBit (crcBit (c ^^^ b.toNat))))))))

/-- R80: the CRC-32 of a string. -/
def crc32 (b : Bytes) : Nat := (b.foldl crcByte 0xFFFFFFFF) ^^^ 0xFFFFFFFF

/-- The first index of a list at which a test holds. -/
def findIdx? {α : Type} (p : α → Bool) : List α → Option Nat
  | [] => none
  | a :: r => if p a then some 0 else (findIdx? p r).map (· + 1)

/-- An element of a list replaced. -/
def setAt {α : Type} : List α → Nat → α → List α
  | [], _, _ => []
  | _ :: r, 0, v => v :: r
  | a :: r, n + 1, v => a :: setAt r n v

/-- An element of a list changed. -/
def updAt {α : Type} : List α → Nat → (α → α) → List α
  | [], _, _ => []
  | a :: r, 0, f => f a :: r
  | a :: r, n + 1, f => a :: updAt r n f

/-- Insertion of an element in a list sorted by a Boolean order, after its equals. -/
def insertBy {α : Type} (lt : α → α → Bool) (a : α) : List α → List α
  | [] => [a]
  | b :: r => if lt a b then a :: b :: r else b :: insertBy lt a r

/-- A list sorted by a Boolean order; equals keep their order. -/
def sortBy {α : Type} (lt : α → α → Bool) (l : List α) : List α := l.foldl (fun acc a => insertBy lt a acc) []

/-- The sum of a list of numbers. -/
def sum (l : List Nat) : Nat := l.foldl (· + ·) 0

/-- The greatest of a list of numbers, 0 of none. -/
def maxOf (l : List Nat) : Nat := l.foldl max 0

/-- Whether some value stands twice in a list. -/
def dups {α : Type} [BEq α] : List α → Bool
  | [] => false
  | a :: r => r.contains a || dups r

end Sys2Proof
end

