-- ==== Sys2Proof/Machine/Crypto.lean ====
section
/-!
DEFINITION. SHA-512 and Ed25519, as their published standards give them (FIPS 180-4, RFC 8032). PRESUMED: the spec
names both and gives neither (log 21).
-/
namespace Sys2Proof

/-- SHA-512 round constants 0 to 19. -/
def sha512K0 : List Nat := [
  0x428A2F98D728AE22, 0x7137449123EF65CD, 0xB5C0FBCFEC4D3B2F, 0xE9B5DBA58189DBBC,
  0x3956C25BF348B538, 0x59F111F1B605D019, 0x923F82A4AF194F9B, 0xAB1C5ED5DA6D8118,
  0xD807AA98A3030242, 0x12835B0145706FBE, 0x243185BE4EE4B28C, 0x550C7DC3D5FFB4E2,
  0x72BE5D74F27B896F, 0x80DEB1FE3B1696B1, 0x9BDC06A725C71235, 0xC19BF174CF692694,
  0xE49B69C19EF14AD2, 0xEFBE4786384F25E3, 0xFC19DC68B8CD5B5, 0x240CA1CC77AC9C65]

/-- SHA-512 round constants 20 to 39. -/
def sha512K1 : List Nat := [
  0x2DE92C6F592B0275, 0x4A7484AA6EA6E483, 0x5CB0A9DCBD41FBD4, 0x76F988DA831153B5,
  0x983E5152EE66DFAB, 0xA831C66D2DB43210, 0xB00327C898FB213F, 0xBF597FC7BEEF0EE4,
  0xC6E00BF33DA88FC2, 0xD5A79147930AA725, 0x6CA6351E003826F, 0x142929670A0E6E70,
  0x27B70A8546D22FFC, 0x2E1B21385C26C926, 0x4D2C6DFC5AC42AED, 0x53380D139D95B3DF,
  0x650A73548BAF63DE, 0x766A0ABB3C77B2A8, 0x81C2C92E47EDAEE6, 0x92722C851482353B]

/-- SHA-512 round constants 40 to 59. -/
def sha512K2 : List Nat := [
  0xA2BFE8A14CF10364, 0xA81A664BBC423001, 0xC24B8B70D0F89791, 0xC76C51A30654BE30,
  0xD192E819D6EF5218, 0xD69906245565A910, 0xF40E35855771202A, 0x106AA07032BBD1B8,
  0x19A4C116B8D2D0C8, 0x1E376C085141AB53, 0x2748774CDF8EEB99, 0x34B0BCB5E19B48A8,
  0x391C0CB3C5C95A63, 0x4ED8AA4AE3418ACB, 0x5B9CCA4F7763E373, 0x682E6FF3D6B2B8A3,
  0x748F82EE5DEFB2FC, 0x78A5636F43172F60, 0x84C87814A1F0AB72, 0x8CC702081A6439EC]

/-- SHA-512 round constants 60 to 79. -/
def sha512K3 : List Nat := [
  0x90BEFFFA23631E28, 0xA4506CEBDE82BDE9, 0xBEF9A3F7B2C67915, 0xC67178F2E372532B,
  0xCA273ECEEA26619C, 0xD186B8C721C0C207, 0xEADA7DD6CDE0EB1E, 0xF57D4F7FEE6ED178,
  0x6F067AA72176FBA, 0xA637DC5A2C898A6, 0x113F9804BEF90DAE, 0x1B710B35131C471B,
  0x28DB77F523047D84, 0x32CAAB7B40C72493, 0x3C9EBE0A15C9BEBC, 0x431D67C49C100D4C,
  0x4CC5D4BECB3E42B6, 0x597F299CFC657E2A, 0x5FCB6FAB3AD6FAEC, 0x6C44198C4A475817]

/-- SHA-512 initial hash value. -/
def sha512Init : List Nat := [
  0x6A09E667F3BCC908, 0xBB67AE8584CAA73B, 0x3C6EF372FE94F82B, 0xA54FF53A5F1D36F1,
  0x510E527FADE682D1, 0x9B05688C2B3E6C1F, 0x1F83D9ABFB41BD6B, 0x5BE0CD19137E2179]

/-- Rotation of a 64-bit word to the right. -/
def ror64 (x n : Nat) : Nat := x / 2 ^ n + x % 2 ^ n * 2 ^ (64 - n)

/-- Addition of 64-bit words. -/
def add64 (a b : Nat) : Nat := (a + b) % 2 ^ 64

/-- The words of a SHA-512 message schedule still to come, from the last sixteen (oldest first). -/
def sha512Sched : Nat → List Nat → List Nat
  | 0, _ => []
  | k + 1, w =>
    let a := w.getD 1 0
    let b := w.getD 14 0
    let s0 := ror64 a 1 ^^^ ror64 a 8 ^^^ a / 2 ^ 7
    let s1 := ror64 b 19 ^^^ ror64 b 61 ^^^ b / 2 ^ 6
    let n := (s1 + w.getD 9 0 + s0 + w.getD 0 0) % 2 ^ 64
    n :: sha512Sched k (w.drop 1 ++ [n])

/-- One SHA-512 round over the eight working words. -/
def sha512Round (v : List Nat) (kw : Nat) : List Nat :=
  match v with
  | [a, b, c, d, e, f, g, h] =>
    let s1 := ror64 e 14 ^^^ ror64 e 18 ^^^ ror64 e 41
    let ch := (e &&& f) ^^^ ((2 ^ 64 - 1 - e) &&& g)
    let t1 := h + s1 + ch + kw
    let s0 := ror64 a 28 ^^^ ror64 a 34 ^^^ ror64 a 39
    let maj := (a &&& b) ^^^ (a &&& c) ^^^ (b &&& c)
    [add64 t1 (s0 + maj), a, b, c, add64 d t1, e, f, g]
  | _ => v

/-- One 128-byte block of SHA-512. -/
def sha512Block (h : List Nat) (blk : Bytes) : List Nat :=
  let w := (chunks 8 16 blk).map beNat
  let ws := w ++ sha512Sched 64 w
  let ks := sha512K0 ++ sha512K1 ++ sha512K2 ++ sha512K3
  let v := (List.zipWith (· + ·) ks ws).foldl sha512Round h
  List.zipWith add64 h v

/-- SHA-512 of a string, 64 bytes. -/
def sha512 (m : Bytes) : Bytes :=
  let z := (239 - m.length % 128) % 128
  let p := m ++ [0x80#8] ++ fill z 0 ++ (le 16 (8 * m.length)).reverse
  let hs := (chunks 128 (p.length / 128) p).foldl sha512Block sha512Init
  hs.flatMap fun x => (le 8 x).reverse

/-- The field prime of Ed25519. -/
def edP : Nat := 2 ^ 255 - 19

/-- The order of the Ed25519 base point. -/
def edL : Nat := 2 ^ 252 + 27742317777372353535851937790883648493

/-- Powers modulo a number, by fuel over the exponent's bits. -/
def powMod (m : Nat) : Nat → Nat → Nat → Nat
  | 0, _, _ => 1
  | f + 1, b, e =>
    if e = 0 then 1
    else
      let r := powMod m f (b * b % m) (e / 2)
      if e % 2 = 1 then r * b % m else r

/-- The inverse modulo the field prime. -/
def edInv (x : Nat) : Nat := powMod edP 256 x (edP - 2)

/-- The curve constant of Ed25519. -/
def edD : Nat := (edP - 121665) * edInv 121666 % edP

/-- A point in extended coordinates. -/
structure EdPoint where
  x : Nat
  y : Nat
  z : Nat
  t : Nat
deriving DecidableEq, Repr

/-- The sum of two points. -/
def edAdd (p q : EdPoint) : EdPoint :=
  let a := (p.y + edP - p.x) * (q.y + edP - q.x) % edP
  let b := (p.y + p.x) * (q.y + q.x) % edP
  let c := 2 * p.t * q.t % edP * edD % edP
  let d := 2 * p.z * q.z % edP
  let e := b + edP - a
  let f := d + edP - c
  let g := d + c
  let h := b + a
  EdPoint.mk (e * f % edP) (g * h % edP) (f * g % edP) (e * h % edP)

/-- The neutral point. -/
def edZero : EdPoint := EdPoint.mk 0 1 1 0

/-- A multiple of a point, by fuel over the factor's bits. -/
def edMul : Nat → Nat → EdPoint → EdPoint
  | 0, _, _ => edZero
  | f + 1, k, p =>
    if k = 0 then edZero
    else
      let r := edMul f (k / 2) (edAdd p p)
      if k % 2 = 1 then edAdd r p else r

/-- Whether two points are equal. -/
def edEq (p q : EdPoint) : Bool :=
  (p.x * q.z) % edP == (q.x * p.z) % edP && (p.y * q.z) % edP == (q.y * p.z) % edP

/-- The point that 32 bytes name, if one does. -/
def edDecode (b : Bytes) : Option EdPoint :=
  let v := leNat (fit 32 b)
  let y := v % 2 ^ 255
  let sgn := v / 2 ^ 255
  if y ≥ edP then none
  else
    let u := (y * y + edP - 1) % edP
    let w := (edD * (y * y % edP) + 1) % edP
    let x2 := u * edInv w % edP
    let c := powMod edP 256 x2 ((edP + 3) / 8)
    let r := if c * c % edP == x2 then c else c * powMod edP 256 2 ((edP - 1) / 4) % edP
    if r * r % edP != x2 then none
    else if r == 0 && sgn == 1 then none
    else
      let x := if r % 2 == sgn then r else edP - r
      some (EdPoint.mk x y 1 (x * y % edP))

/-- The 32 bytes of a point. -/
def edEncode (p : EdPoint) : Bytes :=
  let i := edInv p.z
  let x := p.x * i % edP
  le 32 (p.y * i % edP + x % 2 * 2 ^ 255)

/-- The base point. -/
def edBase : EdPoint := (edDecode (le 32 (4 * edInv 5 % edP))).getD edZero

/-- Whether a signature over a message verifies under a public key. -/
def edVerify (key msg sig : Bytes) : Bool :=
  let r := sub sig 0 32
  let s := un 32 sig 32
  match edDecode key, edDecode r with
  | some a, some rp =>
    let k := leNat (sha512 (r ++ fit 32 key ++ msg)) % edL
    s < edL && edEq (edMul 256 s edBase) (edAdd rp (edMul 256 k a))
  | _, _ => false

/-- The secret scalar of a 32-byte seed. -/
def edScalar (seed : Bytes) : Nat :=
  let h := un 32 (sha512 (fit 32 seed)) 0
  h % 2 ^ 254 / 8 * 8 + 2 ^ 254

/-- The public key of a seed. -/
def edPublic (seed : Bytes) : Bytes := edEncode (edMul 256 (edScalar seed) edBase)

/-- The signature of a message under a seed. -/
def edSign (seed msg : Bytes) : Bytes :=
  let a := edScalar seed
  let pre := sub (sha512 (fit 32 seed)) 32 32
  let r := leNat (sha512 (pre ++ msg)) % edL
  let rb := edEncode (edMul 256 r edBase)
  let k := leNat (sha512 (rb ++ edPublic seed ++ msg)) % edL
  rb ++ le 32 ((r + k * a) % edL)

end Sys2Proof
end

