-- ==== Sys2Proof/Config.lean ====
section
/-!
DEFINITION. What an implementation fixes and what the spec leaves open. A free value is a constant without a body:
no proof can see what it is, and a claim holds whatever it is. The argument `k` of a fresh value is `Dev.draws`.
-/
namespace Sys2Proof

/-- R151, R447: for how long, ns of the last 100 µs before a split time, the busiest resource of a partition (64: all eight
control cores together) was occupied, while it serves so many requests: the node's own measurement (log 30). -/
opaque Config.busyTime (part now serving : Nat) : Nat

/-- Table 18.9, Table 18.10: the fixed commit-to-wire latency of an outlet, ns (log 19). -/
opaque Config.outletLatency (outlet : Nat) : Nat

/-- R31, R419: the value of a byte that a unit could not deliver, or that the spec calls undefined (log 31). -/
opaque Config.undefinedByte (k : Nat) : Byte

/-- R88, R90: the rank of a block in the layout of one image (Cerone lays the blocks out; log 32). -/
opaque Config.layoutRank (seq type inst : Nat) : Nat

/-- R102: the figures of the published cost model, ns (field 0 WORK, 1 SCAN, 2 SEARCH, 3 OCC, 4 STRIDE_PHASES,
5 STACK_KIB) for a contract of a service in a partition under an image digest (log 33). -/
opaque Config.costModel (digest part service field : Nat) : Nat

/-- R102, R252, R466: the same figures for a partition's internal contract (kind 0 consolidation, 1 shard queries) (log 33). -/
opaque Config.internalCost (digest part kind field : Nat) : Nat

/-- R551: the bytes of an MCTP control reply that the named standard fixes (log 34). -/
opaque Config.mctpReply (kind : Nat) : Bytes

/-- R420, R423: whether the corrected bits of a unit exceed half the LDPC limit, which the spec does not give (log 40). -/
opaque Config.heavyUnit (k : Nat) : Bool

/-- R254: how long a consolidation pause lasts, ns; the spec bounds it by 20 µs (log 51). -/
opaque Config.pauseTime (k : Nat) : Nat

/-- R502, Table 20.2: the byte offset at which a detector saw an error in a memory whose layout the spec leaves to
Cerone (log 53). -/
opaque Config.errorOffset (k : Nat) : Nat

/-- Which list of a selector's store an uncorrected error hits (R276; log 59). -/
opaque Config.errorList : Nat → Nat

/-- R483, R495: the commit epoch of a planned handoff that another node's holder chose (log 62). -/
opaque Config.roleEpoch (k : Nat) : Nat

/-- R291: Cerone's own figure of a program's pass time, ns, by package digest and partition (log 33). -/
opaque Config.passTime (digest part : Nat) : Nat

/-- R317: the relative tile that Proilo gives an output channel of a layer (log 54). -/
opaque Config.channelTile (digest layer channel : Nat) : Nat

/-- R284: the functions of the vector unit. -/
inductive VFun where
  | exp | log | tanh | sigmoid | erf | reciprocal | rsqrt
deriving DecidableEq, Repr

/-- R284: an operation of the vector unit on FP32 words; `a`, `b`, `c` name the results of earlier operations, `load` an
element of a tensor of the row (0 its input, l + 1 the output of layer l), `less` picks its third or fourth operand,
`conv` converts to an element format and widens again. -/
inductive VOp where
  | const (w : Nat)
  | load (tensor index : Nat)
  | add (a b : Nat)
  | mul (a b : Nat)
  | fma (a b c : Nat)
  | less (a b x y : Nat)
  | min (a b : Nat)
  | max (a b : Nat)
  | conv (fmt a : Nat)
  | fn (f : VFun) (a : Nat)
deriving DecidableEq, Repr

/-- R321 to R323: a weight group of an output channel: its number along the reduction, its codes, scale and zero point as
they are stored, the order in which Proilo adds its products. -/
structure WGroup where
  g : Nat
  codes : List Nat
  scale : Nat
  zp : Nat
  order : List Nat
deriving DecidableEq, Repr

/-- R285, R315: the code of a layer beyond its record is Proilo's, and the spec does not give it (log 55): the vector
operations before the layer; the lines of staged elements (non-reduction index, elements by tensor and index, the vector
results being the last tensor); whether stage 2 narrows stochastically; the tile of the pass that holds a group. -/
opaque Config.vecCode (digest layer : Nat) : List VOp
opaque Config.stageLines (digest layer : Nat) : List (Nat × List (Nat × Nat))
opaque Config.convRandom (digest layer : Nat) : Bool
opaque Config.stageTile (digest layer row line group : Nat) : Nat

/-- R284: what the vector unit gives where its bound leaves it free. -/
opaque Config.vecFree (k : Nat) : Nat

/-- R285, R322, R323: the weight groups of an output channel for a line, as Proilo lays them out in the layer's weight tiles
(or as they stand in a tensor of the row): by tile, in the order in which the tiles' sums are added, which depends on
the placement (R295; log 55). -/
opaque Config.weights (digest layer line channel : Nat) (place : List Nat) (tiles : List Bytes) (acts : List (List Nat)) :
  List (List WGroup)

/-- An element that Proilo's code does not form (log 55), and the column key of a mode that its format does not give. -/
opaque Config.shapeGap (digest layer i : Nat) : Nat
opaque Config.passKey (k : Nat) : Nat

/-- R267: Proilo's split length of a row, columns; 0 for none (log 122). -/
opaque Config.splitLen (digest : Nat) : Nat

/-- R331: the k-th number of a tile's generator, from the seeds of the pass's requests, the layer and the relative tile; the
spec gives no algorithm (log 56). -/
opaque Config.rngValue (seeds : List Nat) (layer tile k : Nat) : Nat

/-- R295, R299: the place, among those free in the pages of a pass, into which a weight tile goes (log 57). -/
opaque Config.weightBank (k : Nat) : Nat

/-- R382, Table 16.1: the work reserve that Cerone computes for an image, tiles (log 70). -/
opaque Config.workReserve (digest : Nat) : Nat

/-- R254: the longest pause that Cerone computes from PAUSEMAX, the record size and D, ns (log 51). -/
opaque Config.longestPause (pausemax recSize degree : Nat) : Nat

/-- R65: whether a NOR read still fails after its retry, by draw (log 98). -/
opaque Config.norReadFails (k : Nat) : Bool

/-- R31: which of the tiles in DRAM holds the bytes at an address of a stack (log 127). -/
opaque Config.errorTile (addr : Nat) : Nat

/-- R90: whether what a step of a rewrite is writing reads new, by read and place (log 88). -/
opaque Config.rewriteNew (k place : Nat) : Bool

/-- R90: how many steps further a rewrite has come at a read (log 88). -/
opaque Config.rewriteSteps (k : Nat) : Nat

/-- R64, R65: how many bytes of a NOR write stand when it is cut short (log 69). -/
opaque Config.norCut (k : Nat) : Nat

end Sys2Proof
end

