-- ==== Sys2Proof/Machine/Regs.lean ====
section
/-!
DEFINITION. The register fields of the spec's register tables, one name each, with block type (R86), offset, record
stride and count, bit positions, access type (R15) and reset value. A reset value that the spec does not give is 0
here and is said in the log (5, 6, 7, 8, 19). Codes 0x100 to 0x102 stand for VF_INFO, CW_STAT and the boot registers,
which lie outside the blocks of Table 03.5.
-/
namespace Sys2Proof

/-- Table 00.3: access types. -/
inductive Acc where
  | ro | rw | rwl | w1c | rc | wo
deriving DecidableEq, Repr

/-- A register field: `BLOCK_REGISTER.FIELD` is named BLOCK_REGISTER_FIELD. -/
inductive Fld where
  | CI_STATE_LAST_STATUS | CI_STATE_STATE | CI_REFUSE_ENTRY | CI_REFUSE_SECTION | CI_SERIAL_SERIAL
  | CI_SECVER_FLOOR | CI_SECVER_ACTIVE | CI_DIGEST_WORD | CI_LOADS_COUNT | CI_REFUSALS_COUNT
  | VF_INFO_BIB | VF_INFO_MAP | VF_INFO_GEN
  | ID_PART_PART | ID_PART_STEP | ID_ROM_VERSION | ID_FW_MAJOR | ID_FW_MINOR | ID_FW_PATCH | ID_SL_FORMAT
  | ID_SERIAL_SERIAL | ID_FPR0_WORD | ID_FPR1_WORD | ID_CAP0_STACKS | ID_CAP0_ETH | ID_CAP0_PCIE | ID_CAP0_APT
  | ID_CAP1_CTX | ID_CAP1_BIBS | ID_CAP2_OPS | ID_CAP2_HEATS | ID_CAP2_MEET | ID_CAP3_VFS | ID_CAP3_TILES
  | ID_STRAY_COUNT
  | CONTR_COUNT_COUNT | CONTR_LAST_BIB | CONTR_LAST_STATUS | CONTR_CHANGES_COUNT | CONTR_ID_SERVICE | CONTR_ID_BIB
  | CONTR_BND999_US | CONTR_COMPLETED_COUNT | CONTR_OVER50_COUNT | CONTR_OVER99_COUNT | CONTR_OVER999_COUNT
  | CONTR_NONCONF_COUNT | CONTR_EXCUSED_COUNT | CONTR_OVERWORK_COUNT
  | BIBTAB_MAP_EPOCH | BIBTAB_CHG_STATUS | BIBTAB_CHG_BIB | BIBTAB_STRAY_COUNT | BIBTAB_REROUTED_COUNT
  | BIB_STAT_GEN | BIB_STAT_MAP | BIB_STAT_PARTITION | BIB_STAT_PORT | BIB_STAT_KIND | BIB_STAT_DRAIN
  | BIB_STAT_PENDING | BIB_STAT_STATE | BIB_TARGET_TARGET | BIB_RESETS_SW | BIB_RESETS_HW | BIB_TDSTART_TIME
  | BIB_T0_TIME
  | CW_STAT_DROPPED | CW_STAT_NOCREDIT | CW_STAT_ACCUM | CW_STAT_FIFO
  | ADM_RING_BASE_ADDR | ADM_RING_CFG_EN | ADM_RING_CFG_MOD_TIME | ADM_RING_CFG_MOD_COUNT | ADM_RING_CFG_VECTOR
  | ADM_RING_CFG_SIZE_LOG2 | ADM_STAT_ALL | ADM_WRITTEN_COUNT
  | HEAT_ID_DEGREE | HEAT_ID_CODE | HEAT_ID_ROLE | HEAT_ID_NUMBER | HEAT_CAP_LIDS | HEAT_EPOCH_APPLIED
  | HEAT_EPOCH_FLOOR | HEAT_LIVE_COUNT | HEAT_DELETED_COUNT | HEAT_LAGHOLD_COUNT | HEAT_STALE_COUNT
  | HEAT_BADREF_COUNT | HEAT_REFUSED_COUNT | HEAT_TIMING_RETAIN | HEAT_TIMING_INTERVAL_US | HEAT_TIMING2_HOLD_US
  | HEAT_TIMING2_PUBLISH_US
  | WLK_CFG_WIDTH | WLK_CFG_BEAM | WLK_CEIL_HOPS | WLK_CEILE_EVALS | WLK_DEF_HOPS | WLK_DEF_MISS | WLK_DEFE_EVALS
  | WLK_SEED_COUNT | WLK_ACTIVE_COUNT | WLK_HOPS_COUNT | WLK_EVALS_COUNT | WLK_EXHAUST_COUNT | WLK_FALLBACK_COUNT
  | WLK_ESCALATE_COUNT | WLK_SCANDENY_COUNT
  | PACK_CFG_MAXQ | PACK_CFG_WINDOW | PACK_GROUPS_COUNT | PACK_MERGED_COUNT | PACK_FULL_COUNT | PACK_OPEN_COUNT
  | QCT_USE_TOTAL | QCT_SHARED_INUSE | QCT_WAITING_COUNT | QCT_PART_RESERVE | QCT_PART_INUSE
  | STK_CFG_WDOG | STK_CFG_SCANWIN | STK_FENCE_ENGINES | STK_ODECC_COUNT | STK_SECDED_COUNT | STK_UNCORR_COUNT
  | STK_REFETCH_COUNT
  | STR_STAT_OWNER | STR_STAT_SLICE | STR_STAT_SAVED | STR_STAT_LIVE | STR_STAT_LENT | STR_STAT_FENCED
  | STR_GROUPS_COUNT | STR_RECORDS_COUNT | STR_PAIRS_COUNT | STR_RETURNS_COUNT | STR_SUSPEND_COUNT
  | STR_RETSTALL_COUNT | STR_QRFECC_COUNT | STR_MAP_OWNER
  | SIDE_CFG_PART | SIDE_CFG_PAUSEMAX | SIDE_CFG_BUILD_L | SIDE_CFG2_RATE | SIDE_CFG2_WIN | SIDE_POS_HEAD
  | SIDE_POS_TAIL | SIDE_RUI_COUNT | SIDE_PAUSENO_COUNT | SIDE_MERGED_COUNT | SIDE_RECLAIMED_COUNT
  | SIDE_DISCARDED_COUNT | SIDE_LONGEST_NS | SIDE_FULL_COUNT | SIDE_RUIFULL_COUNT | SIDE_NVBLK_COUNT
  | SIDE_EMPTY_COUNT
  | POD_STAT_FREE | POD_STAT_LISTS | POD_OFFERS_COUNT | POD_KEPT_COUNT | POD_DUP_COUNT | POD_INVIS_COUNT
  | POD_TIECUT_COUNT | POD_TIEOVF_COUNT | POD_SHORT_COUNT | POD_SLOTWAIT_COUNT | POD_NAN_COUNT | POD_LATE_COUNT
  | POD_MERGES_COUNT | POD_ECC_COUNT
  | IGRP_CFG_WDOG | IGRP_STAT_FENCED | IGRP_STAT_BUSY | IGRP_PASSES_COUNT | IGRP_CLEARS_COUNT | IGRP_STOPS_COUNT
  | ITILE_STAT_BIB | ITILE_STAT_SLOT | ITILE_STAT_LAYER | ITILE_STAT_WAIT | ITILE_STAT_BUSY | ITILE_STAT_FENCED
  | ITILE_BUSY_CYCLES | ITILE_WAIT_CYCLES | ITILE_ECC_COUNT | ITILE_UNCORR_COUNT
  | TSRAM_STAT_FREE | TSRAM_IN_BYTES | TSRAM_ECC_COUNT | TSRAM_UNCORR_COUNT
  | IGRP_SAT_COUNT | IGRP_NONFIN_COUNT | IGRP_SCLAMP_COUNT | IGRP_RESCECC_COUNT | IGRP_RESCUNC_COUNT
  | IGRP_MEASURES_COUNT | IGRP_RESCUSE_ENTRIES
  | EMB_CFG_PART | EMB_CFG_MIG_HIGH | EMB_CFG_MIG_MAX | EMB_CFG2_MIG_MIN | EMB_MIG_DST | EMB_MIG_SRC
  | EMB_REDIR_COUNT | EMB_STARTED_COUNT | EMB_ABORTED_COUNT | EMB_MIGDENY_COUNT | EMB_TID_REPL | EMB_TID_TABLE
  | EMB_STEP_APPLIED | EMB_LOAD_ROWS | EMB_LEVEL_LEVEL | EMB_LOOKUPS_COUNT | EMB_DELTAS_COUNT | EMB_STALE_COUNT
  | EMB_TOSTEP_COUNT | EMB_NVBLK_COUNT | EMB_MIGOUT_COUNT | EMB_MIGIN_COUNT
  | POOL_CFG_LEASE_MS | POOL_CFG_HANDOFF_MS | POOL_SEGS_COUNT | POOL_DRAM_BLOCKS | POOL_SPILL_BLOCKS
  | POOL_PUBLISH_COUNT | POOL_READS_COUNT | POOL_VCONFL_COUNT | POOL_EXPIRED_COUNT | POOL_NOTOWNER_COUNT
  | POOL_GRANTS_COUNT | POOL_OFFERTO_COUNT | POOL_EVICTED_COUNT | POOL_LINKS_COUNT | POOL_APTUR_COUNT
  | POOL_APTKEY_KEY | POOL_APTCTL_LIVE | POOL_APTCTL_EN
  | TIER_CFG_FLOOR_GIB | TIER_CFG_STEP_DRAM | TIER_CFG_STEP_FLASH | TIER_TOTAL_TILES | TIER_WORK_TILES
  | TIER_PINNED_TILES | TIER_CACHED_TILES | TIER_DIRTY_TILES | TIER_HELD_TILES | TIER_HITS_COUNT
  | TIER_MISSES_COUNT | TIER_EVICT_COUNT | TIER_WB_COUNT | TIER_PINDENY_COUNT | TIER_NVBLK_COUNT
  | TIER_SWEEPS_COUNT | TIER_PINQ_GIB | TIER_FLQ_GIB | TIER_PUSE_TILES | TIER_FUSE_TILES
  | OPT_USE_COUNT | OPT_PEAK_COUNT | OPT_STALL_CYCLES | OPT_ISSUED_COUNT
  | SLED_STAT_STATE | SLED_STAT_TARGETS | SLED_STAT_MEDIA | SLED_RAW_BYTES | SLED_HEALTH_SPARE | SLED_HEALTH_WEAR
  | SLED_TEMP_CELSIUS | SLED_CORR_COUNT | SLED_RETRY_COUNT | SLED_UNCORR_COUNT | SLED_PFAIL_COUNT
  | SLED_EFAIL_COUNT | SLED_RETIRED_BLOCKS | SLED_TEMPH_SECONDS
  | FLC_CFG_MAXMTS | FLC_STAT_CE | FLC_STAT_MTS | FLC_STAT_TRAINED | FLC_READS_COUNT | FLC_PROGS_COUNT
  | FLC_ERASES_COUNT | FLC_SUSPEND_COUNT | FLC_QDEEP_COUNT | FLC_RETRY_COUNT | FLC_UNCORR_COUNT
  | FTL_CFG_FOLD_PCT | FTL_CFG_WAIT_PCT | FTL_CFG_JRES_PCT | FTL_VTHR_NVBAR | FTL_VTHR_LOSS | FTL_VTHR_FLOOR
  | FTL_LOGICAL_TILES | FTL_JOURNAL_BOUND_MIB | FTL_JOURNAL_DIRTY_KIB | FTL_SLC_CAP_TILES | FTL_SLC_USED_TILES
  | FTL_SUPPLY_FLUSH | FTL_SUPPLY_HOLDLOW | FTL_SUPPLY_NVLOW | FTL_TBOUND_US | FTL_LASTFLUSH_DURATION_US
  | FTL_LASTFLUSH_RESULT | FTL_NVBLK_COUNT | FTL_NVENTRY_COUNT | FTL_UNDEF_COUNT | FTL_JWAIT_COUNT
  | FTL_FOLDED_TILES | FTL_RECLAIM_BLOCKS | FTL_DISCARD_TILES
  | TM_INFO_SUBS | TM_CHANGES_COUNT | TM_OCFG_OVERHEAD | TM_OCFG_PROMO | TM_ORATE_MBPS | TM_GCL_CUR | TM_GCL_COUNT
  | TM_OLAT_NS | TM_CTLBYTES_COUNT | TM_CONBYTES_COUNT | TM_URGBYTES_COUNT | TM_OPNBYTES_COUNT | TM_APTBYTES_COUNT
  | TM_NOFIT_COUNT | TM_PROMOTED_COUNT | TM_PBUCKET_NS | TM_CTLWAIT_COUNT | TM_SUBTOK_BYTES | TM_SVCTOK0_BYTES
  | TM_SVCTOK1_BYTES | TM_SVCTOK2_BYTES | TM_SVCTOK3_BYTES | TM_SVCTOK4_BYTES | TM_SVCTOK5_BYTES | TM_SVCTOK6_BYTES
  | TM_SVCTOK7_BYTES | TM_SUBST_URGENT | TM_SUBST_CONTR | TM_SUBSENT_COUNT | TM_SUBPROM_COUNT
  | ETH_CFG_MAXFRAME | ETH_CFG_MODE | ETH_LINK_UP | ETH_LINK_LOCK | ETH_MAC_ADDR | ETH_TXFRAMES_COUNT
  | ETH_RXFRAMES_COUNT | ETH_FECCORR_COUNT | ETH_FECUNC_COUNT | ETH_PAUSE_COUNT | ETH_CNPRX_COUNT | ETH_CNPTX_COUNT
  | ETH_LAT_NS | ETH_DROPS_COUNT
  | PTP_TIME_NS | PTP_CFG_PROFILE | PTP_CFG_PORT | PTP_CFG_MASTER | PTP_CFG_DOMAIN | PTP_STAT_LOCKED
  | PTP_STAT_HOLDOVER | PTP_STAT_MASTER | PTP_STAT_PORT | PTP_OFFSET_NS | PTP_FREQ_PPB | PTP_UNLOCK_COUNT
  | PTP_STEPS_COUNT
  | RLY_ID_COUNT | RLY_ID_SLOT | RLY_ID_ANCHOR | RLY_PORT_UDP | RLY_EPOCH_BATON | RLY_EPOCH_RESTART
  | RLY_STAT_HOLDER | RLY_STAT_STATE | RLY_INTR_NS | RLY_INTRPREV_NS | RLY_LOST_COUNT | RLY_TAKEOVER_COUNT
  | RLY_HEDGES_COUNT | RLY_HEDGEWON_COUNT | RLY_STALE_COUNT | RLY_RETX_COUNT | RLY_BADFRAME_COUNT | RLY_LASTTO_US
  | RLY_NOCOPY_COUNT | RLY_MEM_ELEVEL | RLY_MEM_SLEVEL | RLY_MEM_STATE | RLY_MEMINTR_US | RLY_MEMLAST_TIME
  | REF_CFG_ERRCLASS | REF_CFG_NOTIFY | REF_CFG_VEC | REF_CFG_GRACE_US | REF_STAT_FENCED | REF_STAT_HIGH
  | REF_STAT_OPEN | REF_PEND_PEND | REF_ESCAL_COUNT | REF_REPLACED_COUNT | REF_MERGED_COUNT | REF_ERRORS_COUNT
  | REF_ADDR_ADDR | REF_TIME_NS | REF_MASTER_TYPE | REF_MASTER_INST | REF_MASTER_BIBV | REF_MASTER_BIB
  | REF_MASTER_GEN | REF_REC_COUNT | REF_REC_SOURCE | REF_REC_ACCESS | REF_REC_CLASS | REF_REC_STATE
  | REF_REC_STEPS
  | PANEL_CFG_ID | PANEL_CFG_LOCK | PANEL_CMD_CANCEL | PANEL_CMD_REMOVE | PANEL_SLED_SEQ | PANEL_SLED_PRSNT
  | PANEL_SLED_PWREN | PANEL_SLED_ATTN | PANEL_SLED_PWRLED | PANEL_SLED_HELD | PANEL_PRESS_TIME
  | PANEL_IGNORED_COUNT | PANEL_SURPRISE_COUNT | PANEL_CANCELS_COUNT
  | BOOT_STAT_WDOGS | BOOT_STAT_ERROR | BOOT_STAT_CAUSE | BOOT_STAT_MODE | BOOT_STAT_PHASE | RCV_ADDR_ADDR
  | RCV_LEN_BYTES | RCV_CMD_STORE | RCV_CMD_GO | RCV_STAT_STATE
  | PWR_STATE_STATE | PWR_STRAP_TEST_EN | PWR_STRAP_SMB_ADDR0 | PWR_STRAP_XSPI_QUAD | PWR_STRAP_BOOT_MODE
  | PWR_RSTCAUSE_CAUSE | PWR_RST_KEY | PWR_SENSE_HOLD | PWR_SENSE_MAIN | PWR_CLK_TIMEBK | PWR_CLK_STK | PWR_CLK_ETH
  | PWR_CLK_PCIE | PWR_CLK_FLASH | PWR_CLK_STRIDE | PWR_CLK_TRACK | PWR_CLK_CORE | PWR_CLK_MGMT | PWR_POWER_WATTS
  | PWR_TEMP_CELSIUS | PWR_BOOTMS_MS
  | MEAS_COUNT_ENTRIES | MEAS_DROPPED_COUNT | MEAS_FWSECVER_SECVER | MEAS_FWFLOOR_FLOOR | MEAS_KEYS_FWKEY
  | MEAS_KEYS_ROMREV | MEAS_KEYS_SLOTS | MEAS_RAISES_FW | MEAS_RAISES_CI | MEAS_IDKEY_WORD | MEAS_RUN_WORD
  | MEAS_FWDIG_WORD
deriving DecidableEq, Repr

/-- What a register table says of a field. -/
structure FldInfo where
  blk : Nat
  off : Nat
  stride : Nat
  count : Nat
  hi : Nat
  lo : Nat
  acc : Acc
  rst : Nat
deriving DecidableEq, Repr

/-- The register tables of the spec. -/
def Fld.info (f : Fld) : FldInfo :=
  match f with
  | .CI_STATE_LAST_STATUS => FldInfo.mk 0x2 0x0 0x0 1 15 8 .ro 0x0
  | .CI_STATE_STATE => FldInfo.mk 0x2 0x0 0x0 1 2 0 .ro 0x0
  | .CI_REFUSE_ENTRY => FldInfo.mk 0x2 0x4 0x0 1 31 8 .ro 0x0
  | .CI_REFUSE_SECTION => FldInfo.mk 0x2 0x4 0x0 1 7 0 .ro 0x0
  | .CI_SERIAL_SERIAL => FldInfo.mk 0x2 0x8 0x0 1 63 0 .ro 0x0
  | .CI_SECVER_FLOOR => FldInfo.mk 0x2 0x10 0x0 1 31 0 .ro 0x0
  | .CI_SECVER_ACTIVE => FldInfo.mk 0x2 0x14 0x0 1 31 0 .ro 0x0
  | .CI_DIGEST_WORD => FldInfo.mk 0x2 0x18 0x8 8 63 0 .ro 0x0
  | .CI_LOADS_COUNT => FldInfo.mk 0x2 0x58 0x0 1 31 0 .ro 0x0
  | .CI_REFUSALS_COUNT => FldInfo.mk 0x2 0x5C 0x0 1 31 0 .rc 0x0
  | .VF_INFO_BIB => FldInfo.mk 0x100 0x10000 0x0 1 47 32 .ro 0xFFFF
  | .VF_INFO_MAP => FldInfo.mk 0x100 0x10000 0x0 1 31 16 .ro 0x0
  | .VF_INFO_GEN => FldInfo.mk 0x100 0x10000 0x0 1 15 0 .ro 0x0
  | .ID_PART_PART => FldInfo.mk 0x1 0x0 0x0 1 31 16 .ro 0x9600
  | .ID_PART_STEP => FldInfo.mk 0x1 0x0 0x0 1 15 8 .ro 0x0
  | .ID_ROM_VERSION => FldInfo.mk 0x1 0x4 0x0 1 31 0 .ro 0x0
  | .ID_FW_MAJOR => FldInfo.mk 0x1 0x8 0x0 1 23 16 .ro 0x0
  | .ID_FW_MINOR => FldInfo.mk 0x1 0x8 0x0 1 15 8 .ro 0x0
  | .ID_FW_PATCH => FldInfo.mk 0x1 0x8 0x0 1 7 0 .ro 0x0
  | .ID_SL_FORMAT => FldInfo.mk 0x1 0xC 0x0 1 15 0 .ro 0x1
  | .ID_SERIAL_SERIAL => FldInfo.mk 0x1 0x10 0x0 1 63 0 .ro 0x0
  | .ID_FPR0_WORD => FldInfo.mk 0x1 0x18 0x0 1 63 0 .ro 0x0
  | .ID_FPR1_WORD => FldInfo.mk 0x1 0x20 0x0 1 63 0 .ro 0x0
  | .ID_CAP0_STACKS => FldInfo.mk 0x1 0x28 0x0 1 23 16 .ro 0xFF
  | .ID_CAP0_ETH => FldInfo.mk 0x1 0x28 0x0 1 11 10 .ro 0x3
  | .ID_CAP0_PCIE => FldInfo.mk 0x1 0x28 0x0 1 9 8 .ro 0x3
  | .ID_CAP0_APT => FldInfo.mk 0x1 0x28 0x0 1 0 0 .ro 0x0
  | .ID_CAP1_CTX => FldInfo.mk 0x1 0x2C 0x0 1 31 16 .ro 0x4000
  | .ID_CAP1_BIBS => FldInfo.mk 0x1 0x2C 0x0 1 15 0 .ro 0x400
  | .ID_CAP2_OPS => FldInfo.mk 0x1 0x30 0x0 1 31 16 .ro 0x8000
  | .ID_CAP2_HEATS => FldInfo.mk 0x1 0x30 0x0 1 15 8 .ro 0x10
  | .ID_CAP2_MEET => FldInfo.mk 0x1 0x30 0x0 1 7 0 .ro 0xFF
  | .ID_CAP3_VFS => FldInfo.mk 0x1 0x34 0x0 1 31 16 .ro 0x200
  | .ID_CAP3_TILES => FldInfo.mk 0x1 0x34 0x0 1 15 8 .ro 0x60
  | .ID_STRAY_COUNT => FldInfo.mk 0x1 0x38 0x0 1 31 0 .rc 0x0
  | .CONTR_COUNT_COUNT => FldInfo.mk 0x61 0x0 0x0 1 15 0 .ro 0x0
  | .CONTR_LAST_BIB => FldInfo.mk 0x61 0x4 0x0 1 25 16 .ro 0x0
  | .CONTR_LAST_STATUS => FldInfo.mk 0x61 0x4 0x0 1 15 8 .ro 0x0
  | .CONTR_CHANGES_COUNT => FldInfo.mk 0x61 0x8 0x0 1 31 0 .rc 0x0
  | .CONTR_ID_SERVICE => FldInfo.mk 0x61 0x100 0x40 5120 18 16 .ro 0x0
  | .CONTR_ID_BIB => FldInfo.mk 0x61 0x100 0x40 5120 9 0 .ro 0x0
  | .CONTR_BND999_US => FldInfo.mk 0x61 0x104 0x40 5120 31 0 .ro 0x0
  | .CONTR_COMPLETED_COUNT => FldInfo.mk 0x61 0x108 0x40 5120 63 0 .ro 0x0
  | .CONTR_OVER50_COUNT => FldInfo.mk 0x61 0x110 0x40 5120 63 0 .ro 0x0
  | .CONTR_OVER99_COUNT => FldInfo.mk 0x61 0x118 0x40 5120 63 0 .ro 0x0
  | .CONTR_OVER999_COUNT => FldInfo.mk 0x61 0x120 0x40 5120 63 0 .ro 0x0
  | .CONTR_NONCONF_COUNT => FldInfo.mk 0x61 0x128 0x40 5120 63 0 .ro 0x0
  | .CONTR_EXCUSED_COUNT => FldInfo.mk 0x61 0x130 0x40 5120 63 0 .ro 0x0
  | .CONTR_OVERWORK_COUNT => FldInfo.mk 0x61 0x138 0x40 5120 63 0 .ro 0x0
  | .BIBTAB_MAP_EPOCH => FldInfo.mk 0x60 0x0 0x0 1 15 0 .ro 0x0
  | .BIBTAB_CHG_STATUS => FldInfo.mk 0x60 0x4 0x0 1 31 24 .ro 0x0
  | .BIBTAB_CHG_BIB => FldInfo.mk 0x60 0x4 0x0 1 9 0 .ro 0x0
  | .BIBTAB_STRAY_COUNT => FldInfo.mk 0x60 0x8 0x0 1 31 0 .rc 0x0
  | .BIBTAB_REROUTED_COUNT => FldInfo.mk 0x60 0xC 0x0 1 31 0 .rc 0x0
  | .BIB_STAT_GEN => FldInfo.mk 0x60 0x100 0x20 1024 63 48 .ro 0x0
  | .BIB_STAT_MAP => FldInfo.mk 0x60 0x100 0x20 1024 47 32 .ro 0x0
  | .BIB_STAT_PARTITION => FldInfo.mk 0x60 0x100 0x20 1024 21 16 .ro 0x0
  | .BIB_STAT_PORT => FldInfo.mk 0x60 0x100 0x20 1024 10 10 .ro 0x0
  | .BIB_STAT_KIND => FldInfo.mk 0x60 0x100 0x20 1024 9 8 .ro 0x0
  | .BIB_STAT_DRAIN => FldInfo.mk 0x60 0x100 0x20 1024 6 6 .ro 0x0
  | .BIB_STAT_PENDING => FldInfo.mk 0x60 0x100 0x20 1024 5 4 .ro 0x0
  | .BIB_STAT_STATE => FldInfo.mk 0x60 0x100 0x20 1024 2 0 .ro 0x0
  | .BIB_TARGET_TARGET => FldInfo.mk 0x60 0x108 0x20 1024 23 0 .ro 0x0
  | .BIB_RESETS_SW => FldInfo.mk 0x60 0x10C 0x20 1024 31 16 .ro 0x0
  | .BIB_RESETS_HW => FldInfo.mk 0x60 0x10C 0x20 1024 15 0 .ro 0x0
  | .BIB_TDSTART_TIME => FldInfo.mk 0x60 0x110 0x20 1024 63 0 .ro 0x0
  | .BIB_T0_TIME => FldInfo.mk 0x60 0x118 0x20 1024 63 0 .ro 0x0
  | .CW_STAT_DROPPED => FldInfo.mk 0x101 0x0 0x0 1 55 48 .ro 0x0
  | .CW_STAT_NOCREDIT => FldInfo.mk 0x101 0x0 0x0 1 47 32 .ro 0x0
  | .CW_STAT_ACCUM => FldInfo.mk 0x101 0x0 0x0 1 24 16 .ro 0x0
  | .CW_STAT_FIFO => FldInfo.mk 0x101 0x0 0x0 1 8 0 .ro 0x0
  | .ADM_RING_BASE_ADDR => FldInfo.mk 0x7 0x2000 0x0 1 63 12 .rw 0x0
  | .ADM_RING_CFG_EN => FldInfo.mk 0x7 0x2008 0x0 1 31 31 .rw 0x0
  | .ADM_RING_CFG_MOD_TIME => FldInfo.mk 0x7 0x2008 0x0 1 30 21 .rw 0x0
  | .ADM_RING_CFG_MOD_COUNT => FldInfo.mk 0x7 0x2008 0x0 1 20 12 .rw 0x1
  | .ADM_RING_CFG_VECTOR => FldInfo.mk 0x7 0x2008 0x0 1 11 10 .rw 0x0
  | .ADM_RING_CFG_SIZE_LOG2 => FldInfo.mk 0x7 0x2008 0x0 1 4 0 .rw 0x6
  | .ADM_STAT_ALL => FldInfo.mk 0x7 0x2010 0x0 1 63 0 .ro 0x0
  | .ADM_WRITTEN_COUNT => FldInfo.mk 0x7 0x2018 0x0 1 31 0 .ro 0x0
  | .HEAT_ID_DEGREE => FldInfo.mk 0x32 0x0 0x0 1 30 24 .ro 0x0
  | .HEAT_ID_CODE => FldInfo.mk 0x32 0x0 0x0 1 17 16 .ro 0x0
  | .HEAT_ID_ROLE => FldInfo.mk 0x32 0x0 0x0 1 12 12 .ro 0x0
  | .HEAT_ID_NUMBER => FldInfo.mk 0x32 0x0 0x0 1 9 0 .ro 0x0
  | .HEAT_CAP_LIDS => FldInfo.mk 0x32 0x4 0x0 1 31 0 .ro 0x0
  | .HEAT_EPOCH_APPLIED => FldInfo.mk 0x32 0x8 0x0 1 63 32 .ro 0x0
  | .HEAT_EPOCH_FLOOR => FldInfo.mk 0x32 0x8 0x0 1 31 0 .ro 0x0
  | .HEAT_LIVE_COUNT => FldInfo.mk 0x32 0x10 0x0 1 31 0 .ro 0x0
  | .HEAT_DELETED_COUNT => FldInfo.mk 0x32 0x14 0x0 1 31 0 .ro 0x0
  | .HEAT_LAGHOLD_COUNT => FldInfo.mk 0x32 0x18 0x0 1 31 0 .rc 0x0
  | .HEAT_STALE_COUNT => FldInfo.mk 0x32 0x1C 0x0 1 31 0 .rc 0x0
  | .HEAT_BADREF_COUNT => FldInfo.mk 0x32 0x20 0x0 1 31 0 .rc 0x0
  | .HEAT_REFUSED_COUNT => FldInfo.mk 0x32 0x24 0x0 1 31 0 .rc 0x0
  | .HEAT_TIMING_RETAIN => FldInfo.mk 0x32 0x28 0x0 1 31 16 .ro 0x0
  | .HEAT_TIMING_INTERVAL_US => FldInfo.mk 0x32 0x28 0x0 1 15 0 .ro 0x0
  | .HEAT_TIMING2_HOLD_US => FldInfo.mk 0x32 0x2C 0x0 1 31 16 .ro 0x0
  | .HEAT_TIMING2_PUBLISH_US => FldInfo.mk 0x32 0x2C 0x0 1 15 0 .ro 0x0
  | .WLK_CFG_WIDTH => FldInfo.mk 0x20 0x0 0x0 1 23 20 .rwl 0x4
  | .WLK_CFG_BEAM => FldInfo.mk 0x20 0x0 0x0 1 10 0 .rwl 0x80
  | .WLK_CEIL_HOPS => FldInfo.mk 0x20 0x4 0x0 1 31 16 .rwl 0x400
  | .WLK_CEILE_EVALS => FldInfo.mk 0x20 0x8 0x0 1 20 0 .rwl 0x8000
  | .WLK_DEF_HOPS => FldInfo.mk 0x20 0xC 0x0 1 31 16 .rwl 0x200
  | .WLK_DEF_MISS => FldInfo.mk 0x20 0xC 0x0 1 11 0 .rwl 0x10
  | .WLK_DEFE_EVALS => FldInfo.mk 0x20 0x10 0x0 1 20 0 .rwl 0x2000
  | .WLK_SEED_COUNT => FldInfo.mk 0x20 0x14 0x0 1 6 0 .rwl 0x10
  | .WLK_ACTIVE_COUNT => FldInfo.mk 0x20 0x18 0x0 1 9 0 .ro 0x0
  | .WLK_HOPS_COUNT => FldInfo.mk 0x20 0x20 0x0 1 63 0 .ro 0x0
  | .WLK_EVALS_COUNT => FldInfo.mk 0x20 0x28 0x0 1 63 0 .ro 0x0
  | .WLK_EXHAUST_COUNT => FldInfo.mk 0x20 0x30 0x0 1 31 0 .rc 0x0
  | .WLK_FALLBACK_COUNT => FldInfo.mk 0x20 0x34 0x0 1 31 0 .rc 0x0
  | .WLK_ESCALATE_COUNT => FldInfo.mk 0x20 0x38 0x0 1 31 0 .rc 0x0
  | .WLK_SCANDENY_COUNT => FldInfo.mk 0x20 0x3C 0x0 1 31 0 .rc 0x0
  | .PACK_CFG_MAXQ => FldInfo.mk 0x21 0x0 0x0 1 26 18 .rwl 0x100
  | .PACK_CFG_WINDOW => FldInfo.mk 0x21 0x0 0x0 1 10 0 .rwl 0x1F4
  | .PACK_GROUPS_COUNT => FldInfo.mk 0x21 0x8 0x0 1 63 0 .ro 0x0
  | .PACK_MERGED_COUNT => FldInfo.mk 0x21 0x10 0x0 1 63 0 .ro 0x0
  | .PACK_FULL_COUNT => FldInfo.mk 0x21 0x18 0x0 1 31 0 .rc 0x0
  | .PACK_OPEN_COUNT => FldInfo.mk 0x21 0x1C 0x0 1 15 0 .ro 0x0
  | .QCT_USE_TOTAL => FldInfo.mk 0x23 0x0 0x0 1 14 0 .ro 0x0
  | .QCT_SHARED_INUSE => FldInfo.mk 0x23 0x4 0x0 1 14 0 .ro 0x0
  | .QCT_WAITING_COUNT => FldInfo.mk 0x23 0x8 0x0 1 31 0 .ro 0x0
  | .QCT_PART_RESERVE => FldInfo.mk 0x23 0x100 0x4 64 30 16 .ro 0x0
  | .QCT_PART_INUSE => FldInfo.mk 0x23 0x100 0x4 64 14 0 .ro 0x0
  | .STK_CFG_WDOG => FldInfo.mk 0x30 0x0 0x0 1 25 16 .rwl 0x32
  | .STK_CFG_SCANWIN => FldInfo.mk 0x30 0x0 0x0 1 7 0 .rwl 0x14
  | .STK_FENCE_ENGINES => FldInfo.mk 0x30 0x4 0x0 1 15 0 .ro 0x0
  | .STK_ODECC_COUNT => FldInfo.mk 0x30 0x8 0x0 1 63 0 .ro 0x0
  | .STK_SECDED_COUNT => FldInfo.mk 0x30 0x10 0x0 1 63 0 .ro 0x0
  | .STK_UNCORR_COUNT => FldInfo.mk 0x30 0x18 0x0 1 31 0 .rc 0x0
  | .STK_REFETCH_COUNT => FldInfo.mk 0x30 0x1C 0x0 1 31 0 .rc 0x0
  | .STR_STAT_OWNER => FldInfo.mk 0x31 0x0 0x0 1 31 24 .ro 0xFF
  | .STR_STAT_SLICE => FldInfo.mk 0x31 0x0 0x0 1 21 16 .ro 0x0
  | .STR_STAT_SAVED => FldInfo.mk 0x31 0x0 0x0 1 9 8 .ro 0x0
  | .STR_STAT_LIVE => FldInfo.mk 0x31 0x0 0x0 1 2 2 .ro 0x0
  | .STR_STAT_LENT => FldInfo.mk 0x31 0x0 0x0 1 1 1 .ro 0x0
  | .STR_STAT_FENCED => FldInfo.mk 0x31 0x0 0x0 1 0 0 .ro 0x0
  | .STR_GROUPS_COUNT => FldInfo.mk 0x31 0x8 0x0 1 63 0 .ro 0x0
  | .STR_RECORDS_COUNT => FldInfo.mk 0x31 0x10 0x0 1 63 0 .ro 0x0
  | .STR_PAIRS_COUNT => FldInfo.mk 0x31 0x18 0x0 1 63 0 .ro 0x0
  | .STR_RETURNS_COUNT => FldInfo.mk 0x31 0x20 0x0 1 63 0 .ro 0x0
  | .STR_SUSPEND_COUNT => FldInfo.mk 0x31 0x28 0x0 1 31 0 .rc 0x0
  | .STR_RETSTALL_COUNT => FldInfo.mk 0x31 0x2C 0x0 1 31 0 .rc 0x0
  | .STR_QRFECC_COUNT => FldInfo.mk 0x31 0x30 0x0 1 31 0 .rc 0x0
  | .STR_MAP_OWNER => FldInfo.mk 0x31 0x40 0x1 64 7 0 .ro 0x0
  | .SIDE_CFG_PART => FldInfo.mk 0x33 0x0 0x0 1 29 24 .rwl 0x0
  | .SIDE_CFG_PAUSEMAX => FldInfo.mk 0x33 0x0 0x0 1 23 14 .rwl 0x100
  | .SIDE_CFG_BUILD_L => FldInfo.mk 0x33 0x0 0x0 1 10 0 .rwl 0x40
  | .SIDE_CFG2_RATE => FldInfo.mk 0x33 0x4 0x0 1 31 12 .rwl 0x0
  | .SIDE_CFG2_WIN => FldInfo.mk 0x33 0x4 0x0 1 7 0 .rwl 0x2
  | .SIDE_POS_HEAD => FldInfo.mk 0x33 0x8 0x0 1 63 32 .ro 0x0
  | .SIDE_POS_TAIL => FldInfo.mk 0x33 0x8 0x0 1 31 0 .ro 0x0
  | .SIDE_RUI_COUNT => FldInfo.mk 0x33 0x10 0x0 1 16 0 .ro 0x0
  | .SIDE_PAUSENO_COUNT => FldInfo.mk 0x33 0x14 0x0 1 31 0 .ro 0x0
  | .SIDE_MERGED_COUNT => FldInfo.mk 0x33 0x18 0x0 1 63 0 .ro 0x0
  | .SIDE_RECLAIMED_COUNT => FldInfo.mk 0x33 0x20 0x0 1 63 0 .ro 0x0
  | .SIDE_DISCARDED_COUNT => FldInfo.mk 0x33 0x28 0x0 1 31 0 .rc 0x0
  | .SIDE_LONGEST_NS => FldInfo.mk 0x33 0x2C 0x0 1 31 0 .rc 0x0
  | .SIDE_FULL_COUNT => FldInfo.mk 0x33 0x30 0x0 1 31 0 .rc 0x0
  | .SIDE_RUIFULL_COUNT => FldInfo.mk 0x33 0x34 0x0 1 31 0 .rc 0x0
  | .SIDE_NVBLK_COUNT => FldInfo.mk 0x33 0x38 0x0 1 31 0 .rc 0x0
  | .SIDE_EMPTY_COUNT => FldInfo.mk 0x33 0x3C 0x0 1 31 0 .rc 0x0
  | .POD_STAT_FREE => FldInfo.mk 0x22 0x0 0x0 1 48 32 .ro 0x8000
  | .POD_STAT_LISTS => FldInfo.mk 0x22 0x0 0x0 1 16 0 .ro 0x0
  | .POD_OFFERS_COUNT => FldInfo.mk 0x22 0x8 0x0 1 63 0 .ro 0x0
  | .POD_KEPT_COUNT => FldInfo.mk 0x22 0x10 0x0 1 63 0 .ro 0x0
  | .POD_DUP_COUNT => FldInfo.mk 0x22 0x18 0x0 1 31 0 .rc 0x0
  | .POD_INVIS_COUNT => FldInfo.mk 0x22 0x1C 0x0 1 31 0 .rc 0x0
  | .POD_TIECUT_COUNT => FldInfo.mk 0x22 0x20 0x0 1 31 0 .rc 0x0
  | .POD_TIEOVF_COUNT => FldInfo.mk 0x22 0x24 0x0 1 31 0 .rc 0x0
  | .POD_SHORT_COUNT => FldInfo.mk 0x22 0x28 0x0 1 31 0 .rc 0x0
  | .POD_SLOTWAIT_COUNT => FldInfo.mk 0x22 0x2C 0x0 1 31 0 .rc 0x0
  | .POD_NAN_COUNT => FldInfo.mk 0x22 0x30 0x0 1 31 0 .rc 0x0
  | .POD_LATE_COUNT => FldInfo.mk 0x22 0x34 0x0 1 31 0 .rc 0x0
  | .POD_MERGES_COUNT => FldInfo.mk 0x22 0x38 0x0 1 31 0 .rc 0x0
  | .POD_ECC_COUNT => FldInfo.mk 0x22 0x3C 0x0 1 31 0 .rc 0x0
  | .IGRP_CFG_WDOG => FldInfo.mk 0x10 0x0 0x0 1 25 16 .rwl 0x64
  | .IGRP_STAT_FENCED => FldInfo.mk 0x10 0x4 0x0 1 15 8 .ro 0x0
  | .IGRP_STAT_BUSY => FldInfo.mk 0x10 0x4 0x0 1 7 0 .ro 0x0
  | .IGRP_PASSES_COUNT => FldInfo.mk 0x10 0x8 0x0 1 63 0 .ro 0x0
  | .IGRP_CLEARS_COUNT => FldInfo.mk 0x10 0x10 0x0 1 31 0 .rc 0x0
  | .IGRP_STOPS_COUNT => FldInfo.mk 0x10 0x14 0x0 1 31 0 .rc 0x0
  | .ITILE_STAT_BIB => FldInfo.mk 0x11 0x0 0x0 1 57 48 .ro 0x0
  | .ITILE_STAT_SLOT => FldInfo.mk 0x11 0x0 0x0 1 47 40 .ro 0x0
  | .ITILE_STAT_LAYER => FldInfo.mk 0x11 0x0 0x0 1 39 28 .ro 0x0
  | .ITILE_STAT_WAIT => FldInfo.mk 0x11 0x0 0x0 1 2 2 .ro 0x0
  | .ITILE_STAT_BUSY => FldInfo.mk 0x11 0x0 0x0 1 1 1 .ro 0x0
  | .ITILE_STAT_FENCED => FldInfo.mk 0x11 0x0 0x0 1 0 0 .ro 0x0
  | .ITILE_BUSY_CYCLES => FldInfo.mk 0x11 0x8 0x0 1 63 0 .ro 0x0
  | .ITILE_WAIT_CYCLES => FldInfo.mk 0x11 0x10 0x0 1 63 0 .ro 0x0
  | .ITILE_ECC_COUNT => FldInfo.mk 0x11 0x18 0x0 1 31 0 .rc 0x0
  | .ITILE_UNCORR_COUNT => FldInfo.mk 0x11 0x1C 0x0 1 31 0 .rc 0x0
  | .TSRAM_STAT_FREE => FldInfo.mk 0x12 0x0 0x0 1 12 0 .ro 0x1000
  | .TSRAM_IN_BYTES => FldInfo.mk 0x12 0x8 0x0 1 63 0 .ro 0x0
  | .TSRAM_ECC_COUNT => FldInfo.mk 0x12 0x10 0x0 1 31 0 .rc 0x0
  | .TSRAM_UNCORR_COUNT => FldInfo.mk 0x12 0x14 0x0 1 31 0 .rc 0x0
  | .IGRP_SAT_COUNT => FldInfo.mk 0x10 0x20 0x0 1 31 0 .rc 0x0
  | .IGRP_NONFIN_COUNT => FldInfo.mk 0x10 0x24 0x0 1 31 0 .rc 0x0
  | .IGRP_SCLAMP_COUNT => FldInfo.mk 0x10 0x28 0x0 1 31 0 .rc 0x0
  | .IGRP_RESCECC_COUNT => FldInfo.mk 0x10 0x2C 0x0 1 31 0 .rc 0x0
  | .IGRP_RESCUNC_COUNT => FldInfo.mk 0x10 0x30 0x0 1 31 0 .rc 0x0
  | .IGRP_MEASURES_COUNT => FldInfo.mk 0x10 0x34 0x0 1 31 0 .rc 0x0
  | .IGRP_RESCUSE_ENTRIES => FldInfo.mk 0x10 0x38 0x0 1 13 0 .ro 0x0
  | .EMB_CFG_PART => FldInfo.mk 0x62 0x0 0x0 1 29 24 .rwl 0x0
  | .EMB_CFG_MIG_HIGH => FldInfo.mk 0x62 0x0 0x0 1 23 20 .rwl 0xC
  | .EMB_CFG_MIG_MAX => FldInfo.mk 0x62 0x0 0x0 1 6 0 .rwl 0x40
  | .EMB_CFG2_MIG_MIN => FldInfo.mk 0x62 0x4 0x0 1 31 0 .rwl 0x400
  | .EMB_MIG_DST => FldInfo.mk 0x62 0x8 0x0 1 15 8 .ro 0x0
  | .EMB_MIG_SRC => FldInfo.mk 0x62 0x8 0x0 1 7 0 .ro 0x0
  | .EMB_REDIR_COUNT => FldInfo.mk 0x62 0xC 0x0 1 20 0 .ro 0x0
  | .EMB_STARTED_COUNT => FldInfo.mk 0x62 0x10 0x0 1 31 0 .rc 0x0
  | .EMB_ABORTED_COUNT => FldInfo.mk 0x62 0x14 0x0 1 31 0 .rc 0x0
  | .EMB_MIGDENY_COUNT => FldInfo.mk 0x62 0x18 0x0 1 31 0 .rc 0x0
  | .EMB_TID_REPL => FldInfo.mk 0x62 0x100 0x40 256 16 16 .ro 0x0
  | .EMB_TID_TABLE => FldInfo.mk 0x62 0x100 0x40 256 7 0 .ro 0x0
  | .EMB_STEP_APPLIED => FldInfo.mk 0x62 0x104 0x40 256 31 0 .ro 0x0
  | .EMB_LOAD_ROWS => FldInfo.mk 0x62 0x108 0x40 256 31 0 .ro 0x0
  | .EMB_LEVEL_LEVEL => FldInfo.mk 0x62 0x10C 0x40 256 3 0 .ro 0x0
  | .EMB_LOOKUPS_COUNT => FldInfo.mk 0x62 0x110 0x40 256 63 0 .ro 0x0
  | .EMB_DELTAS_COUNT => FldInfo.mk 0x62 0x118 0x40 256 63 0 .ro 0x0
  | .EMB_STALE_COUNT => FldInfo.mk 0x62 0x120 0x40 256 31 0 .rc 0x0
  | .EMB_TOSTEP_COUNT => FldInfo.mk 0x62 0x124 0x40 256 31 0 .rc 0x0
  | .EMB_NVBLK_COUNT => FldInfo.mk 0x62 0x128 0x40 256 31 0 .rc 0x0
  | .EMB_MIGOUT_COUNT => FldInfo.mk 0x62 0x12C 0x40 256 31 0 .rc 0x0
  | .EMB_MIGIN_COUNT => FldInfo.mk 0x62 0x130 0x40 256 31 0 .rc 0x0
  | .POOL_CFG_LEASE_MS => FldInfo.mk 0x63 0x0 0x0 1 31 16 .ro 0x0
  | .POOL_CFG_HANDOFF_MS => FldInfo.mk 0x63 0x0 0x0 1 15 0 .ro 0x0
  | .POOL_SEGS_COUNT => FldInfo.mk 0x63 0x4 0x0 1 20 0 .ro 0x0
  | .POOL_DRAM_BLOCKS => FldInfo.mk 0x63 0x8 0x0 1 31 0 .ro 0x0
  | .POOL_SPILL_BLOCKS => FldInfo.mk 0x63 0xC 0x0 1 31 0 .ro 0x0
  | .POOL_PUBLISH_COUNT => FldInfo.mk 0x63 0x10 0x0 1 63 0 .ro 0x0
  | .POOL_READS_COUNT => FldInfo.mk 0x63 0x18 0x0 1 63 0 .ro 0x0
  | .POOL_VCONFL_COUNT => FldInfo.mk 0x63 0x20 0x0 1 31 0 .rc 0x0
  | .POOL_EXPIRED_COUNT => FldInfo.mk 0x63 0x24 0x0 1 31 0 .rc 0x0
  | .POOL_NOTOWNER_COUNT => FldInfo.mk 0x63 0x28 0x0 1 31 0 .rc 0x0
  | .POOL_GRANTS_COUNT => FldInfo.mk 0x63 0x2C 0x0 1 31 0 .rc 0x0
  | .POOL_OFFERTO_COUNT => FldInfo.mk 0x63 0x30 0x0 1 31 0 .rc 0x0
  | .POOL_EVICTED_COUNT => FldInfo.mk 0x63 0x34 0x0 1 31 0 .rc 0x0
  | .POOL_LINKS_COUNT => FldInfo.mk 0x63 0x38 0x0 1 31 0 .rc 0x0
  | .POOL_APTUR_COUNT => FldInfo.mk 0x63 0x3C 0x0 1 31 0 .rc 0x0
  | .POOL_APTKEY_KEY => FldInfo.mk 0x63 0x100 0x10 64 63 0 .rw 0x0
  | .POOL_APTCTL_LIVE => FldInfo.mk 0x63 0x108 0x10 64 1 1 .ro 0x0
  | .POOL_APTCTL_EN => FldInfo.mk 0x63 0x108 0x10 64 0 0 .rw 0x0
  | .TIER_CFG_FLOOR_GIB => FldInfo.mk 0x43 0x0 0x0 1 23 16 .rwl 0x8
  | .TIER_CFG_STEP_DRAM => FldInfo.mk 0x43 0x0 0x0 1 15 8 .rwl 0x1
  | .TIER_CFG_STEP_FLASH => FldInfo.mk 0x43 0x0 0x0 1 7 0 .rwl 0x8
  | .TIER_TOTAL_TILES => FldInfo.mk 0x43 0x4 0x0 1 31 0 .ro 0x0
  | .TIER_WORK_TILES => FldInfo.mk 0x43 0x8 0x0 1 31 0 .ro 0x0
  | .TIER_PINNED_TILES => FldInfo.mk 0x43 0xC 0x0 1 31 0 .ro 0x0
  | .TIER_CACHED_TILES => FldInfo.mk 0x43 0x10 0x0 1 31 0 .ro 0x0
  | .TIER_DIRTY_TILES => FldInfo.mk 0x43 0x14 0x0 1 14 0 .ro 0x0
  | .TIER_HELD_TILES => FldInfo.mk 0x43 0x18 0x0 1 15 0 .ro 0x0
  | .TIER_HITS_COUNT => FldInfo.mk 0x43 0x20 0x0 1 63 0 .ro 0x0
  | .TIER_MISSES_COUNT => FldInfo.mk 0x43 0x28 0x0 1 63 0 .ro 0x0
  | .TIER_EVICT_COUNT => FldInfo.mk 0x43 0x30 0x0 1 63 0 .ro 0x0
  | .TIER_WB_COUNT => FldInfo.mk 0x43 0x38 0x0 1 31 0 .rc 0x0
  | .TIER_PINDENY_COUNT => FldInfo.mk 0x43 0x3C 0x0 1 31 0 .rc 0x0
  | .TIER_NVBLK_COUNT => FldInfo.mk 0x43 0x40 0x0 1 31 0 .rc 0x0
  | .TIER_SWEEPS_COUNT => FldInfo.mk 0x43 0x44 0x0 1 31 0 .ro 0x0
  | .TIER_PINQ_GIB => FldInfo.mk 0x43 0x100 0x10 64 31 0 .rwl 0x0
  | .TIER_FLQ_GIB => FldInfo.mk 0x43 0x104 0x10 64 31 0 .rwl 0x0
  | .TIER_PUSE_TILES => FldInfo.mk 0x43 0x108 0x10 64 31 0 .ro 0x0
  | .TIER_FUSE_TILES => FldInfo.mk 0x43 0x10C 0x10 64 31 0 .ro 0x0
  | .OPT_USE_COUNT => FldInfo.mk 0x24 0x0 0x0 1 15 0 .ro 0x0
  | .OPT_PEAK_COUNT => FldInfo.mk 0x24 0x4 0x0 1 15 0 .rc 0x0
  | .OPT_STALL_CYCLES => FldInfo.mk 0x24 0x8 0x0 1 63 0 .ro 0x0
  | .OPT_ISSUED_COUNT => FldInfo.mk 0x24 0x10 0x0 1 63 0 .ro 0x0
  | .SLED_STAT_STATE => FldInfo.mk 0x40 0x0 0x0 1 26 24 .ro 0x0
  | .SLED_STAT_TARGETS => FldInfo.mk 0x40 0x0 0x0 1 15 8 .ro 0x0
  | .SLED_STAT_MEDIA => FldInfo.mk 0x40 0x0 0x0 1 1 0 .ro 0x0
  | .SLED_RAW_BYTES => FldInfo.mk 0x40 0x8 0x0 1 63 0 .ro 0x0
  | .SLED_HEALTH_SPARE => FldInfo.mk 0x40 0x10 0x0 1 31 16 .ro 0x0
  | .SLED_HEALTH_WEAR => FldInfo.mk 0x40 0x10 0x0 1 15 0 .ro 0x0
  | .SLED_TEMP_CELSIUS => FldInfo.mk 0x40 0x14 0x0 1 7 0 .ro 0x0
  | .SLED_CORR_COUNT => FldInfo.mk 0x40 0x18 0x0 1 63 0 .ro 0x0
  | .SLED_RETRY_COUNT => FldInfo.mk 0x40 0x20 0x0 1 31 0 .rc 0x0
  | .SLED_UNCORR_COUNT => FldInfo.mk 0x40 0x24 0x0 1 31 0 .rc 0x0
  | .SLED_PFAIL_COUNT => FldInfo.mk 0x40 0x28 0x0 1 31 0 .rc 0x0
  | .SLED_EFAIL_COUNT => FldInfo.mk 0x40 0x2C 0x0 1 31 0 .rc 0x0
  | .SLED_RETIRED_BLOCKS => FldInfo.mk 0x40 0x30 0x0 1 31 0 .ro 0x0
  | .SLED_TEMPH_SECONDS => FldInfo.mk 0x40 0x40 0x4 16 31 0 .ro 0x0
  | .FLC_CFG_MAXMTS => FldInfo.mk 0x41 0x0 0x0 1 11 0 .rwl 0xE10
  | .FLC_STAT_CE => FldInfo.mk 0x41 0x4 0x0 1 31 16 .ro 0x0
  | .FLC_STAT_MTS => FldInfo.mk 0x41 0x4 0x0 1 15 4 .ro 0x0
  | .FLC_STAT_TRAINED => FldInfo.mk 0x41 0x4 0x0 1 0 0 .ro 0x0
  | .FLC_READS_COUNT => FldInfo.mk 0x41 0x8 0x0 1 63 0 .ro 0x0
  | .FLC_PROGS_COUNT => FldInfo.mk 0x41 0x10 0x0 1 63 0 .ro 0x0
  | .FLC_ERASES_COUNT => FldInfo.mk 0x41 0x18 0x0 1 63 0 .ro 0x0
  | .FLC_SUSPEND_COUNT => FldInfo.mk 0x41 0x20 0x0 1 31 0 .rc 0x0
  | .FLC_QDEEP_COUNT => FldInfo.mk 0x41 0x24 0x0 1 31 0 .rc 0x0
  | .FLC_RETRY_COUNT => FldInfo.mk 0x41 0x28 0x0 1 31 0 .rc 0x0
  | .FLC_UNCORR_COUNT => FldInfo.mk 0x41 0x2C 0x0 1 31 0 .rc 0x0
  | .FTL_CFG_FOLD_PCT => FldInfo.mk 0x42 0x0 0x0 1 23 16 .rwl 0x32
  | .FTL_CFG_WAIT_PCT => FldInfo.mk 0x42 0x0 0x0 1 15 8 .rwl 0x5A
  | .FTL_CFG_JRES_PCT => FldInfo.mk 0x42 0x0 0x0 1 7 0 .rwl 0xA
  | .FTL_VTHR_NVBAR => FldInfo.mk 0x42 0x4 0x0 1 23 16 .rwl 0x5A
  | .FTL_VTHR_LOSS => FldInfo.mk 0x42 0x4 0x0 1 15 8 .rwl 0x55
  | .FTL_VTHR_FLOOR => FldInfo.mk 0x42 0x4 0x0 1 7 0 .rwl 0x32
  | .FTL_LOGICAL_TILES => FldInfo.mk 0x42 0x8 0x0 1 63 0 .ro 0x0
  | .FTL_JOURNAL_BOUND_MIB => FldInfo.mk 0x42 0x10 0x0 1 63 32 .ro 0x0
  | .FTL_JOURNAL_DIRTY_KIB => FldInfo.mk 0x42 0x10 0x0 1 31 0 .ro 0x0
  | .FTL_SLC_CAP_TILES => FldInfo.mk 0x42 0x18 0x0 1 63 32 .ro 0x0
  | .FTL_SLC_USED_TILES => FldInfo.mk 0x42 0x18 0x0 1 31 0 .ro 0x0
  | .FTL_SUPPLY_FLUSH => FldInfo.mk 0x42 0x20 0x0 1 2 2 .ro 0x0
  | .FTL_SUPPLY_HOLDLOW => FldInfo.mk 0x42 0x20 0x0 1 1 1 .ro 0x0
  | .FTL_SUPPLY_NVLOW => FldInfo.mk 0x42 0x20 0x0 1 0 0 .ro 0x0
  | .FTL_TBOUND_US => FldInfo.mk 0x42 0x24 0x0 1 31 0 .ro 0x0
  | .FTL_LASTFLUSH_DURATION_US => FldInfo.mk 0x42 0x28 0x0 1 63 32 .ro 0x0
  | .FTL_LASTFLUSH_RESULT => FldInfo.mk 0x42 0x28 0x0 1 7 0 .ro 0x0
  | .FTL_NVBLK_COUNT => FldInfo.mk 0x42 0x30 0x0 1 31 0 .rc 0x0
  | .FTL_NVENTRY_COUNT => FldInfo.mk 0x42 0x34 0x0 1 31 0 .rc 0x0
  | .FTL_UNDEF_COUNT => FldInfo.mk 0x42 0x38 0x0 1 31 0 .rc 0x0
  | .FTL_JWAIT_COUNT => FldInfo.mk 0x42 0x3C 0x0 1 31 0 .rc 0x0
  | .FTL_FOLDED_TILES => FldInfo.mk 0x42 0x40 0x0 1 63 0 .ro 0x0
  | .FTL_RECLAIM_BLOCKS => FldInfo.mk 0x42 0x48 0x0 1 63 0 .ro 0x0
  | .FTL_DISCARD_TILES => FldInfo.mk 0x42 0x50 0x0 1 63 0 .ro 0x0
  | .TM_INFO_SUBS => FldInfo.mk 0x50 0x0 0x0 1 10 0 .ro 0x0
  | .TM_CHANGES_COUNT => FldInfo.mk 0x50 0x4 0x0 1 31 0 .rc 0x0
  | .TM_OCFG_OVERHEAD => FldInfo.mk 0x50 0x100 0x80 4 24 16 .ro 0x0
  | .TM_OCFG_PROMO => FldInfo.mk 0x50 0x100 0x80 4 15 8 .ro 0x0
  | .TM_ORATE_MBPS => FldInfo.mk 0x50 0x104 0x80 4 31 0 .ro 0x0
  | .TM_GCL_CUR => FldInfo.mk 0x50 0x108 0x80 4 26 16 .ro 0x0
  | .TM_GCL_COUNT => FldInfo.mk 0x50 0x108 0x80 4 10 0 .ro 0x0
  | .TM_OLAT_NS => FldInfo.mk 0x50 0x10C 0x80 4 15 0 .ro 0x0
  | .TM_CTLBYTES_COUNT => FldInfo.mk 0x50 0x110 0x80 4 63 0 .ro 0x0
  | .TM_CONBYTES_COUNT => FldInfo.mk 0x50 0x118 0x80 4 63 0 .ro 0x0
  | .TM_URGBYTES_COUNT => FldInfo.mk 0x50 0x120 0x80 4 63 0 .ro 0x0
  | .TM_OPNBYTES_COUNT => FldInfo.mk 0x50 0x128 0x80 4 63 0 .ro 0x0
  | .TM_APTBYTES_COUNT => FldInfo.mk 0x50 0x130 0x80 4 63 0 .ro 0x0
  | .TM_NOFIT_COUNT => FldInfo.mk 0x50 0x138 0x80 4 31 0 .rc 0x0
  | .TM_PROMOTED_COUNT => FldInfo.mk 0x50 0x13C 0x80 4 31 0 .rc 0x0
  | .TM_PBUCKET_NS => FldInfo.mk 0x50 0x140 0x80 4 31 0 .ro 0x0
  | .TM_CTLWAIT_COUNT => FldInfo.mk 0x50 0x144 0x80 4 31 0 .rc 0x0
  | .TM_SUBTOK_BYTES => FldInfo.mk 0x50 0x1000 0x40 1025 31 0 .ro 0x0
  | .TM_SVCTOK0_BYTES => FldInfo.mk 0x50 0x1004 0x40 1025 31 0 .ro 0x0
  | .TM_SVCTOK1_BYTES => FldInfo.mk 0x50 0x1008 0x40 1025 31 0 .ro 0x0
  | .TM_SVCTOK2_BYTES => FldInfo.mk 0x50 0x100C 0x40 1025 31 0 .ro 0x0
  | .TM_SVCTOK3_BYTES => FldInfo.mk 0x50 0x1010 0x40 1025 31 0 .ro 0x0
  | .TM_SVCTOK4_BYTES => FldInfo.mk 0x50 0x1014 0x40 1025 31 0 .ro 0x0
  | .TM_SVCTOK5_BYTES => FldInfo.mk 0x50 0x1018 0x40 1025 31 0 .ro 0x0
  | .TM_SVCTOK6_BYTES => FldInfo.mk 0x50 0x101C 0x40 1025 31 0 .ro 0x0
  | .TM_SVCTOK7_BYTES => FldInfo.mk 0x50 0x1020 0x40 1025 31 0 .ro 0x0
  | .TM_SUBST_URGENT => FldInfo.mk 0x50 0x1024 0x40 1025 15 8 .ro 0x0
  | .TM_SUBST_CONTR => FldInfo.mk 0x50 0x1024 0x40 1025 7 0 .ro 0x0
  | .TM_SUBSENT_COUNT => FldInfo.mk 0x50 0x1028 0x40 1025 63 0 .ro 0x0
  | .TM_SUBPROM_COUNT => FldInfo.mk 0x50 0x1030 0x40 1025 31 0 .rc 0x0
  | .ETH_CFG_MAXFRAME => FldInfo.mk 0x51 0x0 0x0 1 31 16 .ro 0x0
  | .ETH_CFG_MODE => FldInfo.mk 0x51 0x0 0x0 1 0 0 .ro 0x0
  | .ETH_LINK_UP => FldInfo.mk 0x51 0x4 0x0 1 9 8 .ro 0x0
  | .ETH_LINK_LOCK => FldInfo.mk 0x51 0x4 0x0 1 7 0 .ro 0x0
  | .ETH_MAC_ADDR => FldInfo.mk 0x51 0x8 0x0 1 47 0 .ro 0x0
  | .ETH_TXFRAMES_COUNT => FldInfo.mk 0x51 0x10 0x0 1 63 0 .ro 0x0
  | .ETH_RXFRAMES_COUNT => FldInfo.mk 0x51 0x18 0x0 1 63 0 .ro 0x0
  | .ETH_FECCORR_COUNT => FldInfo.mk 0x51 0x20 0x0 1 63 0 .ro 0x0
  | .ETH_FECUNC_COUNT => FldInfo.mk 0x51 0x28 0x0 1 31 0 .rc 0x0
  | .ETH_PAUSE_COUNT => FldInfo.mk 0x51 0x2C 0x0 1 31 0 .rc 0x0
  | .ETH_CNPRX_COUNT => FldInfo.mk 0x51 0x30 0x0 1 31 0 .rc 0x0
  | .ETH_CNPTX_COUNT => FldInfo.mk 0x51 0x34 0x0 1 31 0 .rc 0x0
  | .ETH_LAT_NS => FldInfo.mk 0x51 0x38 0x0 1 15 0 .ro 0x0
  | .ETH_DROPS_COUNT => FldInfo.mk 0x51 0x3C 0x0 1 31 0 .rc 0x0
  | .PTP_TIME_NS => FldInfo.mk 0x52 0x0 0x0 1 63 0 .ro 0x0
  | .PTP_CFG_PROFILE => FldInfo.mk 0x52 0x8 0x0 1 17 16 .rwl 0x0
  | .PTP_CFG_PORT => FldInfo.mk 0x52 0x8 0x0 1 12 12 .rwl 0x0
  | .PTP_CFG_MASTER => FldInfo.mk 0x52 0x8 0x0 1 8 8 .rwl 0x0
  | .PTP_CFG_DOMAIN => FldInfo.mk 0x52 0x8 0x0 1 6 0 .rwl 0x0
  | .PTP_STAT_LOCKED => FldInfo.mk 0x52 0xC 0x0 1 31 31 .ro 0x0
  | .PTP_STAT_HOLDOVER => FldInfo.mk 0x52 0xC 0x0 1 30 30 .ro 0x0
  | .PTP_STAT_MASTER => FldInfo.mk 0x52 0xC 0x0 1 29 29 .ro 0x0
  | .PTP_STAT_PORT => FldInfo.mk 0x52 0xC 0x0 1 0 0 .ro 0x0
  | .PTP_OFFSET_NS => FldInfo.mk 0x52 0x10 0x0 1 31 0 .ro 0x0
  | .PTP_FREQ_PPB => FldInfo.mk 0x52 0x14 0x0 1 31 0 .ro 0x0
  | .PTP_UNLOCK_COUNT => FldInfo.mk 0x52 0x18 0x0 1 31 0 .rc 0x0
  | .PTP_STEPS_COUNT => FldInfo.mk 0x52 0x1C 0x0 1 31 0 .ro 0x0
  | .RLY_ID_COUNT => FldInfo.mk 0x53 0x0 0x0 1 24 16 .ro 0x0
  | .RLY_ID_SLOT => FldInfo.mk 0x53 0x0 0x0 1 15 8 .ro 0x0
  | .RLY_ID_ANCHOR => FldInfo.mk 0x53 0x0 0x0 1 7 0 .ro 0x0
  | .RLY_PORT_UDP => FldInfo.mk 0x53 0x4 0x0 1 15 0 .ro 0x0
  | .RLY_EPOCH_BATON => FldInfo.mk 0x53 0x8 0x0 1 63 32 .ro 0x0
  | .RLY_EPOCH_RESTART => FldInfo.mk 0x53 0x8 0x0 1 31 0 .ro 0x0
  | .RLY_STAT_HOLDER => FldInfo.mk 0x53 0x10 0x0 1 31 24 .ro 0x0
  | .RLY_STAT_STATE => FldInfo.mk 0x53 0x10 0x0 1 1 0 .ro 0x2
  | .RLY_INTR_NS => FldInfo.mk 0x53 0x18 0x0 1 63 0 .ro 0x0
  | .RLY_INTRPREV_NS => FldInfo.mk 0x53 0x20 0x0 1 63 0 .ro 0x0
  | .RLY_LOST_COUNT => FldInfo.mk 0x53 0x28 0x0 1 31 0 .rc 0x0
  | .RLY_TAKEOVER_COUNT => FldInfo.mk 0x53 0x2C 0x0 1 31 0 .rc 0x0
  | .RLY_HEDGES_COUNT => FldInfo.mk 0x53 0x30 0x0 1 31 0 .rc 0x0
  | .RLY_HEDGEWON_COUNT => FldInfo.mk 0x53 0x34 0x0 1 31 0 .rc 0x0
  | .RLY_STALE_COUNT => FldInfo.mk 0x53 0x38 0x0 1 31 0 .rc 0x0
  | .RLY_RETX_COUNT => FldInfo.mk 0x53 0x3C 0x0 1 31 0 .rc 0x0
  | .RLY_BADFRAME_COUNT => FldInfo.mk 0x53 0x40 0x0 1 31 0 .rc 0x0
  | .RLY_LASTTO_US => FldInfo.mk 0x53 0x44 0x0 1 31 0 .ro 0x0
  | .RLY_NOCOPY_COUNT => FldInfo.mk 0x53 0x48 0x0 1 31 0 .rc 0x0
  | .RLY_MEM_ELEVEL => FldInfo.mk 0x53 0x100 0x10 256 15 12 .ro 0x0
  | .RLY_MEM_SLEVEL => FldInfo.mk 0x53 0x100 0x10 256 11 8 .ro 0x0
  | .RLY_MEM_STATE => FldInfo.mk 0x53 0x100 0x10 256 1 0 .ro 0x2
  | .RLY_MEMINTR_US => FldInfo.mk 0x53 0x104 0x10 256 31 0 .ro 0x0
  | .RLY_MEMLAST_TIME => FldInfo.mk 0x53 0x108 0x10 256 63 0 .ro 0x0
  | .REF_CFG_ERRCLASS => FldInfo.mk 0x3 0x0 0x0 1 29 27 .rw 0x3
  | .REF_CFG_NOTIFY => FldInfo.mk 0x3 0x0 0x0 1 26 24 .rw 0x2
  | .REF_CFG_VEC => FldInfo.mk 0x3 0x0 0x0 1 23 22 .rw 0x1
  | .REF_CFG_GRACE_US => FldInfo.mk 0x3 0x0 0x0 1 16 0 .rwl 0x3E8
  | .REF_STAT_FENCED => FldInfo.mk 0x3 0x4 0x0 1 31 31 .ro 0x0
  | .REF_STAT_HIGH => FldInfo.mk 0x3 0x4 0x0 1 18 16 .ro 0x7
  | .REF_STAT_OPEN => FldInfo.mk 0x3 0x4 0x0 1 13 0 .ro 0x0
  | .REF_PEND_PEND => FldInfo.mk 0x3 0x8 0x0 1 0 0 .w1c 0x0
  | .REF_ESCAL_COUNT => FldInfo.mk 0x3 0xC 0x0 1 31 0 .rc 0x0
  | .REF_REPLACED_COUNT => FldInfo.mk 0x3 0x10 0x0 1 31 0 .rc 0x0
  | .REF_MERGED_COUNT => FldInfo.mk 0x3 0x14 0x0 1 31 0 .rc 0x0
  | .REF_ERRORS_COUNT => FldInfo.mk 0x3 0x18 0x0 1 63 0 .ro 0x0
  | .REF_ADDR_ADDR => FldInfo.mk 0x3 0x1000 0x20 10240 63 0 .ro 0x0
  | .REF_TIME_NS => FldInfo.mk 0x3 0x1008 0x20 10240 63 0 .ro 0x0
  | .REF_MASTER_TYPE => FldInfo.mk 0x3 0x1010 0x20 10240 63 48 .ro 0x0
  | .REF_MASTER_INST => FldInfo.mk 0x3 0x1010 0x20 10240 47 32 .ro 0x0
  | .REF_MASTER_BIBV => FldInfo.mk 0x3 0x1010 0x20 10240 31 31 .ro 0x0
  | .REF_MASTER_BIB => FldInfo.mk 0x3 0x1010 0x20 10240 25 16 .ro 0x0
  | .REF_MASTER_GEN => FldInfo.mk 0x3 0x1010 0x20 10240 15 0 .ro 0x0
  | .REF_REC_COUNT => FldInfo.mk 0x3 0x1018 0x20 10240 63 32 .ro 0x0
  | .REF_REC_SOURCE => FldInfo.mk 0x3 0x1018 0x20 10240 31 24 .ro 0x0
  | .REF_REC_ACCESS => FldInfo.mk 0x3 0x1018 0x20 10240 23 20 .ro 0x0
  | .REF_REC_CLASS => FldInfo.mk 0x3 0x1018 0x20 10240 10 8 .ro 0x0
  | .REF_REC_STATE => FldInfo.mk 0x3 0x1018 0x20 10240 5 4 .ro 0x0
  | .REF_REC_STEPS => FldInfo.mk 0x3 0x1018 0x20 10240 3 0 .ro 0x0
  | .PANEL_CFG_ID => FldInfo.mk 0x65 0x0 0x0 1 8 8 .rw 0x0
  | .PANEL_CFG_LOCK => FldInfo.mk 0x65 0x0 0x0 1 3 0 .rw 0x0
  | .PANEL_CMD_CANCEL => FldInfo.mk 0x65 0x4 0x0 1 7 4 .wo 0x0
  | .PANEL_CMD_REMOVE => FldInfo.mk 0x65 0x4 0x0 1 3 0 .wo 0x0
  | .PANEL_SLED_SEQ => FldInfo.mk 0x65 0x100 0x20 4 23 20 .ro 0x0
  | .PANEL_SLED_PRSNT => FldInfo.mk 0x65 0x100 0x20 4 4 4 .ro 0x0
  | .PANEL_SLED_PWREN => FldInfo.mk 0x65 0x100 0x20 4 3 3 .ro 0x0
  | .PANEL_SLED_ATTN => FldInfo.mk 0x65 0x100 0x20 4 2 2 .ro 0x0
  | .PANEL_SLED_PWRLED => FldInfo.mk 0x65 0x100 0x20 4 1 1 .ro 0x0
  | .PANEL_SLED_HELD => FldInfo.mk 0x65 0x100 0x20 4 0 0 .ro 0x0
  | .PANEL_PRESS_TIME => FldInfo.mk 0x65 0x108 0x20 4 63 0 .ro 0x0
  | .PANEL_IGNORED_COUNT => FldInfo.mk 0x65 0x110 0x20 4 31 0 .rc 0x0
  | .PANEL_SURPRISE_COUNT => FldInfo.mk 0x65 0x114 0x20 4 31 0 .rc 0x0
  | .PANEL_CANCELS_COUNT => FldInfo.mk 0x65 0x118 0x20 4 31 0 .rc 0x0
  | .BOOT_STAT_WDOGS => FldInfo.mk 0x102 0x1800 0x0 1 39 32 .ro 0x0
  | .BOOT_STAT_ERROR => FldInfo.mk 0x102 0x1800 0x0 1 31 24 .ro 0x0
  | .BOOT_STAT_CAUSE => FldInfo.mk 0x102 0x1800 0x0 1 23 20 .ro 0x0
  | .BOOT_STAT_MODE => FldInfo.mk 0x102 0x1800 0x0 1 9 8 .ro 0x0
  | .BOOT_STAT_PHASE => FldInfo.mk 0x102 0x1800 0x0 1 3 0 .ro 0x1
  | .RCV_ADDR_ADDR => FldInfo.mk 0x102 0x1808 0x0 1 63 6 .rw 0x0
  | .RCV_LEN_BYTES => FldInfo.mk 0x102 0x1810 0x0 1 24 0 .rw 0x0
  | .RCV_CMD_STORE => FldInfo.mk 0x102 0x1814 0x0 1 1 1 .wo 0x0
  | .RCV_CMD_GO => FldInfo.mk 0x102 0x1814 0x0 1 0 0 .wo 0x0
  | .RCV_STAT_STATE => FldInfo.mk 0x102 0x1818 0x0 1 1 0 .ro 0x0
  | .PWR_STATE_STATE => FldInfo.mk 0x5 0x0 0x0 1 3 0 .ro 0x2
  | .PWR_STRAP_TEST_EN => FldInfo.mk 0x5 0x4 0x0 1 4 4 .ro 0x0
  | .PWR_STRAP_SMB_ADDR0 => FldInfo.mk 0x5 0x4 0x0 1 3 3 .ro 0x0
  | .PWR_STRAP_XSPI_QUAD => FldInfo.mk 0x5 0x4 0x0 1 2 2 .ro 0x0
  | .PWR_STRAP_BOOT_MODE => FldInfo.mk 0x5 0x4 0x0 1 1 0 .ro 0x0
  | .PWR_RSTCAUSE_CAUSE => FldInfo.mk 0x5 0x8 0x0 1 3 0 .ro 0x0
  | .PWR_RST_KEY => FldInfo.mk 0x5 0xC 0x0 1 15 0 .wo 0x0
  | .PWR_SENSE_HOLD => FldInfo.mk 0x5 0x10 0x0 1 47 32 .ro 0x0
  | .PWR_SENSE_MAIN => FldInfo.mk 0x5 0x10 0x0 1 15 0 .ro 0x0
  | .PWR_CLK_TIMEBK => FldInfo.mk 0x5 0x18 0x0 1 17 17 .ro 0x0
  | .PWR_CLK_STK => FldInfo.mk 0x5 0x18 0x0 1 16 9 .ro 0x0
  | .PWR_CLK_ETH => FldInfo.mk 0x5 0x18 0x0 1 8 7 .ro 0x0
  | .PWR_CLK_PCIE => FldInfo.mk 0x5 0x18 0x0 1 6 5 .ro 0x0
  | .PWR_CLK_FLASH => FldInfo.mk 0x5 0x18 0x0 1 4 4 .ro 0x0
  | .PWR_CLK_STRIDE => FldInfo.mk 0x5 0x18 0x0 1 3 3 .ro 0x0
  | .PWR_CLK_TRACK => FldInfo.mk 0x5 0x18 0x0 1 2 2 .ro 0x0
  | .PWR_CLK_CORE => FldInfo.mk 0x5 0x18 0x0 1 1 1 .ro 0x0
  | .PWR_CLK_MGMT => FldInfo.mk 0x5 0x18 0x0 1 0 0 .ro 0x1
  | .PWR_POWER_WATTS => FldInfo.mk 0x5 0x1C 0x0 1 15 0 .ro 0x0
  | .PWR_TEMP_CELSIUS => FldInfo.mk 0x5 0x20 0x0 1 7 0 .ro 0x0
  | .PWR_BOOTMS_MS => FldInfo.mk 0x5 0x24 0x0 1 31 0 .ro 0x0
  | .MEAS_COUNT_ENTRIES => FldInfo.mk 0x4 0x0 0x0 1 31 0 .ro 0x0
  | .MEAS_DROPPED_COUNT => FldInfo.mk 0x4 0x4 0x0 1 31 0 .ro 0x0
  | .MEAS_FWSECVER_SECVER => FldInfo.mk 0x4 0x8 0x0 1 31 0 .ro 0x0
  | .MEAS_FWFLOOR_FLOOR => FldInfo.mk 0x4 0xC 0x0 1 31 0 .ro 0x0
  | .MEAS_KEYS_FWKEY => FldInfo.mk 0x4 0x10 0x0 1 10 10 .ro 0x0
  | .MEAS_KEYS_ROMREV => FldInfo.mk 0x4 0x10 0x0 1 9 8 .ro 0x0
  | .MEAS_KEYS_SLOTS => FldInfo.mk 0x4 0x10 0x0 1 7 0 .ro 0x0
  | .MEAS_RAISES_FW => FldInfo.mk 0x4 0x14 0x0 1 15 8 .ro 0x0
  | .MEAS_RAISES_CI => FldInfo.mk 0x4 0x14 0x0 1 7 0 .ro 0x0
  | .MEAS_IDKEY_WORD => FldInfo.mk 0x4 0x20 0x8 4 63 0 .ro 0x0
  | .MEAS_RUN_WORD => FldInfo.mk 0x4 0x40 0x8 8 63 0 .ro 0x0
  | .MEAS_FWDIG_WORD => FldInfo.mk 0x4 0x80 0x8 8 63 0 .ro 0x0

/-- The fields of a block type. -/
def Fld.ofBlk (blk : Nat) : List Fld :=
  if blk = 0x2 then
    [.CI_STATE_LAST_STATUS, .CI_STATE_STATE, .CI_REFUSE_ENTRY, .CI_REFUSE_SECTION, .CI_SERIAL_SERIAL,
      .CI_SECVER_FLOOR, .CI_SECVER_ACTIVE, .CI_DIGEST_WORD, .CI_LOADS_COUNT, .CI_REFUSALS_COUNT]
  else if blk = 0x100 then
    [.VF_INFO_BIB, .VF_INFO_MAP, .VF_INFO_GEN]
  else if blk = 0x1 then
    [.ID_PART_PART, .ID_PART_STEP, .ID_ROM_VERSION, .ID_FW_MAJOR, .ID_FW_MINOR, .ID_FW_PATCH, .ID_SL_FORMAT,
      .ID_SERIAL_SERIAL, .ID_FPR0_WORD, .ID_FPR1_WORD, .ID_CAP0_STACKS, .ID_CAP0_ETH, .ID_CAP0_PCIE,
      .ID_CAP0_APT, .ID_CAP1_CTX, .ID_CAP1_BIBS, .ID_CAP2_OPS, .ID_CAP2_HEATS, .ID_CAP2_MEET, .ID_CAP3_VFS,
      .ID_CAP3_TILES, .ID_STRAY_COUNT]
  else if blk = 0x61 then
    [.CONTR_COUNT_COUNT, .CONTR_LAST_BIB, .CONTR_LAST_STATUS, .CONTR_CHANGES_COUNT, .CONTR_ID_SERVICE,
      .CONTR_ID_BIB, .CONTR_BND999_US, .CONTR_COMPLETED_COUNT, .CONTR_OVER50_COUNT, .CONTR_OVER99_COUNT,
      .CONTR_OVER999_COUNT, .CONTR_NONCONF_COUNT, .CONTR_EXCUSED_COUNT, .CONTR_OVERWORK_COUNT]
  else if blk = 0x60 then
    [.BIBTAB_MAP_EPOCH, .BIBTAB_CHG_STATUS, .BIBTAB_CHG_BIB, .BIBTAB_STRAY_COUNT, .BIBTAB_REROUTED_COUNT,
      .BIB_STAT_GEN, .BIB_STAT_MAP, .BIB_STAT_PARTITION, .BIB_STAT_PORT, .BIB_STAT_KIND, .BIB_STAT_DRAIN,
      .BIB_STAT_PENDING, .BIB_STAT_STATE, .BIB_TARGET_TARGET, .BIB_RESETS_SW, .BIB_RESETS_HW,
      .BIB_TDSTART_TIME, .BIB_T0_TIME]
  else if blk = 0x101 then
    [.CW_STAT_DROPPED, .CW_STAT_NOCREDIT, .CW_STAT_ACCUM, .CW_STAT_FIFO]
  else if blk = 0x7 then
    [.ADM_RING_BASE_ADDR, .ADM_RING_CFG_EN, .ADM_RING_CFG_MOD_TIME, .ADM_RING_CFG_MOD_COUNT,
      .ADM_RING_CFG_VECTOR, .ADM_RING_CFG_SIZE_LOG2, .ADM_STAT_ALL, .ADM_WRITTEN_COUNT]
  else if blk = 0x32 then
    [.HEAT_ID_DEGREE, .HEAT_ID_CODE, .HEAT_ID_ROLE, .HEAT_ID_NUMBER, .HEAT_CAP_LIDS, .HEAT_EPOCH_APPLIED,
      .HEAT_EPOCH_FLOOR, .HEAT_LIVE_COUNT, .HEAT_DELETED_COUNT, .HEAT_LAGHOLD_COUNT, .HEAT_STALE_COUNT,
      .HEAT_BADREF_COUNT, .HEAT_REFUSED_COUNT, .HEAT_TIMING_RETAIN, .HEAT_TIMING_INTERVAL_US,
      .HEAT_TIMING2_HOLD_US, .HEAT_TIMING2_PUBLISH_US]
  else if blk = 0x20 then
    [.WLK_CFG_WIDTH, .WLK_CFG_BEAM, .WLK_CEIL_HOPS, .WLK_CEILE_EVALS, .WLK_DEF_HOPS, .WLK_DEF_MISS,
      .WLK_DEFE_EVALS, .WLK_SEED_COUNT, .WLK_ACTIVE_COUNT, .WLK_HOPS_COUNT, .WLK_EVALS_COUNT,
      .WLK_EXHAUST_COUNT, .WLK_FALLBACK_COUNT, .WLK_ESCALATE_COUNT, .WLK_SCANDENY_COUNT]
  else if blk = 0x21 then
    [.PACK_CFG_MAXQ, .PACK_CFG_WINDOW, .PACK_GROUPS_COUNT, .PACK_MERGED_COUNT, .PACK_FULL_COUNT,
      .PACK_OPEN_COUNT]
  else if blk = 0x23 then
    [.QCT_USE_TOTAL, .QCT_SHARED_INUSE, .QCT_WAITING_COUNT, .QCT_PART_RESERVE, .QCT_PART_INUSE]
  else if blk = 0x30 then
    [.STK_CFG_WDOG, .STK_CFG_SCANWIN, .STK_FENCE_ENGINES, .STK_ODECC_COUNT, .STK_SECDED_COUNT,
      .STK_UNCORR_COUNT, .STK_REFETCH_COUNT]
  else if blk = 0x31 then
    [.STR_STAT_OWNER, .STR_STAT_SLICE, .STR_STAT_SAVED, .STR_STAT_LIVE, .STR_STAT_LENT, .STR_STAT_FENCED,
      .STR_GROUPS_COUNT, .STR_RECORDS_COUNT, .STR_PAIRS_COUNT, .STR_RETURNS_COUNT, .STR_SUSPEND_COUNT,
      .STR_RETSTALL_COUNT, .STR_QRFECC_COUNT, .STR_MAP_OWNER]
  else if blk = 0x33 then
    [.SIDE_CFG_PART, .SIDE_CFG_PAUSEMAX, .SIDE_CFG_BUILD_L, .SIDE_CFG2_RATE, .SIDE_CFG2_WIN, .SIDE_POS_HEAD,
      .SIDE_POS_TAIL, .SIDE_RUI_COUNT, .SIDE_PAUSENO_COUNT, .SIDE_MERGED_COUNT, .SIDE_RECLAIMED_COUNT,
      .SIDE_DISCARDED_COUNT, .SIDE_LONGEST_NS, .SIDE_FULL_COUNT, .SIDE_RUIFULL_COUNT, .SIDE_NVBLK_COUNT,
      .SIDE_EMPTY_COUNT]
  else if blk = 0x22 then
    [.POD_STAT_FREE, .POD_STAT_LISTS, .POD_OFFERS_COUNT, .POD_KEPT_COUNT, .POD_DUP_COUNT, .POD_INVIS_COUNT,
      .POD_TIECUT_COUNT, .POD_TIEOVF_COUNT, .POD_SHORT_COUNT, .POD_SLOTWAIT_COUNT, .POD_NAN_COUNT,
      .POD_LATE_COUNT, .POD_MERGES_COUNT, .POD_ECC_COUNT]
  else if blk = 0x10 then
    [.IGRP_CFG_WDOG, .IGRP_STAT_FENCED, .IGRP_STAT_BUSY, .IGRP_PASSES_COUNT, .IGRP_CLEARS_COUNT,
      .IGRP_STOPS_COUNT, .IGRP_SAT_COUNT, .IGRP_NONFIN_COUNT, .IGRP_SCLAMP_COUNT, .IGRP_RESCECC_COUNT,
      .IGRP_RESCUNC_COUNT, .IGRP_MEASURES_COUNT, .IGRP_RESCUSE_ENTRIES]
  else if blk = 0x11 then
    [.ITILE_STAT_BIB, .ITILE_STAT_SLOT, .ITILE_STAT_LAYER, .ITILE_STAT_WAIT, .ITILE_STAT_BUSY,
      .ITILE_STAT_FENCED, .ITILE_BUSY_CYCLES, .ITILE_WAIT_CYCLES, .ITILE_ECC_COUNT, .ITILE_UNCORR_COUNT]
  else if blk = 0x12 then
    [.TSRAM_STAT_FREE, .TSRAM_IN_BYTES, .TSRAM_ECC_COUNT, .TSRAM_UNCORR_COUNT]
  else if blk = 0x62 then
    [.EMB_CFG_PART, .EMB_CFG_MIG_HIGH, .EMB_CFG_MIG_MAX, .EMB_CFG2_MIG_MIN, .EMB_MIG_DST, .EMB_MIG_SRC,
      .EMB_REDIR_COUNT, .EMB_STARTED_COUNT, .EMB_ABORTED_COUNT, .EMB_MIGDENY_COUNT, .EMB_TID_REPL,
      .EMB_TID_TABLE, .EMB_STEP_APPLIED, .EMB_LOAD_ROWS, .EMB_LEVEL_LEVEL, .EMB_LOOKUPS_COUNT,
      .EMB_DELTAS_COUNT, .EMB_STALE_COUNT, .EMB_TOSTEP_COUNT, .EMB_NVBLK_COUNT, .EMB_MIGOUT_COUNT,
      .EMB_MIGIN_COUNT]
  else if blk = 0x63 then
    [.POOL_CFG_LEASE_MS, .POOL_CFG_HANDOFF_MS, .POOL_SEGS_COUNT, .POOL_DRAM_BLOCKS, .POOL_SPILL_BLOCKS,
      .POOL_PUBLISH_COUNT, .POOL_READS_COUNT, .POOL_VCONFL_COUNT, .POOL_EXPIRED_COUNT, .POOL_NOTOWNER_COUNT,
      .POOL_GRANTS_COUNT, .POOL_OFFERTO_COUNT, .POOL_EVICTED_COUNT, .POOL_LINKS_COUNT, .POOL_APTUR_COUNT,
      .POOL_APTKEY_KEY, .POOL_APTCTL_LIVE, .POOL_APTCTL_EN]
  else if blk = 0x43 then
    [.TIER_CFG_FLOOR_GIB, .TIER_CFG_STEP_DRAM, .TIER_CFG_STEP_FLASH, .TIER_TOTAL_TILES, .TIER_WORK_TILES,
      .TIER_PINNED_TILES, .TIER_CACHED_TILES, .TIER_DIRTY_TILES, .TIER_HELD_TILES, .TIER_HITS_COUNT,
      .TIER_MISSES_COUNT, .TIER_EVICT_COUNT, .TIER_WB_COUNT, .TIER_PINDENY_COUNT, .TIER_NVBLK_COUNT,
      .TIER_SWEEPS_COUNT, .TIER_PINQ_GIB, .TIER_FLQ_GIB, .TIER_PUSE_TILES, .TIER_FUSE_TILES]
  else if blk = 0x24 then
    [.OPT_USE_COUNT, .OPT_PEAK_COUNT, .OPT_STALL_CYCLES, .OPT_ISSUED_COUNT]
  else if blk = 0x40 then
    [.SLED_STAT_STATE, .SLED_STAT_TARGETS, .SLED_STAT_MEDIA, .SLED_RAW_BYTES, .SLED_HEALTH_SPARE,
      .SLED_HEALTH_WEAR, .SLED_TEMP_CELSIUS, .SLED_CORR_COUNT, .SLED_RETRY_COUNT, .SLED_UNCORR_COUNT,
      .SLED_PFAIL_COUNT, .SLED_EFAIL_COUNT, .SLED_RETIRED_BLOCKS, .SLED_TEMPH_SECONDS]
  else if blk = 0x41 then
    [.FLC_CFG_MAXMTS, .FLC_STAT_CE, .FLC_STAT_MTS, .FLC_STAT_TRAINED, .FLC_READS_COUNT, .FLC_PROGS_COUNT,
      .FLC_ERASES_COUNT, .FLC_SUSPEND_COUNT, .FLC_QDEEP_COUNT, .FLC_RETRY_COUNT, .FLC_UNCORR_COUNT]
  else if blk = 0x42 then
    [.FTL_CFG_FOLD_PCT, .FTL_CFG_WAIT_PCT, .FTL_CFG_JRES_PCT, .FTL_VTHR_NVBAR, .FTL_VTHR_LOSS,
      .FTL_VTHR_FLOOR, .FTL_LOGICAL_TILES, .FTL_JOURNAL_BOUND_MIB, .FTL_JOURNAL_DIRTY_KIB,
      .FTL_SLC_CAP_TILES, .FTL_SLC_USED_TILES, .FTL_SUPPLY_FLUSH, .FTL_SUPPLY_HOLDLOW, .FTL_SUPPLY_NVLOW,
      .FTL_TBOUND_US, .FTL_LASTFLUSH_DURATION_US, .FTL_LASTFLUSH_RESULT, .FTL_NVBLK_COUNT,
      .FTL_NVENTRY_COUNT, .FTL_UNDEF_COUNT, .FTL_JWAIT_COUNT, .FTL_FOLDED_TILES, .FTL_RECLAIM_BLOCKS,
      .FTL_DISCARD_TILES]
  else if blk = 0x50 then
    [.TM_INFO_SUBS, .TM_CHANGES_COUNT, .TM_OCFG_OVERHEAD, .TM_OCFG_PROMO, .TM_ORATE_MBPS, .TM_GCL_CUR,
      .TM_GCL_COUNT, .TM_OLAT_NS, .TM_CTLBYTES_COUNT, .TM_CONBYTES_COUNT, .TM_URGBYTES_COUNT,
      .TM_OPNBYTES_COUNT, .TM_APTBYTES_COUNT, .TM_NOFIT_COUNT, .TM_PROMOTED_COUNT, .TM_PBUCKET_NS,
      .TM_CTLWAIT_COUNT, .TM_SUBTOK_BYTES, .TM_SVCTOK0_BYTES, .TM_SVCTOK1_BYTES, .TM_SVCTOK2_BYTES,
      .TM_SVCTOK3_BYTES, .TM_SVCTOK4_BYTES, .TM_SVCTOK5_BYTES] ++
    [.TM_SVCTOK6_BYTES, .TM_SVCTOK7_BYTES, .TM_SUBST_URGENT, .TM_SUBST_CONTR, .TM_SUBSENT_COUNT,
      .TM_SUBPROM_COUNT]
  else if blk = 0x51 then
    [.ETH_CFG_MAXFRAME, .ETH_CFG_MODE, .ETH_LINK_UP, .ETH_LINK_LOCK, .ETH_MAC_ADDR, .ETH_TXFRAMES_COUNT,
      .ETH_RXFRAMES_COUNT, .ETH_FECCORR_COUNT, .ETH_FECUNC_COUNT, .ETH_PAUSE_COUNT, .ETH_CNPRX_COUNT,
      .ETH_CNPTX_COUNT, .ETH_LAT_NS, .ETH_DROPS_COUNT]
  else if blk = 0x52 then
    [.PTP_TIME_NS, .PTP_CFG_PROFILE, .PTP_CFG_PORT, .PTP_CFG_MASTER, .PTP_CFG_DOMAIN, .PTP_STAT_LOCKED,
      .PTP_STAT_HOLDOVER, .PTP_STAT_MASTER, .PTP_STAT_PORT, .PTP_OFFSET_NS, .PTP_FREQ_PPB, .PTP_UNLOCK_COUNT,
      .PTP_STEPS_COUNT]
  else if blk = 0x53 then
    [.RLY_ID_COUNT, .RLY_ID_SLOT, .RLY_ID_ANCHOR, .RLY_PORT_UDP, .RLY_EPOCH_BATON, .RLY_EPOCH_RESTART,
      .RLY_STAT_HOLDER, .RLY_STAT_STATE, .RLY_INTR_NS, .RLY_INTRPREV_NS, .RLY_LOST_COUNT,
      .RLY_TAKEOVER_COUNT, .RLY_HEDGES_COUNT, .RLY_HEDGEWON_COUNT, .RLY_STALE_COUNT, .RLY_RETX_COUNT,
      .RLY_BADFRAME_COUNT, .RLY_LASTTO_US, .RLY_NOCOPY_COUNT, .RLY_MEM_ELEVEL, .RLY_MEM_SLEVEL,
      .RLY_MEM_STATE, .RLY_MEMINTR_US, .RLY_MEMLAST_TIME]
  else if blk = 0x3 then
    [.REF_CFG_ERRCLASS, .REF_CFG_NOTIFY, .REF_CFG_VEC, .REF_CFG_GRACE_US, .REF_STAT_FENCED, .REF_STAT_HIGH,
      .REF_STAT_OPEN, .REF_PEND_PEND, .REF_ESCAL_COUNT, .REF_REPLACED_COUNT, .REF_MERGED_COUNT,
      .REF_ERRORS_COUNT, .REF_ADDR_ADDR, .REF_TIME_NS, .REF_MASTER_TYPE, .REF_MASTER_INST, .REF_MASTER_BIBV,
      .REF_MASTER_BIB, .REF_MASTER_GEN, .REF_REC_COUNT, .REF_REC_SOURCE, .REF_REC_ACCESS, .REF_REC_CLASS,
      .REF_REC_STATE] ++
    [.REF_REC_STEPS]
  else if blk = 0x65 then
    [.PANEL_CFG_ID, .PANEL_CFG_LOCK, .PANEL_CMD_CANCEL, .PANEL_CMD_REMOVE, .PANEL_SLED_SEQ,
      .PANEL_SLED_PRSNT, .PANEL_SLED_PWREN, .PANEL_SLED_ATTN, .PANEL_SLED_PWRLED, .PANEL_SLED_HELD,
      .PANEL_PRESS_TIME, .PANEL_IGNORED_COUNT, .PANEL_SURPRISE_COUNT, .PANEL_CANCELS_COUNT]
  else if blk = 0x102 then
    [.BOOT_STAT_WDOGS, .BOOT_STAT_ERROR, .BOOT_STAT_CAUSE, .BOOT_STAT_MODE, .BOOT_STAT_PHASE,
      .RCV_ADDR_ADDR, .RCV_LEN_BYTES, .RCV_CMD_STORE, .RCV_CMD_GO, .RCV_STAT_STATE]
  else if blk = 0x5 then
    [.PWR_STATE_STATE, .PWR_STRAP_TEST_EN, .PWR_STRAP_SMB_ADDR0, .PWR_STRAP_XSPI_QUAD, .PWR_STRAP_BOOT_MODE,
      .PWR_RSTCAUSE_CAUSE, .PWR_RST_KEY, .PWR_SENSE_HOLD, .PWR_SENSE_MAIN, .PWR_CLK_TIMEBK, .PWR_CLK_STK,
      .PWR_CLK_ETH, .PWR_CLK_PCIE, .PWR_CLK_FLASH, .PWR_CLK_STRIDE, .PWR_CLK_TRACK, .PWR_CLK_CORE,
      .PWR_CLK_MGMT, .PWR_POWER_WATTS, .PWR_TEMP_CELSIUS, .PWR_BOOTMS_MS]
  else if blk = 0x4 then
    [.MEAS_COUNT_ENTRIES, .MEAS_DROPPED_COUNT, .MEAS_FWSECVER_SECVER, .MEAS_FWFLOOR_FLOOR, .MEAS_KEYS_FWKEY,
      .MEAS_KEYS_ROMREV, .MEAS_KEYS_SLOTS, .MEAS_RAISES_FW, .MEAS_RAISES_CI, .MEAS_IDKEY_WORD,
      .MEAS_RUN_WORD, .MEAS_FWDIG_WORD]
  else []

/-- A field's number, for its place in the store of registers. -/
def Fld.num (f : Fld) : Nat := f.ctorIdx

/-- A field's greatest value plus one. -/
def Fld.top (f : Fld) : Nat := 2 ^ (f.info.hi + 1 - f.info.lo)

/-- The place of a field of block instance `inst` and record `rec` in the store of registers. -/
def Fld.key (f : Fld) (inst rec : Nat) : Nat := (f.num * 65536 + inst % 65536) * 65536 + rec % 65536

/-- The record whose register stands at an offset, if the field has one there. -/
def Fld.recAt (f : Fld) (off : Nat) : Option Nat :=
  let i := f.info
  if off < i.off then none
  else if i.stride = 0 then (if off = i.off then some 0 else none)
  else if (off - i.off) % i.stride = 0 && (off - i.off) / i.stride < i.count then some ((off - i.off) / i.stride)
  else none

end Sys2Proof
end

