-- ==== Sys2Proof/Machine/Base.lean ====
section
/-!
DEFINITION. The parts of the state that every family uses: fuses, ports, contracts, requests, windows, rings, bibs,
Referee records, frames, Pacers, outlets.
-/
namespace Sys2Proof.Machine

/-- Where DMA, completions and interrupts of a request go: a PCIe function (0 is PF0, n is VF n) or the queue pair of
a fabric-bound bib (R115, R119). -/
inductive Dest where
  | pcie (port fn : Nat)
  | fab (bib eth : Nat)
deriving DecidableEq, Repr

/-- What leaves the node. -/
inductive Emit where
  /-- Posted write, or RDMA WRITE (R148, Table 18.2). -/
  | dmaWrite (dest : Dest) (addr : Nat) (data : Bytes)
  /-- RDMA WRITE with Immediate of an entry that signals an interrupt (R442). -/
  | dmaWriteImm (dest : Dest) (addr : Nat) (data : Bytes) (imm : Nat)
  /-- DMA read or RDMA READ (R160), answered by DMA_READ_DONE with its number. -/
  | dmaRead (dest : Dest) (id addr len : Nat)
  /-- MSI-X message (R152, R512). -/
  | msix (port fn vec : Nat)
  /-- Value returned to a host read (R15, R76, R379). -/
  | readData (port : Nat) (data : Bytes)
  /-- Unsupported Request (R73, R379). -/
  | unsupported (port : Nat)
  /-- Relay frame (Table 19.3): kind, destination slot, header fields, payload. -/
  | relay (kind dst : Nat) (h : RHdr) (body : Bytes)
  /-- NAK Invalid Request, CNP, acknowledged or repeated RoCEv2 packet (R438 to R440). -/
  | roceNak (bib : Nat)
  | roceCnp (bib : Nat)
  | roceRetransmit (bib : Nat)
  /-- Reply of Cerone to ARP, Neighbor Discovery or ICMP echo (R437). -/
  | neighborReply (port : Nat) (kind : NeighborKind)
  /-- PTP message of this clock (R443). -/
  | ptp (port : Nat) (asMaster : Bool)
  /-- MCTP reply (R551). -/
  | mctp (data : Bytes)
  /-- Value shifted out on TDO (R550). -/
  | tdo (value : Nat)
  /-- AER report (Table 06.10). -/
  | aer (port : Nat)
deriving DecidableEq, Repr

/-- R58, Table 22.17: an owner key slot; state 0 unprogrammed, 1 programmed, 2 revoked. -/
structure OwnerSlot where
  state : Nat := 0
  key : Bytes := []
deriving DecidableEq, Repr

/-- What the fuses hold (R58, R59, R94, R541, R546, R549, R462). -/
structure Fuses where
  slots : List OwnerSlot := [OwnerSlot.mk 0 [], OwnerSlot.mk 0 [], OwnerSlot.mk 0 [], OwnerSlot.mk 0 []]
  ciFloor : Nat := 0
  fwFloor : Nat := 0
  ciRaises : Nat := 32
  fwRaises : Nat := 32
  romRevoked : Nat := 0
  secret : Bytes := []
  fingerprint : Bytes := []
  serial : Nat := 0
  step : Nat := 0xA0
  mac0 : Nat := 0
  mac1 : Nat := 0
deriving DecidableEq, Repr

/-- What the boot ROM holds (R94, R541). -/
structure Rom where
  version : Nat := 0
  key0 : Bytes := []
  key1 : Bytes := []
deriving DecidableEq, Repr

/-- R152, R159: one function's MSI-X state; `table` the addresses and data that the host wrote, by double word of the table
(Table 03.1). -/
structure Msix where
  enabled : Bool := false
  table : Tab Nat := []
  unmasked : List Nat := []
  pendingVecs : List Nat := []
deriving DecidableEq, Repr

/-- R159: a PCIe port. Rate in GT/s; `loadRate`, `loadWidth` are those trained at the last load (R449); `apt` is APT_EN as
sampled, and whether it has been (R73); `answersAt` the split time from which configuration requests are answered (R539);
`bars` the BAR double words written, those of PF0 first, then the VF BARs; `timeoutCode` the completion timeout range
that the host set, 0 the default. -/
structure Port where
  up : Bool := false
  rate : Nat := 0
  width : Nat := 0
  loadRate : Nat := 0
  loadWidth : Nat := 0
  degraded : Bool := false
  perst : Bool := false
  numVfs : Nat := 0
  vfEnable : Bool := false
  mps : Nat := 128
  mrrs : Nat := 512
  d3 : List Nat := []
  apt : Bool := false
  sampled : Bool := false
  answersAt : Nat := 0
  ari : Bool := false
  ecrcGen : Bool := false
  ecrcCheck : Bool := false
  timeoutCode : Nat := 0
  bars : Tab Nat := []
  msix : Tab Msix := []
deriving DecidableEq, Repr

/-- R100, R101: a contract in force, with its bound, its conformance bucket in 1/10^9 tokens (R97) and the split time
at which the bucket was last brought up to date; `uid` tells the contracts apart that a record held in turn. -/
structure Contract where
  bib : Nat
  svc : Nat
  scan : Bool
  remote : Bool
  rate : Nat
  burst : Nat
  p50 : Nat
  p99 : Nat
  p999 : Nat
  miss50 : Nat
  miss99 : Nat
  miss999 : Nat
  cost : Nat
  outBytes : Nat
  remoteUs : Nat
  bound : Nat := 0
  tokens : Nat := 0
  at_ : Nat := 0
  uid : Nat := 0
deriving DecidableEq, Repr

/-- What a request carries of the contract under which it landed (R97, R109, R111). -/
structure Judged where
  record : Nat
  uid : Nat
  conforming : Bool
  p50 : Nat
  p99 : Nat
  p999 : Nat
  miss50 : Nat
  miss99 : Nat
  miss999 : Nat
deriving DecidableEq, Repr

/-- R32, R141 to R153: a descriptor that the node has taken. `waiting` in its FIFO; `ended` once its completion is
built. `ctx` 0 none, 1 of the partition's reserve, 2 of the shared remainder. `loader` is the loader's state as the
descriptor landed (R110, R122). -/
structure Req where
  desc : Bytes
  win : Nat
  bib : Option Nat
  gen : Nat
  landed : Nat
  waiting : Bool := true
  ended : Bool := false
  admitted : Nat := 0
  ctx : Nat := 0
  part : Nat := 0
  judged : Option Judged := none
  excused : Bool := false
  joined : Bool := false
  stage : Nat := 0
  dmas : Nat := 0
  fails : List Nat := []
  pre : List (Nat × Nat) := []
  flags : Nat := 0
  misses : Nat := 0
  epoch : Nat := 0
  urgent : Bool := false
  sent : Nat := 0
  buf : Bytes := []
  result : Nat := 0
  mute : Bool := false
  loader : Nat := 5
  aux : List Nat := []
deriving DecidableEq, Repr

/-- R138, R140, R144: a service window: descriptors waiting (request numbers, oldest first) and CW_STAT's counters. -/
structure Win where
  fifo : List Nat := []
  accum : Nat := 0
  nocredit : Nat := 0
  dropped : Nat := 0
deriving DecidableEq, Repr

/-- A ring record: bytes 0x10 to 0x2F of a RING_SET descriptor (Table 06.7); `ok` says that its fields are in range (R155,
R156). -/
structure RingRec where
  bib : Nat
  ring : Nat
  vec : Nat
  size : Nat
  en : Bool
  modCount : Nat
  base : Nat
  modTime : Nat
  ok : Bool
deriving DecidableEq, Repr

/-- R146: a completion before its entry is written. `config` is the ring record that takes effect once the entry of a RING_SET
of its own ring is written (R156). -/
structure Cpl where
  win : Nat
  bib : Option Nat
  ring : Nat
  tag : Nat
  gen : Nat
  opcode : Nat
  irq : Bool
  landed : Nat
  status : Nat
  flags : Nat
  result : Nat
  req : Option Nat := none
  judged : Option Judged := none
  excused : Bool := false
  misses : Nat := 0
  credits : Nat := 0
  rerouted : Bool := false
  config : Option RingRec := none
deriving DecidableEq, Repr

/-- R152: the moderation of a configuration of a ring that a later one has replaced, for the entries that were written
under it (R156): `dest` is where they went. -/
structure RingMod where
  vec : Nat
  modCount : Nat
  modTime : Nat
  unsig : Nat
  firstAt : Nat
  lastAddr : Nat
  dest : Dest
deriving DecidableEq, Repr

/-- R148 to R152: a completion ring; `wait` the completions that wait for a free entry, each with its split time. `unsig`,
`firstAt`, `lastAddr`, `lastDest`: the entries that have left since the last interrupt, when the first of them did, and where
the last one went. `setup` numbers the configurations that the ring has had; `past` holds the moderation of earlier ones. -/
structure Ring where
  en : Bool := false
  base : Nat := 0
  size : Nat := 6
  vec : Nat := 0
  modCount : Nat := 1
  modTime : Nat := 0
  written : Nat := 0
  head : Nat := 0
  unsig : Nat := 0
  firstAt : Nat := 0
  lastAddr : Nat := 0
  lastDest : Dest := .pcie 0 0
  wait : List (Nat × Cpl) := []
  setup : Nat := 0
  past : Tab RingMod := []
deriving DecidableEq, Repr

/-- R160: one read request of a request's DMA: the request that waits, the place of its buffer among those that the request
reads, address, length; `buf` the number of the buffer that it is a piece of, at offset `off`; `sent` once its frame has
left. -/
structure Dma where
  req : Nat
  slot : Nat
  addr : Nat
  len : Nat
  bib : Option Nat
  port : Nat
  buf : Nat := 0
  off : Nat := 0
  sent : Bool := false
deriving DecidableEq, Repr

/-- R117, Table 05.1: a binding. -/
structure Binding where
  kind : Nat := 0
  port : Nat := 0
  vf : Nat := 0
  qpn : Nat := 0
  gid : Nat := 0
deriving DecidableEq, Repr

/-- R113, R121, R135: a bib. State code of Table 05.2; `pending` 0 none, 1 ACTIVE, 2 DISABLED; `old` the binding that
a composition change left, while it drains, with its key record; `path` changes at each change of binding, and `prev` is the
binding of the path before. -/
structure Bib where
  state : Nat := 0
  pending : Nat := 0
  gen : Nat := 0
  map : Nat := 0
  part : Nat := 0
  bind : Binding := Binding.mk 0 0 0 0 0
  imgOutlet : Option Nat := none
  old : Option Binding := none
  prev : Binding := Binding.mk 0 0 0 0 0
  path : Nat := 0
  t0 : Nat := 0
  tdStart : Nat := 0
  tdGrace : Bool := false
  tdWait : List Nat := []
  sw : Nat := 0
  hw : Nat := 0
  selfReset : Bool := false
  keys : Option Bytes := none
  oldKeys : Option Bytes := none
  qpReady : Bool := false
  cnpAt : Option Nat := none
deriving DecidableEq, Repr

/-- R502, Table 20.7: a Referee record that is not FREE. State 1 OPEN, 2 ACKED, 3 RESOLVED. `since` is t_c of R506. -/
structure RefRec where
  addr : Nat
  time : Nat
  utype : Nat
  uinst : Nat
  bib : Option Nat
  gen : Nat
  count : Nat
  source : Nat
  access : Nat
  cls : Nat
  state : Nat
  steps : Nat
  since : Nat
  resetDone : Bool := false
deriving DecidableEq, Repr

/-- R450, R451: a frame in a queue of the traffic manager. `len` its counted length on the outlet, `charge` what the
Pacers are charged, `since` the split time at which it became head of its queue; `ring` the ring of a completion entry, under
its configuration `setup`. -/
structure Frame where
  len : Nat
  charge : Nat
  lane : Nat := 0
  emits : List Emit := []
  entry : Option Cpl := none
  slotAddr : Nat := 0
  phase : Nat := 0
  dest : Dest := .pcie 0 0
  req : Option Nat := none
  reads : Nat := 0
  ring : Option Nat := none
  setup : Nat := 0
  since : Nat := 0
  noFit : Bool := false
  urgent : Bool := false
deriving DecidableEq, Repr

/-- R452, R453: a Pacer. Tokens and remainder in 1/65,536 B; `next` the change that the next refill applies. -/
structure Pacer where
  rate : Nat := 0
  depth : Nat := 0
  interval : Nat := 0
  tokens : Nat := 0
  rem : Nat := 0
  refilled : Nat := 0
  next : Option (Nat × Nat × Nat) := none
  changed : Nat := 0
deriving DecidableEq, Repr

/-- R454: a gate control list entry. -/
structure Gate where
  interval : Nat
  mask : Nat
deriving DecidableEq, Repr

/-- R459, Table 18.7: an outlet. The promotion bucket in 1/1,000 ns (R457). -/
structure Outlet where
  overhead : Int := 0
  promoShare : Nat := 0
  maxFrame : Nat := 4096
  gates : List Gate := []
  base : Nat := 0
  promoAge : List Nat := []
  mode : Nat := 0
  vid : Nat := 0
  pcp : Nat := 0
  dscpRoce : Nat := 0
  dscpRelay : Nat := 0
  prefixLen : Nat := 0
  addr0 : Nat := 0
  addr1 : Nat := 0
  router : Nat := 0
  relay : Nat × Nat × Nat := (0, 0, 0)
  rate : Nat := 0
  bucket : Nat := 0
  bucketAt : Nat := 0
  busy0 : Nat := 0
  busy1 : Nat := 0
  ctl : List Frame := []
  ctlTokens : Nat := 1073741824
  ctlAt : Nat := 0
  ctlRem : Nat := 0
  apt : List Frame := []
deriving DecidableEq, Repr

end Sys2Proof.Machine
end

