-- ==== Sys2Proof/Machine/Quant.lean ====
section
/-!
DEFINITION. Element formats, FP32 arithmetic, scales, the Measure pass, narrowing and the rescale stage (spec file 12, R281
to R284; spec file 13). Values are exact rationals; rounding happens where Table 13.1 says and nowhere else.
-/
namespace Sys2Proof

/-! ## Exact values -/

/-- A value of a number format: ±n/d with d positive, an infinity, or a NaN. A zero keeps its sign. -/
inductive Num where
  | fin (neg : Bool) (n d : Nat)
  | inf (neg : Bool)
  | nan
deriving DecidableEq, Repr

/-- ±m × 2^e. -/
def Num.dyad (neg : Bool) (m : Nat) (e : Int) : Num :=
  if 0 ≤ e then .fin neg (m * 2 ^ e.toNat) 1 else .fin neg m (2 ^ (-e).toNat)

/-- An integer as a value. -/
def Num.ofInt (i : Int) : Num := .fin (decide (i < 0)) i.natAbs 1

def Num.neg : Num → Num
  | .fin s n d => .fin (!s) n d
  | .inf s => .inf (!s)
  | .nan => .nan

def Num.finite : Num → Bool
  | .fin _ _ _ => true
  | _ => false

/-- The numerator with its sign, and the denominator; 0 for what is not finite. -/
def Num.num : Num → Int
  | .fin s n _ => if s then -(n : Int) else n
  | _ => 0
def Num.den : Num → Nat
  | .fin _ _ d => max 1 d
  | _ => 1

def Num.isZero (a : Num) : Bool := a.finite && a.num == 0
def Num.negative : Num → Bool
  | .fin s _ _ => s
  | .inf s => s
  | .nan => false

/-- The order of finite values. -/
def Num.lt (a b : Num) : Bool := a.num * b.den < b.num * a.den

/-- Whether a value is above 0. -/
def Num.positive : Num → Bool
  | .fin s n _ => !s && n != 0
  | .inf s => !s
  | .nan => false

/-- An exact sum; the sign of a zero sum is plus unless both parts are negative zeros. -/
def Num.add (a b : Num) : Num :=
  match a, b with
  | .nan, _ => .nan
  | _, .nan => .nan
  | .inf s, .inf t => if s == t then .inf s else .nan
  | .inf s, _ => .inf s
  | _, .inf t => .inf t
  | .fin s _ _, .fin t _ _ =>
    let n := a.num * b.den + b.num * a.den
    if n = 0 then .fin (s && t) 0 1 else .fin (decide (n < 0)) n.natAbs (a.den * b.den)

/-- An exact product. -/
def Num.mul (a b : Num) : Num :=
  match a, b with
  | .nan, _ => .nan
  | _, .nan => .nan
  | .inf s, x => if x.isZero then .nan else .inf (s != x.negative)
  | x, .inf s => if x.isZero then .nan else .inf (s != x.negative)
  | .fin s n d, .fin t m e => .fin (s != t) (n * m) (d * e)

/-- An exact quotient of finite values by a positive one. -/
def Num.div (a b : Num) : Num :=
  match a, b with
  | .fin s n d, .fin t m e => if m = 0 then .nan else .fin (s != t) (n * e) (d * m)
  | .inf s, .fin t _ _ => .inf (s != t)
  | _, _ => .nan

/-! ## Formats (R281, Table 12.1; Table 13.2) -/

/-- Bits of an element format. -/
def fmtBits (f : Nat) : Nat :=
  match f with
  | 0 => 1 | 1 => 2 | 2 => 4 | 3 => 4 | 4 => 8 | 5 => 8 | 6 => 4 | 7 => 6 | 8 => 8 | 9 => 8 | 10 => 16 | 11 => 16 | _ => 32

/-- The layout of a floating-point format: exponent bits, mantissa bits, bias, and its special values: 0 none, 1 NaN alone,
2 as IEEE 754. -/
structure FloatFmt where
  eb : Nat
  mb : Nat
  bias : Nat
  special : Nat
deriving DecidableEq, Repr

def floatFmt (f : Nat) : Option FloatFmt :=
  match f with
  | 6 => some ⟨2, 1, 1, 0⟩
  | 7 => some ⟨3, 2, 3, 0⟩
  | 8 => some ⟨4, 3, 7, 1⟩
  | 9 => some ⟨5, 2, 15, 2⟩
  | 10 => some ⟨8, 7, 127, 2⟩
  | 11 => some ⟨5, 10, 15, 2⟩
  | 12 => some ⟨8, 23, 127, 2⟩
  | _ => none

def fp32 : FloatFmt := ⟨8, 23, 127, 2⟩

/-- The range of an integer format. -/
def intRange (f : Nat) : Option (Int × Int) :=
  match f with
  | 1 => some (-2, 1)
  | 2 => some (-8, 7)
  | 3 => some (0, 15)
  | 4 => some (-128, 127)
  | 5 => some (0, 255)
  | _ => none

/-- The value of a code of a floating-point format. -/
def FloatFmt.value (x : FloatFmt) (c : Nat) : Num :=
  let s := bit c (x.eb + x.mb)
  let e := bits c (x.eb + x.mb - 1) x.mb
  let m := bits c (x.mb - 1) 0
  if x.special = 2 && e = 2 ^ x.eb - 1 then (if m = 0 then .inf s else .nan)
  else if x.special = 1 && e = 2 ^ x.eb - 1 && m = 2 ^ x.mb - 1 then .nan
  else if e = 0 then Num.dyad s m (1 - (x.bias : Int) - x.mb)
  else Num.dyad s (2 ^ x.mb + m) ((e : Int) - x.bias - x.mb)

/-- The largest finite code of a floating-point format. -/
def FloatFmt.top (x : FloatFmt) : Nat :=
  if x.special = 2 then (2 ^ x.eb - 1) * 2 ^ x.mb - 1
  else if x.special = 1 then 2 ^ (x.eb + x.mb) - 2
  else 2 ^ (x.eb + x.mb) - 1

/-- The value of an element (Table 12.1). -/
def elemValue (f c : Nat) : Num :=
  match floatFmt f with
  | some x => x.value c
  | none =>
    match f with
    | 0 => Num.ofInt (if c = 0 then -1 else 1)
    | 3 => Num.ofInt c
    | 5 => Num.ofInt c
    | _ => Num.ofInt (signed (fmtBits f) c)

/-- Element i of packed elements (R281). -/
def elemAt (f : Nat) (b : Bytes) (i : Nat) : Nat :=
  let n := fmtBits f
  let o := i * n
  bits (un 5 b (o / 8)) (o % 8 + n - 1) (o % 8)

/-- Elements packed (R281). -/
def packElems (f : Nat) (l : List Nat) : Bytes :=
  let n := fmtBits f
  let v := l.foldr (fun c acc => c % 2 ^ n + acc * 2 ^ n) 0
  le (ceilDiv (l.length * n) 8) v

/-- Bytes of n packed elements. -/
def elemBytes (f n : Nat) : Nat := ceilDiv (fmtBits f * n) 8

/-! ## Rounding to a floating-point format -/

/-- The floor of log2(n/d), n and d positive. -/
def log2Ratio (n d : Nat) : Int :=
  let e : Int := (log2 n : Int) - log2 d
  let ge (k : Int) : Bool := if 0 ≤ k then d * 2 ^ k.toNat ≤ n else d ≤ n * 2 ^ (-k).toNat
  if ge (e + 1) then e + 1 else if ge e then e else e - 1

/-- The unit in the last place at a magnitude, as an exponent: subnormals share the smallest. -/
def FloatFmt.ulpExp (x : FloatFmt) (n d : Nat) : Int := max (log2Ratio n d - x.mb) (1 - (x.bias : Int) - x.mb)

/-- A magnitude in units of 2^u: the whole units, and the remainder over the divisor. -/
def inUnits (n d : Nat) (u : Int) : Nat × Nat × Nat :=
  let (a, b) := if 0 ≤ u then (n, d * 2 ^ u.toNat) else (n * 2 ^ (-u).toNat, d)
  (a / b, a % b, b)

/-- R330: the choice among the adjacent whole numbers: nearest even, or by a 16-bit random value. -/
def pickUnit (k r b : Nat) (u : Option Nat) : Nat :=
  match u with
  | none => if 2 * r < b || (2 * r = b && k % 2 = 0) then k else k + 1
  | some v => if r = 0 then k else if v < 65536 * r / b then k + 1 else k

/-- The code of k units of 2^u; above the largest finite value, none. -/
def FloatFmt.encode (x : FloatFmt) (k : Nat) (u : Int) : Option Nat :=
  let (k, u) := if k = 2 ^ (x.mb + 1) then (2 ^ x.mb, u + 1) else (k, u)
  if k < 2 ^ x.mb then some k
  else
    let e := (u + x.mb + x.bias).toNat
    let c := e * 2 ^ x.mb + (k - 2 ^ x.mb)
    if c ≤ x.top then some c else none

/-- A magnitude rounded to a format; none beyond the largest finite value. -/
def FloatFmt.round (x : FloatFmt) (n d : Nat) (rnd : Option Nat) : Option Nat :=
  if n = 0 then some 0
  else
    let u := x.ulpExp n d
    let (k, r, b) := inUnits n d u
    x.encode (pickUnit k r b rnd) u

/-- The sign bit of a format. -/
def FloatFmt.signBit (x : FloatFmt) (s : Bool) : Nat := if s then 2 ^ (x.eb + x.mb) else 0

/-- A quiet NaN and the infinities of FP32. -/
def fp32NaN : Nat := 0x7FC00000
def fp32Inf (s : Bool) : Nat := 0x7F800000 + fp32.signBit s

/-- R284: a value rounded to FP32, nearest even; overflow gives an infinity as IEEE 754 has it. -/
def toFp32 (v : Num) : Nat :=
  match v with
  | .nan => fp32NaN
  | .inf s => fp32Inf s
  | .fin s n d => match fp32.round n d none with
    | some c => c + fp32.signBit s
    | none => fp32Inf s

/-- The value of an FP32 word. -/
def fp32Value (c : Nat) : Num := fp32.value c

/-- FP32 addition, multiplication, division and fused multiply-add, each rounded once (R284, R323). -/
def fp32Add (a b : Nat) : Nat := toFp32 ((fp32Value a).add (fp32Value b))
def fp32Mul (a b : Nat) : Nat := toFp32 ((fp32Value a).mul (fp32Value b))
def fp32Div (a b : Nat) : Nat := toFp32 ((fp32Value a).div (fp32Value b))
def fp32Fma (a b c : Nat) : Nat := toFp32 (((fp32Value a).mul (fp32Value b)).add (fp32Value c))

/-! ## Narrowing (R330, R332, Table 13.5): the code, and whether the element counts as saturated -/

/-- The whole number nearest to a value, and whether it saturates at the limits with a zero point added (R320). -/
def narrowInt (lo hi zp : Int) (v : Num) (rnd : Option Nat) : Int × Bool :=
  match v with
  | .nan => (0, true)
  | .inf s => (if s then lo else hi, true)
  | .fin s n d =>
    let (k, r, b) := inUnits n d 0
    let m := pickUnit k r b rnd
    let i := (if s then -(m : Int) else m) + zp
    if i < lo then (lo, true) else if hi < i then (hi, true) else (i, false)

/-- A value narrowed to a floating-point format. -/
def FloatFmt.narrow (x : FloatFmt) (v : Num) (rnd : Option Nat) : Nat × Bool :=
  match v with
  | .nan =>
    match x.special with
    | 0 => (0, true)
    | 1 => (2 ^ (x.eb + x.mb) - 1, false)
    | _ => ((2 ^ x.eb - 1) * 2 ^ x.mb + 2 ^ (x.mb - 1), false)
  | .inf s => if x.special = 2 then ((2 ^ x.eb - 1) * 2 ^ x.mb + x.signBit s, false) else (x.top + x.signBit s, true)
  | .fin s n d =>
    match x.round n d rnd with
    | some c => if c = 0 && x.special = 0 then (0, false) else (c + x.signBit s, false)
    | none => (x.top + x.signBit s, true)

/-- Narrowing to an element format, a zero point added to an integer target. -/
def narrow (f : Nat) (zp : Int) (v : Num) (rnd : Option Nat) : Nat × Bool :=
  match floatFmt f with
  | some x => x.narrow v rnd
  | none =>
    match intRange f with
    | some (lo, hi) => let (i, s) := narrowInt lo hi zp v rnd; (unsigned (fmtBits f) i, s)
    | none => (ofBool v.positive, false)

/-! ## Scales (R314, R325) -/

/-- The value of a scale as it is stored (Table 13.2). -/
def scaleValue (f c : Nat) : Num :=
  match f with
  | 0 => fp32.value c
  | 1 => (⟨8, 7, 127, 2⟩ : FloatFmt).value c
  | 2 => (⟨4, 3, 7, 1⟩ : FloatFmt).value c
  | 3 => if c % 256 = 255 then .nan else Num.dyad false 1 ((c % 256 : Nat) - 127)
  | _ => Num.ofInt 1

/-- Bytes of a scale. -/
def scaleBytes (f : Nat) : Nat := match f with | 0 => 4 | 1 => 2 | 2 => 1 | 3 => 1 | _ => 0

/-- The smallest whole number of units at or above a magnitude. -/
def FloatFmt.roundUp (x : FloatFmt) (n d : Nat) : Option Nat :=
  if n = 0 then some 0
  else
    let u := x.ulpExp n d
    let (k, r, _) := inUnits n d u
    x.encode (if r = 0 then k else k + 1) u

/-- R325 step 4: a positive value converted to a scale format, toward plus infinity, kept in the format's range; whether it
was clamped at the largest value. -/
def toScale (f : Nat) (v : Num) : Nat × Bool :=
  let flt (x : FloatFmt) : Nat × Bool :=
    match v with
    | .fin _ n d => match x.roundUp n d with
      | some c => (max 1 c, false)
      | none => (x.top, true)
    | _ => (x.top, true)
  match f with
  | 0 => flt fp32
  | 1 => flt ⟨8, 7, 127, 2⟩
  | 2 => flt ⟨4, 3, 7, 1⟩
  | 3 =>
    match v with
    | .fin _ n d =>
      if n = 0 then (0, false)
      else
        let e := log2Ratio n d
        let exact : Bool := if 0 ≤ e then n = d * 2 ^ e.toNat else d = n * 2 ^ (-e).toNat
        let e := if exact then e else e + 1
        if e < -127 then (0, false) else if 127 < e then (254, true) else ((e + 127).toNat, false)
    | _ => (254, true)
  | _ => (0, false)

/-- The scale 1.0 in a format. -/
def scaleOne (f : Nat) : Nat := match f with | 0 => 0x3F800000 | 1 => 0x3F80 | 2 => 0x38 | 3 => 127 | _ => 0

/-- R325 step 2: the largest positive finite value of an element format. -/
def topValue (f : Nat) : Num :=
  match floatFmt f with
  | some x => x.value x.top
  | none => match intRange f with
    | some (_, hi) => Num.ofInt hi
    | none => Num.ofInt 1

/-- The magnitude of a value. -/
def Num.abs : Num → Num
  | .fin _ n d => .fin false n d
  | .inf _ => .inf false
  | .nan => .nan

def Num.max (a b : Num) : Num := if a.lt b then b else a
def Num.min (a b : Num) : Num := if b.lt a then b else a

/-- What the Measure pass finds of one set (R325 to R327): the scale as stored, the zero point, whether the scale was
clamped, the non-finite elements. -/
structure Measured where
  scale : Nat
  zp : Nat
  clamped : Bool
  nonfin : Nat
deriving DecidableEq, Repr

/-- What a tile finds in its part of a set (R325 to R328): the largest magnitude, the limits with 0 among them, the
non-finite elements. -/
structure SetPart where
  a : Num := .fin false 0 1
  lo : Num := .fin false 0 1
  hi : Num := .fin false 0 1
  nonfin : Nat := 0
deriving DecidableEq, Repr

def measurePart (xs : List Nat) : SetPart :=
  xs.foldl (fun p x =>
    let v := fp32Value x
    if v.finite then { p with a := Num.max p.a v.abs, lo := Num.min p.lo v, hi := Num.max p.hi v } else { p with nonfin := p.nonfin + 1 }) {}

/-- R328: the parts of a set combined. -/
def combineParts (ps : List SetPart) : SetPart :=
  ps.foldl (fun p q => { a := Num.max p.a q.a, lo := Num.min p.lo q.lo, hi := Num.max p.hi q.hi, nonfin := p.nonfin + q.nonfin }) {}

/-- R325, R326: the scale and the zero point of a set. -/
def SetPart.scaleOf (p : SetPart) (afmt asfmt : Nat) (asym : Bool) : Measured :=
  let span := if asym then p.hi.add p.lo.neg else p.a
  let (s, c) := if span.isZero then (scaleOne asfmt, false) else toScale asfmt (fp32Value (toFp32 (span.div (topValue afmt))))
  let q := match intRange afmt with | some (_, h) => h | none => 0
  let zp := if asym then (narrowInt 0 q 0 (p.lo.neg.div (scaleValue asfmt s)) none).1.toNat else 0
  { scale := s, zp := zp, clamped := c, nonfin := p.nonfin }

/-- R325, R326: the Measure pass over a set of FP32 elements. -/
def measureSet (afmt asfmt : Nat) (asym : Bool) (xs : List Nat) : Measured := (measurePart xs).scaleOf afmt asfmt asym

/-- R325 to R330, stage 2: an element converted with its set's scale. -/
def convert (afmt asfmt : Nat) (m : Measured) (x : Nat) (rnd : Option Nat) : Nat × Bool :=
  narrow afmt m.zp (fp32Value (toFp32 ((fp32Value x).div (scaleValue asfmt m.scale)))) rnd

/-! ## De-quantisation and rescale (R318 to R323) -/

/-- R323: S after a group: c rounded, the update fused. A partial of integer operands is an exact integer. -/
def dequant (int : Bool) (s p sw sa : Nat) (wsf asf : Nat) : Nat :=
  let c := toFp32 ((scaleValue wsf sw).mul (scaleValue asf sa))
  let pv := if int then Num.ofInt (signed 32 p) else fp32Value p
  toFp32 ((pv.mul (fp32Value c)).add (fp32Value s))

/-- R318: the fields of a rescale entry. -/
def resScale (e : Nat) : Nat := bits e 31 0
def resZp (e : Nat) : Nat := bits e 39 32
def resShift (e : Nat) : Int := signed 6 (bits e 45 40)
def resRnd (e : Nat) : Bool := bit e 46

/-- The zero point of an entry for an output format. -/
def resZpVal (f e : Nat) : Int := if f = 3 || f = 5 then (resZp e : Int) else signed 8 (resZp e)

/-- R319: a valid rescale entry; its reserved bits are 0. -/
def resOk (f e : Nat) : Bool :=
  bits e 63 47 = 0 && (fp32Value (resScale e)).positive && (fp32Value (resScale e)).finite &&
  match intRange f with
  | some (lo, hi) => lo ≤ resZpVal f e && resZpVal f e ≤ hi
  | none => resZp e = 0

/-- R320 stage 7. -/
def rescale (e s : Nat) : Nat :=
  let k := resShift e
  toFp32 (((fp32Value s).mul (fp32Value (resScale e))).mul (Num.dyad false 1 k))

/-- R320 stage 8: an output element; a layer whose next layer measures it leaves FP32 unchanged. -/
def output (f e s : Nat) (u : Nat) : Nat × Bool :=
  let v := rescale e s
  if f = 12 then (v, false)
  else narrow f (if (intRange f).isSome then resZpVal f e else 0) (fp32Value v) (if resRnd e then some (u % 65536) else none)

end Sys2Proof
end

