-- ==== Sys2Proof/Machine/EmbedBase.lean ====
section
/-!
DEFINITION. The data of the embedding tables (spec file 14): tables, steps, look-ups in progress, migrations.
-/
namespace Sys2Proof.Machine

/-- R348, R353: a node whose STEP_END marker an owner holds, with what its answer must carry. -/
structure StepEnd where
  slot : Nat
  desc : Bytes
  bib : Nat
  gen : Nat
deriving DecidableEq, Repr

/-- R347, R350: a change of a row: the admitting slot, whether it replaces the row, the format of its deltas; `fwd` where the row's
former owner has forwarded it, so that its node admitted it before those that come here straight (R356). -/
structure Change where
  from_ : Nat
  row : Nat
  set : Bool
  fmt : Nat
  data : Bytes
  fwd : Bool := false
deriving DecidableEq, Repr

/-- A step of a table at an owner: state 0 open, 1 being journalled, 2 copies of a replicated table are being installed
(`acks`: slot × 2^40 + SEQ), 3 journalled and waiting for room among the dirty tiles (R384). `formed` the rows as they will
stand. `late`: the buffer holds changes of one row for steps that this node has already closed (R356), under a step number
above 2^32: the slot that forwarded them, or this node's own after a cancellation, with the markers to answer here. -/
structure StepBuf where
  step : Nat
  changes : List Change := []
  ends : List StepEnd := []
  firstAt : Nat
  state : Nat := 0
  timedOut : Bool := false
  formed : List (Nat × Bytes) := []
  count : Nat := 0
  acks : List Nat := []
  late : Option (Nat × List (Nat × Bool × Bool × StepEnd)) := none
deriving DecidableEq, Repr

/-- R335, R338: a table of the active image. `served` rows read here in the current window, `hot` look-ups by row. -/
structure Table where
  num : Nat
  fmt : Nat
  sfmt : Nat
  elems : Nat
  hint : Nat
  migrate : Bool
  rows : Nat
  home : Nat
  writers : Nat
  repl : Bool
  applied : Nat := 0
  steps : List StepBuf := []
  served : Nat := 0
  hot : Tab Nat := []
deriving DecidableEq, Repr

/-- Whom a gathering of rows serves: a request here, or another node. -/
inductive GatherFor where
  | req (r : Nat)
  | relay (slot : Nat) (desc : Bytes) (bib gen : Nat)
deriving DecidableEq, Repr

/-- R343: rows read here: table entry, wanted (position, row), got by position, tiles awaited. -/
structure Gather where
  who : GatherFor
  table : Nat
  want : List (Nat × Nat)
  rows : Tab Bytes := []
  wait : List Nat := []
  misses : Nat := 0
  lost : Bool := false
deriving DecidableEq, Repr

/-- An embedding request at the node that admitted it. `parts` its buffers as they arrive, `out` the remote slots that
have not answered with the positions asked of them; `own` its gathering here is unfinished; `ready` a rerank's rows are
all here. -/
structure EmbJob where
  op : Nat
  table : Nat
  order : Nat
  desc : Bytes
  rerank : Bool := false
  parts : Tab Bytes := []
  idx : List Nat := []
  rows : Tab Bytes := []
  out : List (Nat × List Nat) := []
  own : Bool := false
  sent : Bool := false
  misses : Nat := 0
  remote : Nat := 0
  timeouts : Nat := 0
  dropped : Nat := 0
  fails : List (Nat × Nat) := []
  ready : Bool := false
deriving DecidableEq, Repr

/-- Table 14.7: a migration at its source: state 0 COPY, 1 REPLAY, 2 HOLD, 3 DRAIN. `log` row contents not yet sent,
`held` changes with their step, `steps` the closed steps that wait for the row, `late` the markers of such steps (step, closed
by timeout, discarded, marker), `unacked` forwarded pieces that the destination has not answered, `idle` that it has answered all and
a step's journal is awaited; `tail` a record in DRAIN that was opened for changes that came after the source copy had gone (R356). -/
structure Mig where
  table : Nat
  row : Nat
  dst : Nat
  state : Nat := 0
  started : Nat
  k : Nat := 0
  log : List Bytes := []
  held : List (Nat × Change) := []
  steps : List Nat := []
  late : List (Nat × Bool × Bool × StepEnd) := []
  unacked : Nat := 0
  idle : Bool := false
  tail : Bool := false
deriving DecidableEq, Repr

/-- R355: a redirect: the owner from epoch `k` on, and the owner before. -/
structure Redir where
  slot : Nat
  k : Nat
  prev : Nat
deriving DecidableEq, Repr

/-- The embedding tables and what is under way on them. Redirects and rows are numbered by table × 2^40 + row. -/
structure Embed where
  thresh : Nat := 4
  lead : Nat := 4
  stepTo : Nat := 5000
  tables : Tab Table := []
  redirs : Tab Redir := []
  /-- R355: rows on their way here: (source slot, row key). -/
  coming : List (Nat × Nat) := []
  jobs : Tab EmbJob := []
  gathers : Tab Gather := []
  migs : Tab Mig := []
  order : Nat := 0
  level : Nat := 0
  /-- R384: rows sent here that wait for room among the dirty tiles: source slot, payload. -/
  installs : List (Nat × Bytes) := []
deriving DecidableEq, Repr

/-- What a node reset leaves: the tables with their applied steps and the completed migrations (R340). -/
def Embed.afterReset (x : Embed) : Embed :=
  { thresh := x.thresh, lead := x.lead, stepTo := x.stepTo
    tables := Tab.mapV x.tables fun _ t => { t with steps := [], served := 0, hot := [] }, redirs := x.redirs }

end Sys2Proof.Machine
end

