-- ==== Sys2Proof/Machine/ImageTypes.lean ====
section
/-!
DEFINITION. A course image as the loader reads it: header, sections, records (spec file 02 and the chapters that own
the sections).
-/
namespace Sys2Proof.Machine

/-- Table 02.4. -/
structure Part where
  num : Nat
  kind : Nat
  ctx : Nat
  share : Nat
  tiles : Nat
  walk : Nat
  podium : Nat
deriving DecidableEq, Repr

/-- Table 02.5. -/
structure Carve where
  flashRaw : Nat := 0
  journal : Nat := 1024
  minShared : Nat := 16
  slcShare : Nat := 30
  pinned : List Nat := []
deriving DecidableEq, Repr

/-- Table 04.2. -/
structure CostRec where
  work : Nat := 0
  scan : Nat := 0
  search : Nat := 0
  occ : Nat := 0
  phases : Nat := 0
  kib : Nat := 0
deriving DecidableEq, Repr

/-- Table 05.1. -/
structure BibEnt where
  bib : Nat
  part : Nat
  flags : Nat
  bind : Binding
deriving DecidableEq, Repr

/-- Table 02.7. -/
structure RegEnt where
  blk : Nat
  inst : Nat
  off : Nat
  value : Nat
deriving DecidableEq, Repr

/-- Table 18.8: RATE, DEPTH, INTERVAL of the subscriber Pacer and of the eight service Pacers. -/
structure SubRec where
  bib : Nat
  sub : Nat × Nat × Nat
  svc : List (Nat × Nat × Nat)
deriving DecidableEq, Repr

/-- Table 02.2: a section table entry. -/
structure SecEnt where
  type : Nat
  version : Nat
  flags : Nat
  off : Nat
  size : Nat
deriving DecidableEq, Repr

/-- R63, R569: a failure found by a check: its status and its position. `rank` orders positions: header, section table,
sections, trailer. -/
structure Fail where
  status : Nat
  sec : Nat
  entry : Nat
  rank : Nat
deriving DecidableEq, Repr

/-- Table 03.4: an entry of the Start List. `part` 0xFF for no single partition, `parent` 0xFFFF for a root. -/
structure SlEnt where
  type : Nat
  inst : Nat
  domain : Nat
  off : Bool
  rwl : Bool
  base : Nat
  size : Nat
  parent : Nat
  part : Nat
  lag : Nat
  bar : Nat
deriving DecidableEq, Repr

/-- R78 to R91: the Start List: LAYOUT_SEQ (0 while none has been written), CI_SERIAL, entries; `phase` how many of the five
steps of R90 a rewrite in progress has made. -/
structure StartList where
  seq : Nat := 0
  phase : Nat := 0
  serial : Nat := 0
  ents : List SlEnt := []
deriving DecidableEq, Repr

/-- R62 to R67, R110: the loader. `busy` a load is in progress for `req` (none for boot step 8), whose copied image stands
in `image` once `ready`; `since` when it was copied, or when DRAINING began; `back` the state to return to; `bounds`
BOUND_999 of each contract as admitted, `boundTf` the per-read bound of R417 that its check took, `tf` that of the active
image; `nor` a NOR write in progress; `changes` the CONTRACT_SETs in the order of their admission with their buffers once
read, the one being checked first, since `changeAt`. -/
structure Loader where
  busy : Bool := false
  req : Option Nat := none
  fromNor : Bool := false
  store : Bool := false
  image : Bytes := []
  ready : Bool := false
  since : Nat := 0
  back : Nat := 0
  bounds : List Nat := []
  boundTf : Nat := 0
  tf : Nat := 0
  nor : Option Bytes := none
  changes : List (Nat × Option Bytes) := []
  changeAt : Nat := 0
deriving DecidableEq, Repr

/-- R545: a recovery load at work: the image's address and length, STORE, the bytes once they have been read. -/
structure Recovery where
  dma : Nat
  addr : Nat
  len : Nat
  store : Bool
  image : Bytes := []
  writing : Bool := false
deriving DecidableEq, Repr

/-- R520 to R523: a sled slot: `tp` the press that opened the abort window; when SLED_PWR_EN went low; when a request was
last refused; a sequence that flush mode, a node fence or a surprise removal elsewhere has stopped. -/
structure PanelSlot where
  tp : Nat := 0
  offAt : Option Nat := none
  refusedAt : Option Nat := none
  stopped : Bool := false
deriving DecidableEq, Repr

end Sys2Proof.Machine
end

