-- ==== Sys2Proof/Machine/IndexBase.lean ====
section
/-!
DEFINITION. The data of the vector index and of the search that runs over it (spec files 07 to 11): heats, commit groups,
shard queries, coalescer groups, scan batches, Stride engines, Podium lists, search requests.
-/
namespace Sys2Proof.Machine

/-- Table 07.1: a lane record. `adj` holds the D raw references (R168). -/
structure LaneRec where
  code : Bytes
  attr : Nat
  adj : List Nat
deriving DecidableEq, Repr

/-- Table 10.4: a side-list entry. -/
structure SideEnt where
  lid : Nat
  retired : Nat
  code : Bytes
  attr : Nat
deriving DecidableEq, Repr

/-- R248: an entry of the recent-update index: kind 0 insert, 1 delete; `slot` the side-list slot of the item that it
concerns, where it has or had one. -/
structure Rui where
  lid : Nat
  kind : Nat
  epoch : Nat
  merged : Bool
  slot : Option Nat := none
deriving DecidableEq, Repr

/-- An update at the primary: its ID (R470), kind 0 insert, 1 delete; `req` the request where it was admitted here. -/
structure Upd where
  id : Nat
  kind : Nat
  lid : Nat
  attr : Nat
  code : Bytes
  req : Option Nat
deriving DecidableEq, Repr

/-- R241, R242: a commit group: CLOSED or not, its journal program ended or not, the replicas that have not acknowledged
it, whether it closed below the NV bar. -/
structure Group where
  epoch : Nat
  closed : Bool := false
  upds : List Upd := []
  durable : Bool := false
  acks : List Nat := []
  nv : Bool := false
deriving DecidableEq, Repr

/-- R475: a committed group whose COMMIT some live replicas have not acknowledged. -/
structure Done where
  epoch : Nat
  upds : List Upd
  acks : List Nat
deriving DecidableEq, Repr

/-- R253: the staging of a copy: the slot from which it goes on, whether it has reached its end, build walks in progress
(shard query, slot), the lists that they gave by slot, slots discarded (slot, local ID); once every walk has ended (`made`),
the neighbour lists to be written by local ID and the items reclaimed. -/
structure Stage where
  next : Nat := 0
  ended : Bool := false
  builds : List (Nat × Nat) := []
  lists : Tab (List Nat) := []
  discards : List (Nat × Nat) := []
  made : Bool := false
  links : Tab (List Nat) := []
  reclaims : List Nat := []
deriving DecidableEq, Repr

/-- R170 to R186, R241 to R255: a hosted copy of a heat. `state` 0 SERVING, 1 CATCHING_UP, 2 DOWN for
holdover, 3 DOWN until the next restart, 4 CATCHING_UP and being refilled. `st` local ID states:
0 FREE, 1 LIVE, 2 DELETED; `dead` the merged items that an applied delete has reached, whatever has become of their local ID
since (R247). `home`, `homeMerged` what the flash holds of the records; `seen` the first outcomes of update
IDs with the epoch. `opens` the groups that are open, by epoch (R178); `early` updates that reached the copy before it
starts; `bornAt` the split time of the APPLYING that started it empty, `empty` until its first commit boundary (R183);
`owed` the epochs applied whose journal program runs (R242); `unhomed` by local ID the tiles that its merge wrote and the flash
does not hold yet (R243). -/
structure Heat where
  number : Nat
  role : Nat
  code : Nat
  degree : Nat
  cap : Nat
  sideCap : Nat
  copies : List Nat
  scanFrac : Nat
  pinned : Nat
  recs : Tab LaneRec := []
  home : Tab LaneRec := []
  merged : Tab Bool := []
  homeMerged : Tab Bool := []
  st : Tab Nat := []
  dead : Tab Bool := []
  side : Tab SideEnt := []
  head : Nat := 0
  tail : Nat := 0
  pauseNo : Nat := 0
  rui : List Rui := []
  applied : Nat := 0
  started : Bool := false
  floorMin : Nat := 0
  opens : List Group := []
  early : List Upd := []
  bornAt : Nat := 0
  empty : Bool := false
  owed : List Nat := []
  unhomed : Tab (List Nat) := []
  closed : List Group := []
  recv : List Group := []
  dones : List Done := []
  stage : Stage := {}
  /-- R254: a pause has begun and awaits the groups already dispatched. -/
  pausing : Bool := false
  tokens : Nat := 64000000000
  tokensAt : Nat := 0
  handoff : Option (Nat × Nat) := none
  state : Nat := 0
  seen : List (Nat × Nat × Nat × Nat) := []
deriving DecidableEq, Repr

/-- What a node reset leaves of a heat (R243, R538): the records as the flash holds them; the journal gives the rest. -/
def Heat.afterReset (h : Heat) : Heat :=
  { number := h.number, role := h.role, code := h.code, degree := h.degree, cap := h.cap, sideCap := h.sideCap
    copies := h.copies, scanFrac := h.scanFrac, pinned := h.pinned, recs := h.home, home := h.home, merged := h.homeMerged
    homeMerged := h.homeMerged, st := h.homeMerged.map (fun p => (p.1, 1)), applied := h.applied }

/-- Table 07.3. -/
structure HeatsPre where
  interval : Nat := 100
  publish : Nat := 80
  retain : Nat := 5000
  hold : Nat := 200
deriving DecidableEq, Repr

/-- Where a shard query came from: a request's source here, another node, or a build walk of the copy. -/
inductive Origin where
  | here (req source : Nat)
  | relay (slot tag gen source bib : Nat)
  | build (slot : Nat)
deriving DecidableEq, Repr

/-- R202: an entry of a candidate queue. -/
structure Cand where
  dist : Nat
  lid : Nat
  expanded : Bool
deriving DecidableEq, Repr

/-- R203: an expansion in flight: the fetches not yet returned, whether its references are still awaited, and the results
(local ID, distance, pass, flash). Number 0 is the seed round. -/
structure Expn where
  num : Nat
  refs : Bool
  wait : List Nat
  got : List (Nat × Nat × Bool × Bool)
deriving DecidableEq, Repr

/-- A shard query. Stage 0 held for its epoch (R180), 1 waiting for list slots or a Walk engine, 2 walking, 3 scanning,
4 ended, its list awaiting delivery. -/
structure SQ where
  origin : Origin
  heat : Nat
  part : Nat
  epoch : Nat
  filter : Bytes
  code : Bytes
  localK : Nat
  beam : Nat
  maxHops : Nat
  maxMiss : Nat
  maxEvals : Nat
  est : Nat
  seeds : Nat
  mode : Nat
  stage : Nat := 0
  held : Nat := 0
  arrived : Nat := 0
  engine : Nat := 0
  queue : List Cand := []
  visited : Tab Bool := []
  hops : Nat := 0
  evals : Nat := 0
  misses : Nat := 0
  results : Nat := 0
  passing : Nat := 0
  flying : List Expn := []
  list : Option Nat := none
  exhausted : Bool := false
  walkDone : Bool := false
  sideDone : Bool := false
  scanned : Bool := false
  escalated : Bool := false
  denied : Bool := false
  missOut : Bool := false
  flash : Bool := false
  status : Nat := 0
  counted : Bool := false
  mute : Bool := false
deriving DecidableEq, Repr

/-- Table 09.2: a return entry of a Stride engine. KIND 0 EVAL, 1 scan hit, 2 references follow, 3 miss notice, 4 share
ended, 5 ERR. -/
structure Ret where
  kind : Nat
  slot : Nat
  dist : Nat := 0
  side : Bool := false
  pass : Bool := false
  lid : Nat := 0
deriving DecidableEq, Repr

/-- R230: the 8 bytes of a return entry. -/
def Ret.word (r : Ret) : Nat :=
  r.lid % 2 ^ 30 + (if r.pass then 2 ^ 30 else 0) + (if r.side then 2 ^ 31 else 0) + r.dist % 4096 * 2 ^ 32
    + r.slot % 256 * 2 ^ 44 + r.kind % 16 * 2 ^ 60

/-- R221: an entry of a query register file: code, filter fields, THRESH, the query's number, the miss-exhausted bit. -/
structure QEnt where
  code : Bytes
  filter : Bytes
  thresh : Nat := 0xFFF
  ctx : Nat
  missOut : Bool := false
deriving DecidableEq, Repr

/-- R210: a coalescer group: requests (shard query, expansion number, EXPAND or EVAL); `tile` the tile that it holds (R384). -/
structure PackGroup where
  part : Nat
  heat : Nat
  lid : Nat
  reqs : List (Nat × Nat × Bool)
  opened : Nat
  tile : Option Nat := none
  bibs : List Nat := []
  closed : Bool := false
  tileWait : Bool := false
  flash : Bool := false
  engine : Option Nat := none
  running : Bool := false
deriving DecidableEq, Repr

/-- R225 to R229, R250: a scan batch or side-list batch. `ents` its entries of the batch half, which every engine holds
alike, so that they stand here once (R221); `cur` the unit that an engine has started, `held` those that stay resident for it; `sent` tiles whose miss notice is on
its way, `noticed` tiles with the queries granted, `arrived` those whose read has ended; `done` the units that an engine has
finished or skipped, by engine; `finished` engines whose share has ended. A unit of an engine is numbered
engine × 2^32 + unit. -/
structure Batch where
  side : Bool
  heat : Nat
  part : Nat
  qs : List Nat
  opened : Nat
  closed : Bool := false
  head : Nat := 0
  tail : Nat := 0
  pauseNo : Nat := 0
  ents : List QEnt := []
  cur : Tab Nat := []
  held : List Nat := []
  sent : List Nat := []
  done : Tab (List Nat) := []
  noticed : Tab (List Nat) := []
  arrived : List Nat := []
  finished : List Nat := []
  bibs : List Nat := []
deriving DecidableEq, Repr

/-- R231 to R236: a Stride engine: the partition served in the current slice (255 idle), whether the slice is lent,
whether it starts no new work, the live and the saved batches, the batches that wait; `walk` the walk half of its register
file: group, place in the group, entry (R221); `since`, `acc` when it last finished a record or its slice began, and the time
without a record that it held work in before (R236). -/
structure Engine where
  owner : Nat := 255
  lent : Bool := false
  guard : Bool := false
  live : Option Nat := none
  saved : List Nat := []
  waiting : List Nat := []
  walk : List (Nat × Nat × QEnt) := []
  since : Nat := 0
  acc : Nat := 0
deriving DecidableEq, Repr

/-- R259: an entry of a Podium list. -/
structure PEnt where
  key : Nat
  idx : Nat
  src : Nat
  rflags : Nat
deriving DecidableEq, Repr

/-- What a Podium list serves: a shard query, the merge or the final cut of a search, a segment of a row or the merge of a
row of an Infield program (R267). -/
inductive PodOwner where
  | shard (sq : Nat)
  | merge (req : Nat)
  | final (req : Nat)
  | seg (req row source : Nat)
  | row (req row : Nat)
deriving DecidableEq, Repr

/-- R258 to R266: a Podium list; `sel` none while it waits for slots. -/
structure PList where
  owner : PodOwner
  part : Nat
  k : Nat
  mode : Nat
  merge : Bool
  sel : Option Nat := none
  ents : List PEnt := []
  tieCnt : Nat := 0
  tieKey : Nat := 0
  tieTab : List Nat := []
  ovf : Bool := false
  closed : Bool := false
deriving DecidableEq, Repr

/-- R267, R484 to R487: a source of a search: a heat of its set. `sent` the slots it was sent to, `failed` those that
failed. -/
structure Source where
  heat : Nat
  sent : List Nat := []
  failed : List Nat := []
  first : Nat := 0
  last : Nat := 0
  settled : Bool := false
deriving DecidableEq, Repr

/-- A SEARCH or SEARCH_CODE in progress (R38): step 0 reads the query block, 1 encodes, 2 searches and merges, 4 reranks,
5 cuts. -/
structure Srch where
  step : Nat := 0
  epoch : Nat := 0
  k : Nat := 0
  localK : Nat := 0
  beam : Nat := 0
  cand : Nat := 0
  mode : Nat := 0
  denied : Bool := false
  keys : Bool := false
  seeds : Nat := 0
  hops : Nat := 0
  miss : Nat := 0
  evals : Nat := 0
  est : Nat := 0
  block : Bytes := []
  code : Bytes := []
  sources : List Source := []
  list : Option Nat := none
  begun : Bool := false
  exhausted : Nat := 0
  scanned : Nat := 0
  misses : Nat := 0
  flash : Bool := false
  hedged : Bool := false
  cut : Bool := false
  cancelled : Bool := false
  parts : List (Nat × Nat) := []
  ties : Nat := 0
  cands : List PEnt := []
deriving DecidableEq, Repr

/-- R485: the latencies of a heat's answered shard queries on this node (the last 1,024, ns), and the threshold, ns. -/
structure Hedge where
  lats : List Nat := []
  threshold : Nat := 0
deriving DecidableEq, Repr

/-- The index and its searches. -/
structure Index where
  pre : HeatsPre := {}
  /-- R171: the image has a HEATS section. -/
  hosting : Bool := false
  heats : Tab Heat := []
  sqs : Tab SQ := []
  groups : Tab PackGroup := []
  batches : Tab Batch := []
  engines : Tab Engine := []
  lists : Tab PList := []
  srch : Tab Srch := []
  hedges : Tab Hedge := []
  /-- R477: updates held for a heat under takeover: (heat, request). -/
  held : List (Nat × Nat) := []
  /-- R470: the sequence of update IDs. -/
  updSeq : Nat := 1
  /-- Updates admitted here that await an outcome: update ID to (request, heat, slot of the primary it was sent to). -/
  sentUpd : Tab (Nat × Nat × Nat) := []
  /-- R254: the entry whose turn a pause was last, and the millisecond of the last pause. -/
  turn : Nat := 0
  pausedAt : Option Nat := none
  planned : Nat × Nat := (0, 0)
  /-- R384: REFILL payloads that wait for room among the dirty tiles. -/
  refills : List Bytes := []
deriving DecidableEq, Repr

end Sys2Proof.Machine
end

