-- ==== Sys2Proof/Machine/InfBase.lean ====
section
/-!
DEFINITION. The data of Infield (spec files 12, 13): programs, waiting requests, passes, requests in progress.
-/
namespace Sys2Proof.Machine

/-- Tables 12.3 and 13.3: a layer, its quantisation record and rescale entries. -/
structure Layer where
  alloc : Nat
  first : Nat
  ntiles : Nat
  wfmt : Nat
  afmt : Nat
  gcode : Nat
  wsfmt : Nat
  asfmt : Nat
  amode : Nat
  mgran : Nat
  qflags : Nat
  ofmt : Nat
  entries : List Nat
deriving DecidableEq, Repr

/-- R288 to R292: a loaded program. Pages of 4 KiB; `cost` 0xFFFF for none; `tp` the pass time T_p. -/
structure Prog where
  bib : Nat
  shared : Bool
  cost : Nat
  digest : Nat
  role : Nat
  topk : Bool
  tiles : Nat
  window : Nat
  pages : Nat
  rowmax : Nat
  infmt : Nat
  outfmt : Nat
  inelems : Nat
  outelems : Nat
  k : Nat
  mode : Nat
  ftable : Nat
  tp : Nat
  layers : List Layer
  pkgTiles : Nat
  stoch : Bool := false
  freeing : Bool := false
deriving DecidableEq, Repr

/-- R293: a request that waits for passes: kind 0 RUN, 1 encode, 2 rerank; rows not yet placed in a pass; when it was
admitted, which is its place in the queue. -/
structure PassWait where
  r : Nat
  kind : Nat
  bib : Nat
  slot : Nat
  left : Nat
  next : Nat := 0
  order : Nat := 0
deriving DecidableEq, Repr

/-- A share of a pass: rows `first` to `first + rows - 1` of a request. -/
structure PassReq where
  r : Nat
  kind : Nat
  first : Nat
  rows : Nat
  seed : Nat
deriving DecidableEq, Repr

/-- R299, R301: a weight tile of a pass: state 0 copied from the DRAM tier, 1 read from the flash, 2 read, 3 in Track SRAM;
its bytes as they stood when it was requested; the tile of the DRAM tier, held while it is copied (R384); its place in the pass's pages, in units of 16, once it is there. -/
structure WTile where
  layer : Nat
  tile : Nat
  state : Nat
  data : Bytes := []
  key : Option Nat := none
  place : Nat := 0
deriving DecidableEq, Repr

/-- R280: a run of pages of a bank. -/
structure PageRun where
  bank : Nat
  first : Nat
  count : Nat
deriving DecidableEq, Repr

/-- R328: a group of activations in a tile's SRAM as the grid reads it: the pass's row, the line, the group, its codes, scale and
zero point. -/
structure AGroup where
  row : Nat
  line : Nat
  g : Nat
  codes : List Nat
  scale : Nat
  zp : Nat
deriving DecidableEq, Repr

/-- R278, R328, R329: what a tile's SRAM holds while a layer runs: the converted activations and the scale buffer. What is
staged is released when it has been converted. -/
structure TileMem where
  acts : List AGroup := []
  scales : Bytes := []
deriving DecidableEq, Repr

/-- R293 to R299: a pass: its tiles, pages, shares, current layer; `since` when that layer began to wait; `tensors` the rows'
inputs and the layers' outputs, in the SRAMs of its tiles, by layer (0 the input) × 1,024 + row of the pass; `rng` the numbers that
the generators of its relative tiles have given in the current layer (R331). -/
structure Pass where
  part : Nat
  slot : Nat
  bib : Nat
  tiles : List Nat
  pages : List PageRun
  reqs : List PassReq
  layer : Nat := 0
  started : Bool := false
  since : Nat
  granted : Nat
  weights : List WTile := []
  tensors : Tab (List Nat) := []
  rng : Tab Nat := []
deriving DecidableEq, Repr

/-- A RUN, an encode step or a rerank step in progress. `done` rows out, `lists` rows whose top-k list is not yet
delivered, `segs` the segments of a row, `parts` the segments that the merges of its rows have taken (row, source, tie key, tie count), `out` the scores or
code bits by row. -/
structure RunJob where
  kind : Nat
  slot : Nat
  rows : Nat
  done : Nat := 0
  lists : Nat := 0
  short : Nat := 0
  ties : Nat := 0
  misses : Nat := 0
  held : Bool := false
  segs : Nat := 1
  parts : List (Nat × Nat × Nat × Nat) := []
  out : Tab (List Nat) := []
  ready : Bool := false
deriving DecidableEq, Repr

/-- R267: a top-k list of a row, or of a segment of it, that waits for slots: its request, program, row, the first column that it
takes, the columns. -/
structure RowWait where
  r : Nat
  prog : Prog
  row : Nat
  base : Nat
  cols : List Nat
deriving DecidableEq, Repr

/-- Infield: programs by partition × 256 + slot, the queue of each partition, the passes. `last` the bib that last used a tile
(bib + 1; 1,026 where a pass was stopped on it, R306); `sram` the tile SRAMs and `resc` the banks of the rescale RAMs
(layer, channel, entry), by tile; `pageLast` runs of pages with their last user, `pageMem` the pages' bytes by bank × 4,096 +
page, an unlisted page being zeros. -/
structure Infield where
  progs : Tab Prog := []
  queue : Tab (List PassWait) := []
  passes : Tab Pass := []
  last : Tab Nat := []
  sram : Tab TileMem := []
  resc : Tab (List (Nat × Nat × Nat)) := []
  pageLast : List (PageRun × Nat) := []
  pageMem : Tab Bytes := []
  jobs : Tab RunJob := []
  /-- Rows of top-k lists that wait for slots, by list. -/
  rows : Tab RowWait := []
deriving DecidableEq, Repr

end Sys2Proof.Machine
end

