-- ==== Sys2Proof/Machine/MeetBase.lean ====
section
/-!
DEFINITION. The data of a meet (spec file 19): members, roles, the reliable frames of each pair, restarts.
-/
namespace Sys2Proof.Machine

/-- R472: what a heartbeat says of a copy. -/
structure CopyRec where
  heat : Nat
  state : Nat
  role : Nat
  applied : Nat
deriving DecidableEq, Repr

/-- Table 19.2, R473: a member. State 0 LIVE, 1 LOST, 2 OUTSIDE, 3 FENCED. -/
structure Member where
  fpr : Bytes := []
  addrs : List Nat := [0, 0, 0, 0]
  state : Nat := 2
  slevel : Nat := 0
  elevel : Nat := 0
  links : Nat := 15
  hbState : Nat := 0
  hbAt : Nat := 0
  hbInst : Option Nat := none
  copies : List CopyRec := []
  intr : Nat := 0
  intrFrom : Option Nat := none
  lostAt : Nat := 0
deriving DecidableEq, Repr

/-- Table 19.9, ROLES: a heat's primary (none where it has none), whether a takeover or handoff is in progress, its
serving copies. -/
structure Role where
  primary : Option Nat
  busy : Bool
  serving : List Nat
deriving DecidableEq, Repr

/-- R470: a reliable frame that has not been acknowledged. -/
structure Unacked where
  seq : Nat
  kind : Nat
  more : Bool
  body : Bytes
  sentAt : Nat
  tries : Nat
deriving DecidableEq, Repr

/-- R469, R470: what the node keeps of a pair: the next SEQ out, frames not acknowledged, the next SEQ in, frames held
for order (type, MORE, baton number, payload), the message being joined. -/
structure Peer where
  next : Nat := 1
  unacked : List Unacked := []
  rx : Nat := 1
  held : Tab (Nat × Bool × Nat × Bytes) := []
  joining : Bytes := []
  /-- R469: the message that KIND 2 messages have brought so far: type and first 68 bytes, data (log 155). -/
  long : Bytes × Bytes := ([], [])
deriving DecidableEq, Repr

/-- R489: a JOIN received in the window. -/
structure JoinRec where
  slot : Nat
  restart : Nat
  digest : Bytes
  key : Bytes
  sig : Bytes
  signed : Bytes
  copies : List (Nat × Nat × Nat × Nat × Nat)
deriving DecidableEq, Repr

/-- R489: a restart that the holder runs; `reqs` the MEET_RESTARTs that await it. -/
structure RestartRun where
  epoch : Nat
  nonce : Bytes
  began : Nat
  joins : List JoinRec := []
  reqs : List Nat := []
deriving DecidableEq, Repr

/-- A takeover or planned handoff that the holder runs: the heat, the slot left, the successor, t_L, the epoch k of a
planned handoff, the requests that await it. -/
structure Move where
  heat : Nat
  from_ : Nat
  dest : Nat
  tl : Nat
  k : Option Nat
  reqs : List Nat := []
  told : Bool := false
deriving DecidableEq, Repr

/-- The meet as this node sees it. `on` an image with a MEET section is active; `member` this node was admitted at the
last restart; `fenced` it has fenced itself. -/
structure Meet where
  on : Bool := false
  slot : Nat := 0
  port : Nat := 0
  anchor : Nat := 0
  standby : List Nat := []
  operBib : Nat := 0xFFFF
  servePart : Nat := 0
  serveRate : Nat := 0
  margin : Nat := 200
  hedgeMax : Nat := 1500
  hedgeInit : Nat := 1000
  joinMs : Nat := 5
  retx : Nat := 100
  digest : Bytes := []
  members : Tab Member := []
  holder : Option Nat := none
  baton : Nat := 0
  restart : Nat := 0
  memSeq : Nat := 0
  roleSeq : Nat := 0
  member : Bool := false
  fenced : Bool := false
  roles : Tab Role := []
  beaconAt : Nat := 0
  heardAt : Nat := 0
  coldAt : Nat := 0
  silentDone : Bool := false
  synced : Bool := false
  holdover : Option Nat := none
  peers : Tab Peer := []
  run : Option RestartRun := none
  moves : List Move := []
  batonTo : Option Nat := none
  intrFrom : Option Nat := none
  /-- At the holder: the slots of each heat's copies in the order of COPIES (log 61). -/
  order : Tab (List Nat) := []
  /-- R479: the last instant whose beacon counted. -/
  beaconInst : Nat := 0
  /-- Meet operations of this node that await what the holder does (log 62). -/
  waits : List Nat := []
deriving DecidableEq, Repr

end Sys2Proof.Machine
end

