-- ==== Sys2Proof/Machine/PoolBase.lean ====
section
/-!
DEFINITION. The data of the KV pool (spec file 15): blocks, segments, operations in progress.
-/
namespace Sys2Proof.Machine

/-- R359, R374: a block: where it stands (0 DRAM share, 1 being spilled, 2 flash tier, 3 being read back), its age, its
contents (an unlisted byte is 0); `bad` it holds bytes that no code can correct (R31). -/
structure PBlock where
  place : Nat := 0
  age : Nat := 0
  pinned : Bool := false
  bad : Bool := false
  data : Tab Byte := []
deriving DecidableEq, Repr

/-- R360, R371: a segment. Block numbers stand by index in `pub` and `shadow`; `version` 0 while none is published; the
holder's slot and bib; `offer` the pending number, the offered slot and bib, and when; `idle` the last grant operation of
the holder or the end of its lease; `used` when it was last published or read. -/
structure Seg where
  blocks : Nat
  pinned : Bool
  version : Nat := 0
  pub : Tab Nat := []
  shadow : Tab Nat := []
  dirty : Bool := false
  lease : Option Nat := none
  expired : Bool := false
  top : Nat := 1
  grant : Nat := 1
  slot : Nat
  bib : Nat
  offer : Option (Nat × Nat × Nat × Nat) := none
  idle : Nat
  used : Nat
deriving DecidableEq, Repr

/-- Whom an operation at the home serves: a request here, another node's request, a read of the aperture. -/
inductive PoolFor where
  | req (r : Nat)
  | relay (slot gen : Nat)
  | apt (port off len : Nat)
deriving DecidableEq, Repr

/-- An operation at the home that waits: for room, or for the blocks of `wait` to be read back, or for an earlier write of its segment. `num`
its number in the order of arrival; `blocks` the blocks that it holds, `version` the version it reads, `misses` blocks read from
flash, `levels` their retry levels. -/
structure PoolOp where
  who : PoolFor
  desc : Bytes
  slot : Nat
  bib : Nat
  data : Bytes := []
  key : Nat
  num : Nat := 0
  wait : List Nat := []
  blocks : List Nat := []
  version : Nat := 0
  misses : Nat := 0
  levels : Nat := 0
  reading : Bool := false
deriving DecidableEq, Repr

/-- A pool request at the node that admitted it: `ready` its data is here, `sent` it has gone to its home. -/
structure PoolJob where
  op : Nat
  key : Nat
  bib : Nat
  order : Nat
  data : Bytes := []
  ready : Bool := false
  sent : Bool := false
deriving DecidableEq, Repr

/-- Table 15.3: linked namespace, quota, pin quota of a bib. -/
structure PoolEnt where
  ns : Nat
  quota : Nat
  pinQuota : Nat
deriving DecidableEq, Repr

/-- The KV pool. `cap` and `spillCap` in blocks; leases and offers in ms. -/
structure Pool where
  on : Bool := false
  cap : Nat := 0
  spillCap : Nat := 0
  leaseMs : Nat := 50
  handoffMs : Nat := 50
  segMax : Nat := 0
  part : Nat := 0
  ents : Tab PoolEnt := []
  segs : Tab Seg := []
  blocks : Tab PBlock := []
  ops : Tab PoolOp := []
  jobs : Tab PoolJob := []
  order : Nat := 0
deriving DecidableEq, Repr

end Sys2Proof.Machine
end

