-- ==== Sys2Proof/Machine/TierBase.lean ====
section
/-!
DEFINITION. The data of the two tiers (spec files 16, 17): tiles and their map entries, allocations, flash operations,
media, the flush.
-/
namespace Sys2Proof.Machine

/-- Why a program is made (R413, Table 17.7); `move` names the block that reclaim empties, `rewrite` is for patrol, or for a
SCRUB. -/
inductive Why where
  | tileWrite (r i : Nat)
  | groupJournal (heat epoch : Nat)
  | stepJournal (table step : Nat)
  | mapSegments (segs : List Nat)
  | spill (block : Nat)
  | writeBack (tile : Nat)
  | fold (tile : Nat)
  | move (tile target blk : Nat)
  | rewrite (tile : Nat) (req : Option Nat)
  | startRecord
  | openPages
  | flushSegments (segs : List Nat)
  | endRecord
  | runRecord
  | panelPage (sled : Nat)
  | panelSegs (sled : Nat) (segs : List Nat)
  | removal (sled : Nat)
deriving DecidableEq, Repr

/-- What waits for a flash read: a tile of a request, a walk group, an engine of a scan batch, a weight tile of a pass,
rows of an embedding table, a block of the KV pool, a program whose source it is (R414, R415,
R420), or the node itself. -/
inductive Wait where
  | req (r slot : Nat)
  | group (g : Nat)
  | scan (batch engine tile : Nat)
  | weight (pass layer tile : Nat)
  | gather (g : Nat)
  | pool (block : Nat)
  | copy (w : Why)
  | internal
deriving DecidableEq, Repr

/-- R418, R419: what a read brought: the retry levels that each codeword of the tile took, and the codewords that are
uncorrectable. -/
structure ReadOut where
  levels : List Nat := []
  bad : List Nat := []
deriving DecidableEq, Repr

/-- A flash operation: kind 0 read, 1 program, 2 erase; `tile` the logical tile where it has one; `raw` a read that fills no
frame, or an erase that reclaim makes; `src` the write sequence of the unit that a copy was read from; `hint` the hint of the frame
that a read fills. -/
structure FOp where
  kind : Nat
  why : Option Why := none
  tile : Option Nat := none
  target : Nat := 0
  blk : Nat := 0
  page : Nat := 0
  tiles : Nat := 1
  native : Bool := false
  data : Bytes := []
  raw : Bool := false
  src : Nat := 0
  hint : Nat := 1
  waiters : List Wait := []
deriving DecidableEq, Repr

/-- Table 17.4 and R382 to R389: a logical tile. State 0 UNWRITTEN, 1 BUFFER, 2 MAIN, 3 DISCARDED; `frame` where it is
resident; `dirty` its place in the order in which tiles became dirty; `reading` the read in progress; `bad` the codewords of
its unit that are uncorrectable, until the tile is written again (R419). -/
structure Tile where
  st : Nat := 0
  target : Nat := 0
  blk : Nat := 0
  page : Nat := 0
  seq : Nat := 0
  hint : Nat := 1
  frame : Option Nat := none
  age : Nat := 0
  pinned : Bool := false
  dirty : Option Nat := none
  writing : Bool := false
  holds : Nat := 0
  reading : Option Nat := none
  bad : List Nat := []
deriving DecidableEq, Repr

/-- A block that is not blank: mode 0 free, 1 one-bit, 2 native; pages programmed, erases, when it was opened. -/
structure Blk where
  mode : Nat := 0
  pages : Nat := 0
  erases : Nat := 0
  opened : Nat := 0
  retired : Bool := false
  erasing : Bool := false
deriving DecidableEq, Repr

/-- R404, Table 17.3: a part of the media table: its cells, timings in ns, rated program/erase cycles. -/
structure MediaPart where
  qlc : Bool
  tR : Nat
  tRslc : Nat
  tSus : Nat
  tProgJ : Nat
  tProgSlc : Nat
  tProg : Nat
  endurance : Nat
deriving DecidableEq, Repr

/-- The media table: the reference parts of Table 17.3. Their Read IDs (1 and 2) and rated cycles the spec does not give: DESIGN
CHOICE (log 144). -/
def MediaPart.table : Tab MediaPart :=
  [(1, MediaPart.mk false 20000 5000 10000 20000 60000 2000000 3000),
   (2, MediaPart.mk true 40000 5000 10000 20000 60000 4000000 1000)]

/-- A used target (R404, R405): its cells, the blocks of its LUNs, tiles per native block; `cap` the blocks that the node uses (R409), all where
no load has said so; LUNs, Read ID. A block is that of Table 17.4, which runs across the four planes: DEDUCED (log 145). -/
structure Target where
  qlc : Bool
  blocks : Nat
  perBlock : Nat
  blks : Tab Blk := []
  patrolAt : Nat := 0
  cap : Option Nat := none
  luns : Nat := 1
  id : Nat := 1
deriving DecidableEq, Repr

/-- R391: an allocation. `named` the loaded programs that name it, `freeing` the FREE that awaits the requests that name
it. -/
structure Alloc where
  bib : Nat
  part : Nat
  tiles : Nat
  hint : Nat
  named : Nat := 0
  freeing : Option Nat := none
deriving DecidableEq, Repr

/-- Table 17.6: the sled health log. -/
structure Health where
  spare0 : Nat := 0
  endurance : Nat := 0
  retired : Nat := 0
  errors : List Nat := [0, 0, 0, 0, 0, 0, 0, 0]
  temp : List Nat := [0, 0, 0, 0, 0, 0, 0, 0, 0, 0, 0, 0, 0, 0, 0, 0]
  hostBytes : Nat := 0
  mediaBytes : Nat := 0
  lostSaid : Bool := false
deriving DecidableEq, Repr

/-- A tier request in progress: what it still waits for, what it has counted; `data` the tiles that have arrived,
`started` those whose program has started, `blocked` 1 the NV bar, 2 no writable target; `keep` tiles that a SET_HINT to PIN_DRAM
holds until all are there (R397). -/
structure TierJob where
  handle : Nat
  left : Nat := 0
  done : Nat := 0
  misses : Nat := 0
  resident : Nat := 0
  rewritten : Nat := 0
  uncorr : Nat := 0
  blocked : Nat := 0
  started : Nat := 0
  flying : Nat := 0
  data : Tab Bytes := []
  keep : List Nat := []
deriving DecidableEq, Repr

/-- R427, R428: the flush of one run as the media show it. `step` 2 start record, 3 open pages, 4 segments, 5 end
record, 6 done. -/
structure Flush where
  seq : Nat
  te : Nat
  cause : Nat
  step : Nat := 1
  startWhole : Bool := false
  startBegun : Bool := false
  endWhole : Bool := false
  last : Nat := 0
  segments : Nat := 0
  floor : Bool := false
deriving DecidableEq, Repr

/-- R241, R243: the journal record of a commit group: heat, commit epoch, updates (kind, local ID, attribute word, code),
the tiles it takes in the write buffer, where they stand; `done` the places of the updates that the flash holds by now. -/
structure JRec where
  heat : Nat
  epoch : Nat
  upds : List (Nat × Nat × Nat × Bytes)
  tiles : Nat := 1
  target : Nat := 0
  blk : Nat := 0
  done : List Nat := []
deriving DecidableEq, Repr

/-- R351: the journal record of an embedding step: table, step, the shares (row, replace, bytes). -/
structure SRec where
  table : Nat
  step : Nat
  shares : List (Nat × Bool × Bytes)
  tiles : Nat := 1
  target : Nat := 0
  blk : Nat := 0
deriving DecidableEq, Repr

/-- R69: what the node records of an image in the flash tier. -/
structure Recorded where
  heats : Bytes := []
  embed : Bytes := []
  bibs : Bytes := []
  parts : Bytes := []
  plan : Bytes := []
  members : Bytes := []
deriving DecidableEq, Repr

/-- Both tiers. The fields from `ops` on stand in the node and are lost at a node reset; those before are the media. -/
structure Tiers where
  /-- R411: FLASH_RAW and SLC_SHARE of the format. -/
  format : Option (Nat × Nat) := none
  /-- R404: Cerone's media table, by Read ID. -/
  media : Tab MediaPart := MediaPart.table
  targets : Tab Target := []
  health : Tab Health := []
  map : Tab Tile := []
  /-- Contents of the tiles of allocations, by tile number and offset; an unlisted byte is 0 (R386). -/
  bytes : Tab Byte := []
  allocs : Tab Alloc := []
  serial : Nat := 1
  seq : Nat := 1
  journal : List JRec := []
  steps : List SRec := []
  /-- R413: map segments in the write buffer, by program: segments, target, block. -/
  segHome : List (List Nat × Nat × Nat) := []
  flushes : Option Flush := none
  runSeq : Option Nat := none
  events : List Bytes := []
  /-- R424: tiles written, read and missed by bib. -/
  bibUse : Tab (Nat × Nat × Nat) := []
  recorded : Option Recorded := none
  /-- The heats of the last run as the flash holds them, by heat number. -/
  heatHome : Tab Heat := []
  /-- R335: rows of embedding tables by table × 2^40 + row, in stored form, as they stand and as the flash holds them; an
  unlisted row is zeros (R340). -/
  rows : Tab Bytes := []
  rowHome : Tab Bytes := []
  ops : Tab FOp := []
  /-- Programs that wait for room, and reads that wait for a tracker entry (R32, R412, R414). -/
  wait : List FOp := []
  stalled : List FOp := []
  /-- R32, R402: since when a unit stalls on the full tracker. -/
  stallAt : Option Nat := none
  dirtySegs : List Nat := []
  /-- R427: flush programs that have still to start, with their targets where these are fixed, and the target of the first copy of
  a record whose second has still to start (R428). -/
  flushTodo : List (Why × Option Nat) := []
  recAt : Option Nat := none
  /-- R387: the split time of the last sweep. -/
  sweptAt : Option Nat := none
  nextTarget : Nat := 0
  dirtied : Nat := 0
  jobs : Tab TierJob := []
  /-- Pinned tiles of the program packages of a partition (R289). -/
  packs : Tab Nat := []
  /-- R382, R390: tiles of the allocation space, and of the tables that are pinned. -/
  sharedBase : Nat := 0
  allocSpace : Nat := 0
  internalPins : Nat := 0
deriving DecidableEq, Repr

end Sys2Proof.Machine
end

