-- ==== Sys2Proof/Machine/State.lean ====
section
/-!
DEFINITION. The state of the node: plain data. Every register field stands in `regs` (or is computed from the
structures here when it is read, Machine/Flags.lean); everything else that the spec gives the node has a field.
-/
namespace Sys2Proof.Machine

/-- Why a step stops with a fault. No behaviour of this block ends in a fault: there is no constructor. -/
inductive Fault
deriving DecidableEq, Repr

/-- Why a step is refused. -/
inductive Refusal where
  /-- Raised by an arm of `exec` whose command has no meaning yet; safe: the model stops where the node goes on. -/
  | notModelled (mnemonic : String)
deriving DecidableEq, Repr

/-- The node itself: everything but the queue of waiting commands. -/
structure Dev where
  /-- Split time, ns (R9, R444). -/
  now : Nat := 0
  /-- Register fields by `Fld.key`; an unlisted field holds its reset value. -/
  regs : Tab Nat := []
  fuses : Fuses := {}
  rom : Rom := {}
  /-- R540: the NOR device; an unlisted byte reads 0xFF (log 9). -/
  nor : Tab Byte := []
  /-- R531, R542: reset has just been released, or is about to be: no boot step has run (log 12). -/
  fresh : Bool := true
  /-- R537: held in reset by the TAP. -/
  jtagHold : Bool := false
  /-- R552: the split time at which internal reset was released, from which PWR_BOOTMS counts; moved by the step of R444. -/
  relAt : Int := 0
  /-- R566: in the RESET of a thermal trip. -/
  thermTrip : Bool := false
  straps : Straps := Straps.mk 0 false false false
  ports : List Port := [{}, {}]
  contracts : Tab Contract := []
  bibs : Tab Bib := []
  wins : Tab Win := []
  rings : Tab Ring := []
  reqs : Tab Req := []
  dmas : Tab Dma := []
  /-- R160: the pieces of buffers that DMA reads have brought so far, by offset. -/
  bufs : Tab (Tab Bytes) := []
  /-- R499: Referee records that are not FREE. -/
  recs : Tab RefRec := []
  /-- R509: units fenced, by TYPE and INSTANCE. -/
  fenced : List (Nat × Nat) := []
  /-- R512: split time of the last vector sent, and whether another is held. -/
  notifiedAt : Option Nat := none
  notifyHeld : Bool := false
  outlets : List Outlet := [{}, {}, {}, {}]
  queues : Tab (List Frame) := []
  pacers : Tab Pacer := []
  /-- R445: consecutive synchronisations within ±100 ns, and the split time of the last one. -/
  ptpCount : Nat := 0
  ptpSync : Option Nat := none
  /-- Both tiers of memory (spec files 16, 17). -/
  fl : Tiers := {}
  /-- The active image's partitions and its slice map by engine and slice (R52; empty before a load). -/
  parts : List Part := []
  sliceMap : Bytes := []
  /-- The vector index and its searches (spec files 07 to 11). -/
  ix : Index := {}
  /-- The embedding tables (spec file 14). -/
  em : Embed := {}
  /-- Infield (spec files 12, 13). -/
  inf : Infield := {}
  /-- The KV pool (spec file 15). -/
  pl : Pool := {}
  /-- The course image loader (spec file 02), the Start List (spec file 03), a recovery load (R545). -/
  ld : Loader := {}
  sl : StartList := {}
  rcv : Option Recovery := none
  /-- The sled slots' removal sequences (spec file 21). -/
  panel : Tab PanelSlot := []
  /-- R102: the cost records of the active image. -/
  costs : List CostRec := []
  /-- The meet (spec file 19). -/
  mt : Meet := {}
  /-- R547: running digest and stored entries of the measurement log; R541, R546: identity key, firmware digest. -/
  measRun : Bytes := fill 64 0
  measLog : List Bytes := []
  idKey : Bytes := fill 32 0
  fwDigest : Bytes := fill 64 0
  /-- R548: QUOTE requests, the one being signed first; R549: KEY_ADMIN requests with their records, the one in force
  first, and whether its fuse write has started. -/
  quotes : List Nat := []
  keyJobs : List (Nat × Bytes) := []
  fuseBusy : Bool := false
  /-- R550: the TAP's instruction: 0 IDCODE, 1 BYPASS, 2 SAMPLE/PRELOAD, 3 EXTEST, 4 CLAMP, 5 HIGHZ (log 20). -/
  jtagInstr : Nat := 0
  /-- R551: the MCTP endpoint ID (log 20). -/
  mctpEid : Nat := 0
  /-- Everything that has left the node, oldest first (log 13). -/
  out : List Emit := []
  /-- How many free values have been drawn (the model's own; log 14). -/
  draws : Nat := 0
  /-- The next number for a request, a read, a list, a batch (the model's own; log 14). -/
  ids : Nat := 1
deriving DecidableEq, Repr

/-- The state: the node, and the commands that wait, first in, first out. -/
structure State where
  dev : Dev
  pending : List Instr
deriving DecidableEq, Repr

/-- The fuses of the part that State.reset describes: an unprogrammed owner, an all-zero identity secret and the
fingerprint that belongs to it (R546). DESIGN CHOICE (log 6). -/
def Fuses.initial : Fuses :=
  { secret := fill 32 0, fingerprint := le 16 318615541166217551214324935521380346855 }

/-- The boot ROM's contents: keys and version the spec does not give. DESIGN CHOICE (log 7). -/
def Rom.initial : Rom := { key0 := fill 32 0, key1 := fill 32 0 }

/-- The machine right after reset: every register at the value its table gives (Fld.info), the power state BOOT before
its first step (R538, log 12), memories with nothing listed, no command waiting. -/
def State.reset : State := { dev := { fuses := Fuses.initial, rom := Rom.initial }, pending := [] }

end Sys2Proof.Machine
end

