-- ==== Sys2Proof/Machine/Ops.lean ====
section
/-!
DEFINITION. The named operations that every family uses: registers, free values, frames into the traffic manager's
queues, completions, Referee records, the wrappers under which a command acts.
-/
namespace Sys2Proof.Machine

/-! ## Status codes (Table 00.4), flags (Table 00.5), sources (Table 20.2) -/

def ST_OK : Nat := 0x00
def ST_DEFERRED : Nat := 0x03
def ST_BAD_DESC : Nat := 0x10
def ST_NO_CREDIT : Nat := 0x11
def ST_BAD_FORMAT : Nat := 0x12
def ST_STALE_EPOCH : Nat := 0x20
def ST_STALE_GEN : Nat := 0x21
def ST_FENCED : Nat := 0x22
def ST_NOT_OWNER : Nat := 0x23
def ST_VERSION_CONFLICT : Nat := 0x24
def ST_VERSION_OLD : Nat := 0x25
def ST_LEASE_EXPIRED : Nat := 0x26
def ST_REFUSED_DEADLINE : Nat := 0x30
def ST_REFUSED_RESOURCE : Nat := 0x31
def ST_BUDGET_EXHAUSTED : Nat := 0x32
def ST_NV_BLOCKED : Nat := 0x40
def ST_MEDIA_ERROR : Nat := 0x41
def ST_SIGNATURE : Nat := 0x50
def ST_TIMEOUT : Nat := 0x51
def ST_INTERNAL : Nat := 0xFF

def FL_SHORT : Nat := 0
def FL_TIE_CUT : Nat := 1
def FL_HEDGED : Nat := 2
def FL_PROMOTED : Nat := 3
def FL_FLASH : Nat := 4
def FL_UNDEFINED : Nat := 5
def FL_REROUTED : Nat := 6

def SRC_CW_PARTIAL : Nat := 0x01
def SRC_CW_NORING : Nat := 0x02
def SRC_CW_RELEASE : Nat := 0x03
def SRC_RING_FULL : Nat := 0x04
def SRC_CW_DMA : Nat := 0x05
def SRC_BINDING_LOST : Nat := 0x06
def SRC_MEDIA_UNCORR : Nat := 0x07
def SRC_DATA_UNCORR : Nat := 0x08
def SRC_DATA_CORR : Nat := 0x09
def SRC_STR_WDOG : Nat := 0x10
def SRC_TILE_WDOG : Nat := 0x11
def SRC_TEARDOWN_STUCK : Nat := 0x12
def SRC_LINK_DEGRADED : Nat := 0x13
def SRC_SLED_LOST : Nat := 0x14
def SRC_MEET_FENCE : Nat := 0x20
def SRC_REF_OVERFLOW : Nat := 0x3F

/-- A flag bit set. -/
def orFlag (f b : Nat) : Nat := if bit f b then f else f + 2 ^ b

/-- R20: the status to report among those met: the lowest failure code, ST_INTERNAL last among them, then
ST_BUDGET_EXHAUSTED, else the given one. -/
def pickStatus (met : List Nat) (ok : Nat) : Nat :=
  let f := met.filter fun s => s != ST_OK && s != ST_DEFERRED && s != ST_BUDGET_EXHAUSTED && s != ST_INTERNAL
  match f with
  | a :: r => r.foldl min a
  | [] => if met.contains ST_INTERNAL then ST_INTERNAL
          else if met.contains ST_BUDGET_EXHAUSTED then ST_BUDGET_EXHAUSTED else ok

/-- R21: the codes of Table 00.4. -/
def statusCodes : List Nat :=
  [ST_OK, ST_DEFERRED, ST_BAD_DESC, ST_NO_CREDIT, ST_BAD_FORMAT, ST_STALE_EPOCH, ST_STALE_GEN, ST_FENCED, ST_NOT_OWNER,
   ST_VERSION_CONFLICT, ST_VERSION_OLD, ST_LEASE_EXPIRED, ST_REFUSED_DEADLINE, ST_REFUSED_RESOURCE, ST_BUDGET_EXHAUSTED,
   ST_NV_BLOCKED, ST_MEDIA_ERROR, ST_SIGNATURE, ST_TIMEOUT, ST_INTERNAL]

/-- R19, R21: what the node writes for a status that reached it: itself where Table 00.4 has it, else ST_INTERNAL. -/
def knownStatus (s : Nat) : Nat := if statusCodes.contains s then s else ST_INTERNAL

/-! ## Registers -/

/-- A register field's stored value. -/
def Dev.rg (d : Dev) (f : Fld) (inst : Nat := 0) (rec : Nat := 0) : Nat := Tab.get f.info.rst d.regs (f.key inst rec)

/-- A register field stored, cut to its width. -/
def Dev.setRg (d : Dev) (f : Fld) (v : Nat) (inst : Nat := 0) (rec : Nat := 0) : Dev :=
  { d with regs := Tab.put f.info.rst d.regs (f.key inst rec) (v % f.top) }

/-- R17: a counter advanced, saturating. -/
def Dev.bump (d : Dev) (f : Fld) (n : Nat := 1) (inst : Nat := 0) (rec : Nat := 0) : Dev :=
  d.setRg f (min (f.top - 1) (d.rg f inst rec + n)) inst rec

/-- A field raised to at least a value. -/
def Dev.raiseTo (d : Dev) (f : Fld) (v : Nat) (inst : Nat := 0) (rec : Nat := 0) : Dev :=
  d.setRg f (min (f.top - 1) (max v (d.rg f inst rec))) inst rec

/-- PWR_STATE.STATE (Table 22.2). -/
def Dev.power (d : Dev) : Nat := d.rg .PWR_STATE_STATE

/-- CI_STATE.STATE (Table 02.8). -/
def Dev.loader (d : Dev) : Nat := d.rg .CI_STATE_STATE

/-- REF_STAT.FENCED: the node fence of R510. -/
def Dev.nodeFenced (d : Dev) : Bool := d.rg .REF_STAT_FENCED = 1

/-- A course image is loaded (R15, R57): the loader is ACTIVE, or it works on the next image while the old one
serves. -/
def Dev.imageLoaded (d : Dev) : Bool := d.rg .CI_LOADS_COUNT ≥ 1

/-! ## Free values, numbers, what leaves -/

/-- A number taken from the model's counter of objects. -/
def Dev.newId (d : Dev) : Nat × Dev := (d.ids, { d with ids := d.ids + 1 })

/-- A draw of a free value. -/
def Dev.draw (d : Dev) : Nat × Dev := (d.draws, { d with draws := d.draws + 1 })

/-- Something leaves the node. -/
def Dev.emit (d : Dev) (e : Emit) : Dev := { d with out := d.out ++ [e] }

/-- A frame that Cerone or a RoCEv2 transport answers with: it leaves at once, outside the queues and bands, which name no place for
it: DESIGN CHOICE (log 154). -/
def Dev.ethSend (d : Dev) (port : Nat) (e : Emit) : Dev := (d.bump .ETH_TXFRAMES_COUNT 1 port).emit e

/-- n bytes that the spec leaves undefined. -/
def Dev.undefBytes (d : Dev) : Nat → Bytes × Dev
  | 0 => ([], d)
  | n + 1 =>
    let (k, d) := d.draw
    let (r, d) := Dev.undefBytes d n
    (Config.undefinedByte k :: r, d)

/-! ## Lookups -/

def Dev.bib (d : Dev) (b : Nat) : Bib := (Tab.find d.bibs b).getD {}
def Dev.win (d : Dev) (k : Nat) : Win := (Tab.find d.wins k).getD {}
def Dev.ring (d : Dev) (k : Nat) : Ring := (Tab.find d.rings k).getD {}
def Dev.port (d : Dev) (p : Nat) : Port := d.ports.getD p {}
def Dev.outlet (d : Dev) (o : Nat) : Outlet := d.outlets.getD o {}

def Dev.setBib (d : Dev) (b : Nat) (v : Bib) : Dev := { d with bibs := Tab.ins d.bibs b v }
def Dev.updBib (d : Dev) (b : Nat) (f : Bib → Bib) : Dev := { d with bibs := Tab.upd d.bibs b f }
def Dev.setWin (d : Dev) (k : Nat) (v : Win) : Dev := { d with wins := Tab.ins d.wins k v }
def Dev.updWin (d : Dev) (k : Nat) (f : Win → Win) : Dev := d.setWin k (f (d.win k))
def Dev.setRing (d : Dev) (k : Nat) (v : Ring) : Dev := { d with rings := Tab.ins d.rings k v }
def Dev.updRing (d : Dev) (k : Nat) (f : Ring → Ring) : Dev := d.setRing k (f (d.ring k))
def Dev.setReq (d : Dev) (r : Nat) (v : Req) : Dev := { d with reqs := Tab.ins d.reqs r v }
def Dev.updReq (d : Dev) (r : Nat) (f : Req → Req) : Dev := { d with reqs := Tab.upd d.reqs r f }
def Dev.updPort (d : Dev) (p : Nat) (f : Port → Port) : Dev := { d with ports := updAt d.ports p f }
def Dev.updOutlet (d : Dev) (o : Nat) (f : Outlet → Outlet) : Dev := { d with outlets := updAt d.outlets o f }

/-- Whether a request is being served: admitted and not ended. -/
def Req.live (r : Req) : Bool := !r.waiting && !r.ended

/-- The window numbers: service window w of bib b on path p; 16,384 + port for a PF0 admin window. -/
def bibWin (b path w : Nat) : Nat := (b * 2 + path) * 8 + w
def pf0Win (port : Nat) : Nat := 16384 + port
def winIsPf0 (k : Nat) : Bool := k ≥ 16384
def winBib (k : Nat) : Nat := k / 16
def winPath (k : Nat) : Nat := k / 8 % 2
def winSvc (k : Nat) : Nat := if winIsPf0 k then 7 else k % 8

/-- Where the traffic of a binding goes. -/
def Binding.dest (b : Nat) (x : Binding) : Dest := if x.kind = 2 then .fab b x.port else .pcie x.port x.vf

/-- Where the traffic of a window's requests goes (R130, R446): a window of the path left by a composition change keeps
the old binding. -/
def Dev.winDest (d : Dev) (k : Nat) : Dest :=
  if winIsPf0 k then .pcie (k - 16384) 0
  else
    let x := d.bib (winBib k)
    if winPath k = x.path then x.bind.dest (winBib k) else x.prev.dest (winBib k)

/-- The outlet of a destination: 0 ETH0, 1 ETH1, 2 PCIE_A, 3 PCIE_B (R446). -/
def Dest.outlet : Dest → Nat
  | .pcie p _ => 2 + p
  | .fab _ e => e

/-- The subscriber number: a bib, or 1,024 for the node (R456). -/
def subOf (bib : Option Nat) : Nat := bib.getD 1024

/-- The number of a queue (R446). -/
def queueKey (outlet sub svc : Nat) : Nat := (outlet * 1025 + sub) * 8 + svc

/-! ## Frames (R449 to R451) -/

/-- R449: the line rate of an outlet, bytes per second. -/
def Dev.lineRate (d : Dev) (o : Nat) : Nat :=
  if o < 2 then (if (d.outlet o).mode = 1 then 50000000000 else 100000000000)
  else
    let p := d.port (o - 2)
    let (r, w) := if d.imageLoaded then (p.loadRate, p.loadWidth) else (p.rate, p.width)
    63015000000 * (r * w) / 512

/-- R449: outlet time of a counted length, ns. -/
def Dev.txTime (d : Dev) (o n : Nat) : Nat := ceilDiv (n * 1000000000) (max 1 (d.lineRate o))

/-- R451: a length with OVERHEAD for each of k packets, at least 1. -/
def Outlet.counted (o : Outlet) (n k : Nat) : Nat := max 1 ((n : Int) + o.overhead * k).toNat

/-- R450, R451: headers of one RoCEv2 RDMA WRITE packet on the wire, FCS included: Ethernet with one tag 18, IPv6 40,
UDP 8, BTH 12, RETH 16, ICRC 4, FCS 4. PRESUMED from the published standards (log 35). -/
def roceHeader : Nat := 102

/-- TLPs of a burst (R450). -/
def Dev.tlps (d : Dev) (port n : Nat) : Nat := ceilDiv n (max 1 (d.port port).mps)

/-- Counted length of a frame of n payload bytes toward a destination (R451). -/
def Dev.frameLen (d : Dev) (dst : Dest) (n : Nat) : Nat :=
  match dst with
  | .pcie p _ => (d.outlet (2 + p)).counted n (d.tlps p n)
  | .fab _ e => (d.outlet e).counted (max 64 (n + roceHeader)) 1

/-- R451: the largest counted length of an outlet, L_max. -/
def Dev.lMax (d : Dev) (o : Nat) : Nat :=
  let x := d.outlet o
  if o < 2 then x.counted x.maxFrame 1 else x.counted x.maxFrame (d.tlps (o - 2) x.maxFrame)

/-- R446: a frame enters the end of a queue; it becomes head now if the queue is empty. -/
def Dev.pushFrame (d : Dev) (o sub svc : Nat) (f : Frame) : Dev :=
  let k := queueKey o sub svc
  let q := (Tab.find d.queues k).getD []
  { d with queues := Tab.ins d.queues k (q ++ [{ f with since := d.now }]) }

/-- R448: a frame enters an outlet's control queue. -/
def Dev.pushCtl (d : Dev) (o : Nat) (len : Nat) (e : List Emit) : Dev :=
  d.updOutlet o fun x => { x with ctl := x.ctl ++ [{ len := len, charge := len, emits := e, since := d.now }] }

/-- R448: the completion of a register read, in CONTROL. -/
def Dev.answerRead (d : Dev) (port : Nat) (b : Bytes) : Dev :=
  d.pushCtl (2 + port) ((d.outlet (2 + port)).counted b.length 1) [.readData port b]

/-- R450: the pieces of a write: at most the frame's bytes, on a PCIe outlet within one 4 KiB page; by fuel. -/
def pieces (paged : Bool) (lim : Nat) : Nat → Nat → Bytes → List (Nat × Bytes)
  | 0, _, _ => []
  | f + 1, a, b =>
    if b.isEmpty then []
    else
      let n := min (max 1 lim) (if paged then 4096 - a % 4096 else 4096)
      (a, b.take n) :: pieces paged lim f (a + n) (b.drop n)

/-- Payload bytes that one frame of a destination carries (R439, R450). -/
def Dev.frameRoom (d : Dev) (dst : Dest) : Nat :=
  match dst with
  | .pcie p _ => (d.outlet (2 + p)).maxFrame
  | .fab _ e => min 4096 ((d.outlet e).maxFrame - roceHeader)

/-- R442: whether a key record holds a region around a range. -/
def inRegions (keys : Option Bytes) (addr len : Nat) : Bool :=
  match keys with
  | none => false
  | some k => [0, 1, 2, 3].any fun i =>
      let va := u64 k (16 * i)
      let n := u32 k (16 * i + 8) * 4096
      n > 0 && va ≤ addr && addr + len ≤ va + n

/-- R442, R130: the key record that the requests of a window use. -/
def Dev.winKeys (d : Dev) (k : Nat) : Option Bytes :=
  let x := d.bib (winBib k)
  if winPath k = x.path then x.keys else x.oldKeys

/-- Whether a DMA of a window's request finds its range (R442); a PCIe range is the host IOMMU's. -/
def Dev.dmaOk (d : Dev) (k addr len : Nat) : Bool :=
  match d.winDest k with
  | .pcie _ _ => true
  | .fab _ _ => inRegions (d.winKeys k) addr len

/-- Data frames of a window's request toward its host (R446, R448): the request's queue, the bytes in order. -/
def Dev.sendData (d : Dev) (k : Nat) (req : Option Nat) (addr : Nat) (b : Bytes) : Dev :=
  let dst := d.winDest k
  let sub := if winIsPf0 k then 1024 else winBib k
  (pieces (2 ≤ dst.outlet) (d.frameRoom dst) (b.length + 1) addr b).foldl (fun d p =>
    let n := d.frameLen dst p.2.length
    let d := match req with
      | some r => d.updReq r fun x => { x with sent := x.sent + n }
      | none => d
    d.pushFrame dst.outlet sub (winSvc k)
      { len := n, charge := n, dest := dst, req := req, emits := [.dmaWrite dst p.1 p.2] }) d

/-- R152, R159: an MSI-X message leaves where the function has MSI-X enabled and the vector is not masked; a masked
vector's pending bit is set instead. -/
def Dev.sendMsix (d : Dev) (p fn v : Nat) : Dev :=
  let m := (Tab.find (d.port p).msix fn).getD {}
  if !m.enabled then d
  else if m.unmasked.contains v then d.emit (.msix p fn v)
  else d.updPort p fun x =>
    { x with msix := Tab.ins x.msix fn { m with pendingVecs := insertBy (· < ·) v (m.pendingVecs.filter (· != v)) } }

/-- What a frame carries leaves; a read request that has left is outstanding (R159). -/
def Dev.release (d : Dev) (e : Emit) : Dev :=
  match e with
  | .msix p fn v => d.sendMsix p fn v
  | .dmaRead x n a l => ({ d with dmas := Tab.upd d.dmas n fun m => { m with sent := true } } : Dev).emit (.dmaRead x n a l)
  | e => d.emit e

/-! ## Completions (R143 to R152) -/

/-- The ring of a window: ring r of its bib and path, or the PF0 ring. -/
def ringKey (k r : Nat) : Nat := if winIsPf0 k then k else bibWin (winBib k) (winPath k) r

/-- Bytes of a completion entry (Table 06.4). -/
def entryBytes (c : Cpl) (flags load phase : Nat) : Bytes :=
  le 16 c.result ++ le 4 c.tag ++ le 1 c.status ++ le 1 flags ++ le 2 load ++
  le 2 (winSvc c.win * 8192 + c.credits) ++ le 2 c.gen ++ le 1 c.opcode ++ le 2 0 ++ le 1 (phase * 128)

/-- R149: entries of a ring in use. -/
def Ring.used (r : Ring) : Nat := (r.written + 4294967296 - r.head % 4294967296) % 4294967296

/-- R149: free entries of a ring. -/
def Ring.free (r : Ring) : Nat := 2 ^ r.size - r.used

/-- Where the entries and interrupts of a ring go. -/
def Dev.ringDest (d : Dev) (rk : Nat) : Dest :=
  if winIsPf0 rk then .pcie (rk - 16384) 0 else d.winDest (bibWin (winBib rk) (winPath rk) 0)

/-- R148: an entry takes the next slot of its ring, and its frame enters the queue. `rk` is the ring, `c` carries its
credits. An entry that is REROUTED counts as it is written (Table 05.5). -/
def Dev.writeEntry (d : Dev) (rk : Nat) (c : Cpl) : Dev :=
  let r := d.ring rk
  let n := r.written
  let dst := d.ringDest rk
  let sub := if winIsPf0 c.win then 1024 else winBib c.win
  let len := d.frameLen dst 32
  let d := d.setRing rk { r with written := (n + 1) % 4294967296 }
  let d := if c.rerouted then d.bump .BIBTAB_REROUTED_COUNT else d
  let d := match c.req with
    | some q => d.updReq q fun x => { x with sent := x.sent + len }
    | none => d
  d.pushFrame dst.outlet sub (winSvc c.win)
    { len := len, charge := len, dest := dst, entry := some c, slotAddr := r.base + n % 2 ^ r.size * 32
      phase := (n / 2 ^ r.size + 1) % 2, ring := some rk, setup := r.setup, req := c.req }

/-- R156: a configuration of a ring ends: the entries written under it keep its moderation. -/
def Ring.close (x : Ring) : Ring :=
  { x with past := Tab.ins x.past x.setup
             { vec := x.vec, modCount := x.modCount, modTime := x.modTime, unsig := x.unsig, firstAt := x.firstAt
               lastAddr := x.lastAddr, dest := x.lastDest }
           setup := x.setup + 1, unsig := 0 }

/-- R148, R156: a ring as a ring record configures it; its write count starts at 0 at every RING_SET that enables it. -/
def Ring.configure (x : Ring) (r : RingRec) : Ring :=
  let x := x.close
  if !r.en then { x with en := false }
  else
    { x with base := r.base, size := r.size, vec := r.vec, modCount := r.modCount, modTime := r.modTime, en := true
             written := 0, head := 0 }

/-- R156: a ring that has lost its configuration. -/
def Ring.cleared (x : Ring) : Ring := { setup := x.close.setup, past := x.close.past }

/-- R156: the configuration that waited for the entry of its RING_SET takes effect. -/
def Dev.configAfter (d : Dev) (rk : Nat) (c : Cpl) : Dev :=
  match c.config with
  | some x => d.updRing rk fun y => y.configure x
  | none => d

/-- R99: statuses that excuse a request. -/
def excusingStatus (s : Nat) : Bool :=
  s == ST_BAD_DESC || s == ST_NO_CREDIT || s == ST_BAD_FORMAT || s == ST_STALE_EPOCH || s == ST_STALE_GEN || s == ST_FENCED

/-- R111: the counters of a contract's record at a completion of one of its requests; a record freed since, or taken by
another contract, counts nothing. -/
def Dev.countContract (d : Dev) (c : Cpl) (excused : Bool) (latencyNs : Nat) : Dev :=
  match c.judged with
  | none => d
  | some j =>
    let n := j.record
    if !((Tab.find d.contracts n).any fun x => x.uid == j.uid) then d
    else
      let d := d.bump .CONTR_COMPLETED_COUNT 1 0 n
      if excused then d.bump .CONTR_EXCUSED_COUNT 1 0 n
      else if !j.conforming then d.bump .CONTR_NONCONF_COUNT 1 0 n
      else
        let d := if c.misses > j.miss999 then d.bump .CONTR_OVERWORK_COUNT 1 0 n else d
        let d := if c.misses ≤ j.miss50 && latencyNs > j.p50 * 1000 then d.bump .CONTR_OVER50_COUNT 1 0 n else d
        let d := if c.misses ≤ j.miss99 && latencyNs > j.p99 * 1000 then d.bump .CONTR_OVER99_COUNT 1 0 n else d
        if c.misses ≤ j.miss999 && latencyNs > j.p999 * 1000 then d.bump .CONTR_OVER999_COUNT 1 0 n else d

/-- R99: whether a completion's request is excused by now. -/
def Dev.isExcused (d : Dev) (c : Cpl) : Bool :=
  c.excused || excusingStatus c.status || (match c.req.bind fun r => Tab.find d.reqs r with | some q => q.excused | none => false)

/-- R111: a completion that is discarded counts as one that ends now. -/
def Dev.discardCpl (d : Dev) (c : Cpl) : Dev := d.countContract c (d.isExcused c) (d.now - c.landed)

/-- R140, R17: a window's accumulator with credits added; it saturates at its width. -/
def Win.credit (w : Win) (n : Nat) : Win := { w with accum := min 511 (w.accum + n) }

/-- R130: a completion goes by the new path, REROUTED, when its request was routed by the old map and completes at or
after T0 + 2 ms. -/
def Dev.reroutes (d : Dev) (k : Nat) : Bool :=
  !winIsPf0 k && winPath k != (d.bib (winBib k)).path && (d.bib (winBib k)).t0 + 2000000 ≤ d.now

/-- R143, R156: the ring that a completion is written to: the named one where enabled, else ring 0. -/
def Dev.targetRing (d : Dev) (k r : Nat) : Nat :=
  if winIsPf0 k then k else if (d.ring (ringKey k r)).en then ringKey k r else ringKey k 0

/-- R145, R147, R150: a completion is built. It takes its window's accumulator as CREDITS (0 where REROUTED), and its
entry is written, or waits for ring space; an ST_NO_CREDIT completion never waits. Where neither the named ring nor ring 0
is enabled any more, the completion is discarded and only its contract counts it: DESIGN CHOICE (log 104). CREDITS holds at
most 256, and what an accumulator holds above that stays there: DESIGN CHOICE (log 134). -/
def Dev.post (d : Dev) (c : Cpl) : Dev :=
  let re := c.req.isSome && d.reroutes c.win
  let k := if re then bibWin (winBib c.win) (d.bib (winBib c.win)).path (c.win % 8) else c.win
  let rk := d.targetRing k c.ring
  let r := d.ring rk
  let full := r.free = 0
  if !r.en then d.discardCpl c
  else if full && c.status = ST_NO_CREDIT then d
  else
    let w := d.win c.win
    let credits := if re then 0 else min 256 w.accum
    let d := if re then d else d.setWin c.win { w with accum := w.accum - credits }
    let c := { c with credits := credits, rerouted := re, flags := if re then orFlag c.flags FL_REROUTED else c.flags }
    if full || !r.wait.isEmpty then d.setRing rk { r with wait := r.wait ++ [(d.now, c)] }
    else (d.writeEntry rk c).configAfter rk c

/-- R147: completions that wait for a ring which has lost its configuration are discarded: their CREDITS return to their
windows and their contracts count them. DESIGN CHOICE (log 104). -/
def Dev.dropWaiting (d : Dev) (late : List (Nat × Cpl)) : Dev :=
  late.foldl (fun d p =>
    (if p.2.rerouted then d else d.updWin p.2.win fun w => w.credit p.2.credits).discardCpl p.2) d

/-- A ring loses its configuration (R156, R161), and what waits for it with it. -/
def Dev.clearRing (d : Dev) (rk : Nat) : Dev :=
  let r := d.ring rk
  (d.setRing rk r.cleared).dropWaiting r.wait

/-- R130: the drain of a composition change ends with the last request routed by the old map; one whose completion waits for
ring space has not completed. -/
def Dev.endDrain (d : Dev) (b : Nat) : Dev :=
  let x := d.bib b
  match x.old with
  | none => d
  | some _ =>
    let mine (k : Nat) : Bool := !winIsPf0 k && winBib k == b && winPath k != x.path
    if (d.reqs.any fun p => !p.2.ended && mine p.2.win) || d.rings.any fun p => p.2.wait.any fun w => mine w.2.win then d
    else d.setBib b { x with old := none, oldKeys := none }

/-- The RESULT of a failure found before the request's buffer was read: the lowest of that status, else 0 (R20). -/
def Req.preResult (q : Req) (st : Nat) : Nat :=
  match q.pre.filter fun p => p.1 == st with
  | [] => 0
  | p :: l => if q.fails.contains st then 0 else l.foldl (fun b x => min b x.2) p.2

/-- CI_STATE.LAST_STATUS, CONTR_LAST and BIBTAB_CHG tell of the last command of their opcode that completed (R71, R112,
R135). -/
def Dev.noteOutcome (d : Dev) (desc : Bytes) (st : Nat) : Dev :=
  match u8 desc 0 with
  | 0x60 => d.setRg .CI_STATE_LAST_STATUS st
  | 0x61 => (d.setRg .CONTR_LAST_BIB (u16 desc 0x10)).setRg .CONTR_LAST_STATUS st
  | 0x65 => (d.setRg .BIBTAB_CHG_BIB (u16 desc 0x10)).setRg .BIBTAB_CHG_STATUS st
  | _ => d

/-- R20: the status with which a request ends that would end with `status`: the lowest failure code among it and the failures
that the request met before. -/
def Req.outcome (q : Req) (status : Nat) : Nat :=
  pickStatus (knownStatus status :: (q.fails ++ q.pre.map (·.1))) (knownStatus status)

/-- A request ends: its completion is built with a status, flags and RESULT (R20, R147). Its context stays taken until
CONTEXT_FREE; a request that has ended ends no more. `config` is the change of its own ring that a RING_SET brings. -/
def Dev.complete (d : Dev) (r : Nat) (status : Nat) (result : Nat := 0) (config : Option RingRec := none) : Dev :=
  match Tab.find d.reqs r with
  | none => d
  | some q =>
    if q.ended then d
    else
      let st := q.outcome status
      let c : Cpl :=
        { win := q.win, bib := q.bib, ring := u8 q.desc 1 % 8, tag := u32 q.desc 4, gen := q.gen, opcode := u8 q.desc 0
          irq := bit (u8 q.desc 2) 0, landed := q.landed, status := st, flags := q.flags
          result := if st = status || st = ST_BUDGET_EXHAUSTED then result else q.preResult st
          req := some r, judged := q.judged, excused := q.excused, misses := q.misses, config := config }
      let d := (d.setReq r { q with ended := true, waiting := false, dmas := 0 }).noteOutcome q.desc st
      let d := if q.mute then d else d.post c
      if winIsPf0 q.win then d else d.endDrain (winBib q.win)

/-- A waiting descriptor leaves its FIFO and its slot's credit returns to the accumulator (R145). -/
def Dev.leaveFifo (d : Dev) (r : Nat) : Dev :=
  match Tab.find d.reqs r with
  | none => d
  | some q =>
    let d := d.updWin q.win fun w => { w.credit 1 with fifo := w.fifo.filter (· != r) }
    d.setReq r { q with waiting := false }

/-- Completion of a request whether it waits in its FIFO or runs. -/
def Dev.endReq (d : Dev) (r : Nat) (status : Nat) (result : Nat := 0) : Dev :=
  match Tab.find d.reqs r with
  | none => d
  | some q => (if q.waiting then d.leaveFifo r else d).complete r status result

/-- A request ends whose own conditions decide, else the given status (R20). -/
def Dev.finish (d : Dev) (r : Nat) (ok : Nat) (result : Nat := 0) : Dev := d.complete r ok result

/-- A failure that a request meets before it ends. -/
def Dev.addFail (d : Dev) (r : Nat) (s : Nat) : Dev := d.updReq r fun q => { q with fails := q.fails ++ [s] }

/-- A flag that a request's completion will carry. -/
def Dev.addFlag (d : Dev) (r : Nat) (b : Nat) : Dev := d.updReq r fun q => { q with flags := orFlag q.flags b }

/-- R99: requests of a bib, or all requests, become excused; those in flight whose entry has not left yet with them (R96). -/
def Dev.excuse (d : Dev) (bib : Option Nat) : Dev :=
  { d with reqs := Tab.mapV d.reqs fun _ q =>
      if bib.isNone || q.bib == bib then { q with excused := true } else q }

/-- The requests that satisfy a test end with a status. -/
def Dev.endAll (d : Dev) (f : Req → Bool) (status : Nat) : Dev :=
  (d.reqs.filter fun p => !p.2.ended && f p.2).foldl (fun d p => d.endReq p.1 status) d

/-- R124, R125: admitted work and FIFOs of a bib complete with ST_FENCED; what has joined a commit group goes on. -/
def Dev.fenceBib (d : Dev) (b : Nat) : Dev := d.endAll (fun q => q.bib == some b && !q.joined) ST_FENCED

/-! ## The Referee (R497 to R515) -/

/-- Table 20.2: class of a source. -/
def srcClass (s : Nat) : Nat :=
  if s = SRC_DATA_CORR then 0
  else if s = SRC_BINDING_LOST then 2
  else if s = SRC_STR_WDOG || s = SRC_TILE_WDOG || s = SRC_TEARDOWN_STUCK || s = SRC_LINK_DEGRADED || s = SRC_SLED_LOST
    then 3
  else if s = SRC_MEET_FENCE then 4
  else 1

/-- R499: the record reserved for a bib and a source. -/
def bibRec (b s : Nat) : Nat := 8 * b + (s - 1)

/-- R499: the record reserved for REF_OVERFLOW. -/
def recOverflow : Nat := 10239

/-- Table 20.2: whether reaching UNIT_FATAL with a source fences the unit. -/
def srcFences (s : Nat) : Bool := s != SRC_LINK_DEGRADED

/-- R511: ERR_N is held low while an uncleared record has a class at or above ERRCLASS. -/
def Dev.errN (d : Dev) : Bool :=
  let k := d.rg .REF_CFG_ERRCLASS
  k ≤ 4 && d.recs.any fun p => k ≤ p.2.cls

/-- R512: the vector on each port whose PF0 has MSI-X enabled. -/
def Dev.refVector (d : Dev) : Dev :=
  let v := d.rg .REF_CFG_VEC
  let d := [0, 1].foldl (fun d p =>
    let m := (Tab.find (d.port p).msix 0).getD {}
    if m.enabled then d.pushCtl (2 + p) ((d.outlet (2 + p)).counted 4 1) [.msix p 0 v] else d) d
  { d with notifiedAt := some d.now, notifyHeld := false }

/-- R512: the notification of a record that opened or rose: at most one vector per port in 10 µs. -/
def Dev.notify (d : Dev) (cls : Nat) : Dev :=
  if cls < d.rg .REF_CFG_NOTIFY then d
  else
    let d := d.setRg .REF_PEND_PEND 1
    let soon := match d.notifiedAt with
      | some t => decide (d.now < t + 10000)
      | none => false
    if soon then { d with notifyHeld := true } else d.refVector

/-- R509: a unit takes no new work; the fault interrupts the node's requests, which are excused (R99). -/
def Dev.fenceUnit (d : Dev) (ty inst : Nat) : Dev :=
  if d.fenced.contains (ty, inst) then d else { d.excuse none with fenced := (ty, inst) :: d.fenced }

def Dev.isFenced (d : Dev) (ty inst : Nat) : Bool := d.fenced.contains (ty, inst)

/-- Table 05.3, BIB_FATAL: an ACTIVE bib enters HALTED, and its admitted work and FIFOs complete with ST_FENCED. -/
def Dev.bibFatal (d : Dev) (b : Nat) : Dev :=
  let d := d.excuse (some b)
  if (d.bib b).state = 2 then (d.updBib b fun x => { x with state := 3 }).fenceBib b else d

/-- R510, R427: a load that has not reached APPLYING is abandoned; an image being stored to NOR goes on being stored. -/
def Dev.dropLoad (d : Dev) : Dev :=
  if d.ld.busy && 1 ≤ d.loader && d.loader ≤ 3 then
    let d := (d.setRg .CI_STATE_STATE d.ld.back).setRg .CI_STATE_LAST_STATUS ST_FENCED
    { d with ld := { d.ld with busy := false, req := none, image := [], ready := false } }
  else d

/-- R510: the node fence. A load in APPLYING goes on, its request with it. -/
def Dev.fenceNode (d : Dev) : Dev :=
  if d.nodeFenced then d
  else
    let d := (d.setRg .REF_STAT_FENCED 1).excuse none
    let keep := if d.loader = 4 then d.ld.req else none
    let d := (d.reqs.filter fun p => !p.2.ended && keep != some p.1).foldl (fun d p => d.endReq p.1 ST_FENCED) d
    d.dropLoad

/-- R540: the NOR slots of the firmware image and of the course image. -/
def norFw : Nat := 0
def norCi : Nat := 0x1000000

/-- R64: a NOR slot is erased, and so many bytes of an image are stored in it. -/
def Dev.norStore (d : Dev) (slot : Nat) (img : Bytes) : Dev :=
  { d with nor := Tab.putRun 0xFF#8 (Tab.clearRange d.nor slot (slot + 0x1000000)) slot img }

/-- R64, R545: a NOR write in progress is cut short; how much of it stands is free (log 69). -/
def Dev.cutNor (d : Dev) : Dev :=
  let cut (d : Dev) (slot : Nat) (img : Bytes) : Dev :=
    let (k, d) := d.draw
    d.norStore slot (img.take (Config.norCut k % (img.length + 1)))
  let d := match d.ld.nor with
    | some img => cut { d with ld := { d.ld with nor := none } } norCi img
    | none => d
  match d.rcv with
  | some x => if x.writing then cut { d with rcv := some { x with writing := false } } norFw x.image else d
  | none => d

/-- The action of a class reached, against a scope (Table 20.1). -/
def Dev.classAction (d : Dev) (cls src : Nat) (bib : Option Nat) (ty inst : Nat) : Dev :=
  match bib with
  | some b => if cls = 2 then d.bibFatal b else d
  | none =>
    if cls = 3 then (if srcFences src then d.fenceUnit ty inst else d)
    else if cls = 4 then d.fenceNode
    else d

/-- R501: where a unit-scope error goes: its uncleared record, else the lowest FREE one, else the CORRECTED record of
oldest TIME, else the overflow record. The second part says whether a record is replaced. -/
def Dev.unitSlot (d : Dev) (src ty inst : Nat) : Nat × Bool :=
  let us := d.recs.filter fun p => 8192 ≤ p.1 && p.1 < recOverflow
  match us.find? fun p => p.2.source == src && p.2.utype == ty && p.2.uinst == inst with
  | some p => (p.1, false)
  | none =>
    let free := us.foldl (fun n p => if p.1 = n then n + 1 else n) 8192
    if free < recOverflow then (free, false)
    else
      match us.filter fun p => p.2.cls == 0 with
      | [] => (recOverflow, false)
      | p :: r => ((r.foldl (fun (a : Nat × RefRec) b => if b.2.time < a.2.time then b else a) p).1, true)

/-- R500 to R502: the Referee takes an error. -/
def Dev.report (d : Dev) (src ty inst : Nat) (bib : Option Nat) (addr access : Nat) : Dev :=
  let bibScope := src ≤ 8 && bib.isSome
  let sc := if bibScope then bib else none
  let cls := srcClass src
  let (n, repl) := match sc with
    | some b => (bibRec b src, false)
    | none => d.unitSlot src ty inst
  let d := d.bump .REF_ERRORS_COUNT
  let d := if repl then { d.bump .REF_REPLACED_COUNT with recs := Tab.del d.recs n } else d
  let d := if sc.isNone && n = recOverflow then d.bump .REF_MERGED_COUNT else d
  let overflow := sc.isNone && n = recOverflow
  match Tab.find d.recs n with
  | some r =>
    let c := min 4294967295 (r.count + 1)
    if cls > r.cls then
      let d := { d with recs := Tab.ins d.recs n { r with count := c, cls := cls, state := 1, since := d.now, resetDone := false } }
      (d.classAction cls src sc ty inst).notify cls
    else
      let d := { d with recs := Tab.ins d.recs n { r with count := c } }
      if overflow || (sc.isSome && cls = 2) then d.classAction cls src sc ty inst else d
  | none =>
    let r : RefRec :=
      { addr := addr % 2 ^ 64, time := d.now, utype := ty, uinst := inst, bib := sc
        gen := match sc with | some b => (d.bib b).gen | none => 0
        count := 1, source := if overflow then SRC_REF_OVERFLOW else src, access := access, cls := cls, state := 1
        steps := 0, since := d.now }
    let d := { d with recs := Tab.ins d.recs n r }
    (d.classAction cls src sc ty inst).notify cls

/-- ADDR of an error in a stack or an SRAM (Table 20.2): the offset is free. -/
def Dev.stackAddr (d : Dev) (stack : Nat) : Nat × Dev :=
  let (k, d) := d.draw
  (stack * 2 ^ 56 + Config.errorOffset k % 2 ^ 56, d)

/-- An error of a stack read (type STK) or of an SRAM (another type), with its free offset. -/
def Dev.reportData (d : Dev) (src ty inst : Nat) (bib : Option Nat) (access : Nat) : Dev :=
  let (a, d) := d.stackAddr (if ty = 0x30 then inst else 0)
  d.report src ty inst bib a access

/-- R508: every uncleared record of a bib becomes RESOLVED. -/
def Dev.resolveBib (d : Dev) (b : Nat) : Dev :=
  { d with recs := Tab.mapV d.recs fun n r => if n < 8192 && n / 8 == b then { r with state := 3 } else r }

/-- A fault that chapter 06 raises against a bib; in a PF0 admin window, against the ADMIN block of the port (R157). -/
def Dev.reportWin (d : Dev) (src k addr access : Nat) : Dev :=
  if winIsPf0 k then d.report src 7 (k - 16384) none addr access
  else
    match d.winDest k with
    | .pcie p _ => d.report src 6 p (some (winBib k)) addr access
    | .fab _ e => d.report src 0x51 e (some (winBib k)) addr access

/-! ## DMA of a request (R160, R442) -/

/-- A data write of a request: frames toward its host. A range in no region of a fabric bib fails it as Unsupported
Request does. -/
def Dev.dmaWrite (d : Dev) (r addr : Nat) (b : Bytes) : Dev :=
  match Tab.find d.reqs r with
  | none => d
  | some q =>
    if d.dmaOk q.win addr b.length then d.sendData q.win (some r) addr b
    else (d.reportWin SRC_CW_DMA q.win addr 4).addFail r ST_BAD_DESC

/-- R159: the most bytes that one read request of a destination asks for: Max Read Request Size, and no more than the outlet's
largest frame, so that every Pacer can let it pass (log 135). -/
def Dev.readSize (d : Dev) (dst : Dest) : Nat :=
  match dst with
  | .pcie p _ => max 64 (min (d.port p).mrrs (d.outlet (2 + p)).maxFrame)
  | .fab _ e => max 64 (min 4096 ((d.outlet e).maxFrame - roceHeader))

/-- The read requests that carry a read: at most so many bytes each, within one 4 KiB page, by offset; by fuel. -/
def readPieces (lim : Nat) : Nat → Nat → Nat → Nat → List (Nat × Nat)
  | 0, _, _, _ => []
  | f + 1, addr, off, len =>
    let n := min len (min (max 1 lim) (4096 - (addr + off) % 4096))
    if len ≤ n then [(off, len)] else (off, n) :: readPieces lim f addr (off + n) (len - n)

/-- One read request of a buffer: its frame enters the request's queue, and DMA_READ_DONE answers it. -/
def Dev.readPiece (d : Dev) (r slot buf addr : Nat) (q : Req) (p : Nat × Nat) : Dev :=
  let dst := d.winDest q.win
  let o := d.outlet dst.outlet
  let sub := if winIsPf0 q.win then 1024 else winBib q.win
  let (port, flen) := match dst with
    | .pcie p _ => (p, o.counted 0 1)
    | .fab _ e => (2 + e, o.counted (max 64 roceHeader) 1)
  let (n, d) := d.newId
  let m : Dma := { req := r, slot := slot, addr := addr + p.1, len := p.2, bib := q.bib, port := port, buf := buf, off := p.1 }
  let d : Dev := { d with dmas := Tab.ins d.dmas n m }
  (d.updReq r fun x => { x with sent := x.sent + flen }).pushFrame dst.outlet sub (winSvc q.win)
    { len := flen, charge := o.counted p.2 1, dest := dst, req := some r, reads := 1
      emits := [.dmaRead dst n (addr + p.1) p.2] }

/-- A DMA read of a request: the frames of its read requests enter the request's queue. `slot` tells the request's buffers
apart. -/
def Dev.dmaRead (d : Dev) (r slot addr len : Nat) : Dev :=
  match Tab.find d.reqs r with
  | none => d
  | some q =>
    if !d.dmaOk q.win addr len then (d.reportWin SRC_CW_DMA q.win addr 3).addFail r ST_BAD_DESC
    else
      let (buf, d) := d.newId
      let d := ({ d with bufs := Tab.ins d.bufs buf [] } : Dev).updReq r fun x => { x with dmas := x.dmas + 1 }
      (readPieces (d.readSize (d.winDest q.win)) (len + 1) addr 0 len).foldl (fun d p => d.readPiece r slot buf addr q p) d

/-! ## The wrappers under which a command acts -/

/-- Split time at a command: it never goes back (R444, log 1). -/
def Dev.advance (d : Dev) (t : Nat) : Dev := { d with now := max d.now t }

/-- MGMT runs: every power state except OFF and RESET, and the RESET of a thermal trip (R551, R566). -/
def Dev.mgmtOn (d : Dev) : Bool := d.power ≥ 2 || d.thermTrip

/-- Every domain runs and no flush is under way: BOOT, READY, ACTIVE (Table 22.2, R427, R532). -/
def Dev.coreOn (d : Dev) : Bool := 2 ≤ d.power && d.power ≤ 4

/-- Hosts reach the node: in every power state in which its ports run. -/
def Dev.portsOn (d : Dev) : Bool := d.coreOn || d.power == 7

/-- The block space answers: not from the start of APPLYING until the layout stands again (R91), but for the ADMIN
blocks. -/
def Dev.blockOpen (d : Dev) (blk inst : Nat) : Bool :=
  (d.sl.ents.any fun e => e.type == blk && e.inst == inst && !e.off && e.bar == 0) && (d.loader != 4 || blk == 7)

/-- R76: an access outside every block, or not naturally aligned. -/
def Dev.strayAccess (d : Dev) (port : Nat) (isWrite : Bool) (size : Nat) : Dev :=
  let d := d.bump .ID_STRAY_COUNT
  if isWrite then d else d.answerRead port (fill size 0)

/-- A write that reaches a block acts on it; where the block space does not answer, or the block is OFF, it is R76's. -/
def Dev.onBlock (d : Dev) (blk inst : Nat) (f : Dev → Dev) : Dev :=
  if d.blockOpen blk inst then f d else d.strayAccess 0 true 4

/-- The flash channels run: BOOT, READY, ACTIVE, FLUSH. -/
def Dev.flashOn (d : Dev) : Bool := 2 ≤ d.power && d.power ≤ 5

/-- What a command leaves alone whatever it does: the fuses, which only FUSE_WRITE_DONE writes (R549); the boot ROM,
which nothing writes (R541); the TAP's instruction, which only the TAP's commands set (R550). -/
def Dev.sealed (d e : Dev) : Dev := { e with fuses := d.fuses, rom := d.rom, jtagInstr := d.jtagInstr }

/-- A command acts at its split time. -/
def State.run (s : State) (t : Nat) (f : Dev → Dev) : Host.Outcome State Fault Refusal :=
  .next { s with dev := s.dev.sealed (f (s.dev.advance t)) }

/-- A command of the TAP acts at its split time: it may set the TAP's instruction. -/
def State.runTap (s : State) (t : Nat) (f : Dev → Dev) : Host.Outcome State Fault Refusal :=
  .next { s with dev := { f (s.dev.advance t) with fuses := s.dev.fuses, rom := s.dev.rom } }

/-- The end of a fuse write acts at its split time: it writes the fuses. -/
def State.runFuse (s : State) (t : Nat) (f : Dev → Dev) : Host.Outcome State Fault Refusal :=
  .next { s with dev := { f (s.dev.advance t) with rom := s.dev.rom, jtagInstr := s.dev.jtagInstr } }

/-- A command acts at its split time where a condition holds; otherwise time alone moves (log 2). -/
def State.runIf (s : State) (t : Nat) (c : Dev → Bool) (f : Dev → Dev) : Host.Outcome State Fault Refusal :=
  .next { s with dev := s.dev.sealed (let d := s.dev.advance t; if c d then f d else d) }

end Sys2Proof.Machine
end

