-- ==== Sys2Proof/Machine/Lease.lean ====
section
/-!
DEFINITION. Tile numbers (spec file 16), the segments and blocks of the KV pool, and the expiry of a write lease (spec file 15).
-/
namespace Sys2Proof.Machine

/-! ## Tile numbers (R390; DESIGN CHOICE, log 41) -/

/-- Tile t of a heat's region in stack s. -/
def heatTile (heat s t : Nat) : Nat := heat * 2 ^ 32 + s * 2 ^ 29 + t
def tableTile (table i : Nat) : Nat := 2 ^ 50 + table * 2 ^ 40 + i
def spillTile (i : Nat) : Nat := 2 ^ 60 + i
def allocTile (h i : Nat) : Nat := 2 ^ 64 + h * 2 ^ 23 + i

def Dev.tile (d : Dev) (k : Nat) : Tile := Tab.get {} d.fl.map k
def Dev.setTile (d : Dev) (k : Nat) (t : Tile) : Dev := { d with fl := { d.fl with map := Tab.put {} d.fl.map k t } }
def Dev.updTile (d : Dev) (k : Nat) (f : Tile → Tile) : Dev := d.setTile k (f (d.tile k))

/-! ## Segments and blocks (R359, R360) -/

def Dev.setPl (d : Dev) (f : Pool → Pool) : Dev := { d with pl := f d.pl }
def Dev.seg (d : Dev) (k : Nat) : Option Seg := Tab.find d.pl.segs k
def Dev.updSeg (d : Dev) (k : Nat) (f : Seg → Seg) : Dev := d.setPl fun x => { x with segs := Tab.upd x.segs k f }
def Dev.block (d : Dev) (b : Nat) : PBlock := Tab.get ({} : PBlock) d.pl.blocks b
def Dev.updBlock (d : Dev) (b : Nat) (f : PBlock → PBlock) : Dev := d.setPl fun x => { x with blocks := Tab.upd x.blocks b f }

/-- Blocks that nothing names any more go, with their flash (R368, R370). -/
def Dev.poolGc (d : Dev) : Dev :=
  let used := (Tab.vals d.pl.segs).flatMap (fun s => Tab.vals s.pub ++ Tab.vals s.shadow) ++ (Tab.vals d.pl.ops).flatMap (·.blocks)
  let dead := (Tab.keys d.pl.blocks).filter fun b => !used.contains b
  let d := dead.foldl (fun d b => if (d.block b).place = 0 then d else d.setTile (spillTile b) {}) d
  d.setPl fun x => { x with blocks := x.blocks.filter fun p => !dead.contains p.1 }

/-! ## Leases (R370) -/

/-- R370: a lease expires: the shadow goes. -/
def Dev.expire (d : Dev) (k : Nat) : Dev :=
  match d.seg k with
  | none => d
  | some s =>
    if s.lease.isNone then d
    else ((d.updSeg k fun s => { s with lease := none, shadow := [], dirty := false, expired := true, idle := d.now }).bump
      .POOL_EXPIRED_COUNT).poolGc

/-- R370: the open leases of a bib of this node, or of all holders, are treated as expired. -/
def Dev.expireBib (d : Dev) (bib : Option Nat) : Dev :=
  (d.pl.segs.filter fun p => p.2.lease.isSome && (match bib with | some b => p.2.slot == d.mt.slot && p.2.bib == b | none => true)).foldl
    (fun d p => d.expire p.1) d

end Sys2Proof.Machine
end

