-- ==== Sys2Proof/Machine/Traffic.lean ====
section
/-!
DEFINITION. The traffic manager, the Ethernet ports, RoCEv2 and PTP (spec file 18): Pacers, gates, the commit order,
promotion, split time's servo.
-/
namespace Sys2Proof.Machine

/-! ## Pacers (R452, R453) -/

/-- Numbers of Pacers: service s of subscriber b is 9 b + s, its subscriber Pacer 9 b + 8; the Relay Pacer of outlet o
is 9,216 + o, and the control Pacer of outlet o is 9,220 + o. -/
def pacerKey (sub k : Nat) : Nat := sub * 9 + k
def relayPacer (o : Nat) : Nat := 9216 + o
def ctlPacer (o : Nat) : Nat := 9220 + o

/-- R452: a refill's addition in 1/65,536 B, and the remainder left. -/
def refillAmount (rate interval rem : Nat) : Nat × Nat :=
  let x := rate * interval * 65536 + rem
  (x / 1000000000, x % 1000000000)

/-- R452: one refill. -/
def Pacer.refill (p : Pacer) : Pacer :=
  let (a, r) := refillAmount p.rate p.interval p.rem
  { p with tokens := min (p.depth * 65536) (p.tokens + a), rem := r }

/-- R453: the refill that applies a pending change: it closes an interval of the old length at the new rate. -/
def Pacer.change (p : Pacer) (n : Nat × Nat × Nat) : Pacer :=
  let (rate, depth, interval) := n
  if rate = 0 then { rate := 0, depth := depth, interval := interval, refilled := p.refilled }
  else if p.rate = 0 then
    { rate := rate, depth := depth, interval := interval, tokens := depth * 65536, refilled := p.refilled }
  else
    let (a, r) := refillAmount rate p.interval p.rem
    { p with rate := rate, depth := depth, interval := interval, tokens := min (depth * 65536) (p.tokens + a), rem := r
             next := none }

/-- R453: the interval whose multiples are a Pacer's refill instants: the old one where it is present, else that of the
change that makes it present. -/
def Pacer.period (p : Pacer) : Nat :=
  if p.rate > 0 then p.interval else match p.next with
    | some (_, _, i) => i
    | none => 0

/-- PACER_REFILL of a subscriber's or Relay Pacer. -/
def Dev.pacerRefill (d : Dev) (k : Nat) : Dev :=
  match Tab.find d.pacers k with
  | none => d
  | some p =>
    let i := p.period
    if i = 0 || d.now % i != 0 || d.now ≤ p.refilled then d
    else
      match p.next with
      | some n =>
        if d.now ≤ p.changed then { d with pacers := Tab.ins d.pacers k { p.refill with refilled := d.now } }
        else
          let d := if n = (p.rate, p.depth, p.interval) then d else d.bump .TM_CHANGES_COUNT
          { d with pacers := Tab.ins d.pacers k { p.change n with refilled := d.now, next := none } }
      | none => { d with pacers := Tab.ins d.pacers k { p.refill with refilled := d.now } }

/-- R448: PACER_REFILL of an outlet's control Pacer: 1% of the line rate, depth 16 KiB, INTERVAL 1,000 ns. -/
def Dev.ctlRefill (d : Dev) (o : Nat) : Dev :=
  let x := d.outlet o
  if d.now % 1000 != 0 || d.now ≤ x.ctlAt then d
  else
    let (a, r) := refillAmount (d.lineRate o / 100) 1000 x.ctlRem
    d.updOutlet o fun x => { x with ctlTokens := min (16384 * 65536) (x.ctlTokens + a), ctlRem := r, ctlAt := d.now }

/-- R452: whether a Pacer lets a length pass: absent, or holding it. -/
def Dev.pacerHolds (d : Dev) (k n : Nat) : Bool :=
  match Tab.find d.pacers k with
  | none => true
  | some p => p.rate = 0 || n * 65536 ≤ p.tokens

/-- R452: a length removed from a Pacer. -/
def Dev.pacerCharge (d : Dev) (k n : Nat) : Dev :=
  { d with pacers := Tab.upd d.pacers k fun p => if p.rate = 0 then p else { p with tokens := p.tokens - n * 65536 } }

/-- The Pacers of a queue: service and subscriber Pacer of a bib, the Relay Pacer of the node's Relay queue, none of an
admin queue (R447, R452). -/
def queuePacers (o sub svc : Nat) : List Nat :=
  if sub = 1024 then (if svc = 6 then [relayPacer o] else []) else [pacerKey sub svc, pacerKey sub 8]

/-! ## Gates (R454, R455) -/

/-- The sum of the intervals of a gate list. -/
def gateCycle (g : List Gate) : Nat := sum (g.map (·.interval))

/-- The entry in force at a place in the cycle, and how far into it. -/
def gateAt : List Gate → Nat → Nat × Nat
  | [], _ => (0, 0)
  | g :: r, x => if x < g.interval then (0, x) else let (i, y) := gateAt r (x - g.interval); (i + 1, y)

/-- How long the gate of a service stays open from the start of a list of entries; none if to its end. -/
def openRun (svc : Nat) : List Gate → Nat × Bool
  | [] => (0, true)
  | g :: r => if bit g.mask svc then let (n, e) := openRun svc r; (g.interval + n, e) else (0, false)

/-- R455: how long the window of a service that holds t goes on from t: `none` where the gate is closed at t,
`some none` where it never closes. -/
def windowLeft (x : Outlet) (svc t : Nat) : Option (Option Nat) :=
  if x.gates.isEmpty || gateCycle x.gates = 0 then some none
  else
    let (n, all) := openRun svc x.gates
    if t < x.base then (if all then some none else some (some (x.base - t + n)))
    else
      let (i, y) := gateAt x.gates ((t - x.base) % gateCycle x.gates)
      match openRun svc (x.gates.drop i ++ x.gates.take i) with
      | (_, true) => some none
      | (0, false) => none
      | (m, false) => some (some (m - y))

/-- R455: a frame of a service may be committed at t. -/
def gateAllows (x : Outlet) (svc t tx : Nat) : Bool :=
  match windowLeft x svc t with
  | none => false
  | some none => true
  | some (some n) => tx ≤ n

/-- GATE_CHANGE: the entry in force (TM_GCL.CUR). -/
def Dev.gateChange (d : Dev) (o : Nat) : Dev :=
  let x := d.outlet o
  if x.gates.isEmpty || gateCycle x.gates = 0 || d.now < x.base then d
  else d.setRg .TM_GCL_CUR (gateAt x.gates ((d.now - x.base) % gateCycle x.gates)).1 0 o

/-! ## Bands and the commit order (R448, R456 to R458) -/

/-- R448: the contract record of a bib's service. -/
def Dev.contractOf (d : Dev) (bib svc : Nat) : Option (Nat × Contract) :=
  d.contracts.find? fun p => p.2.bib == bib && p.2.svc == svc

/-- R448: whether a queue is in CONTRACTED. -/
def Dev.contracted (d : Dev) (sub svc : Nat) : Bool :=
  if sub = 1024 then svc = 6 else svc ≤ 4 && (d.contractOf sub svc).isSome

/-- The head of a queue of an outlet, as (subscriber, service, frame). -/
structure Head where
  sub : Nat
  svc : Nat
  frame : Frame
deriving DecidableEq, Repr

/-- The heads of an outlet's queues, by subscriber, then service. -/
def Dev.heads (d : Dev) (o lane : Nat) : List Head :=
  d.queues.filterMap fun p =>
    if p.1 / 8 / 1025 = o then
      match p.2 with
      | f :: _ => if f.lane = lane then some (Head.mk (p.1 / 8 % 1025) (p.1 % 8) f) else none
      | [] => none
    else none

/-- R159, R439: at most 768 DMA reads of a PCIe port are outstanding, and 16 RDMA READs of a queue pair. -/
def Dev.readRoom (d : Dev) (o sub n : Nat) : Bool :=
  n = 0 || (if o < 2 then (d.dmas.filter fun p => p.2.port == 2 + o && p.2.bib == some sub && p.2.sent).length < 16
            else (d.dmas.filter fun p => p.2.port == o - 2 && p.2.sent).length < 768)

/-- R148: every data write of a request is made before its entry's write: a REROUTED entry stands behind the data frames that
its request still has in the old outlet's queue. -/
def Dev.behindData (d : Dev) (h : Head) : Bool :=
  match h.frame.entry with
  | none => false
  | some c => c.rerouted && c.req.isSome && d.queues.any fun p => p.2.any fun f => f.req == c.req && f.entry.isNone && f.reads == 0

/-- Steps of a teardown (R124): a BIB_RESET from the bib's own window writes its ST_DEFERRED entry before any entry of
step 1, which are those of ST_FENCED; so such an entry stands behind it in whatever queue it is. -/
def Dev.behindReset (d : Dev) (o : Nat) (h : Head) : Bool :=
  match h.frame.entry with
  | none => false
  | some c => c.status = ST_FENCED && d.queues.any fun p =>
      p.1 / 8 / 1025 = o && p.1 / 8 % 1025 = h.sub && p.1 % 8 != h.svc && p.2.any fun f =>
        match f.entry with
        | some e => e.opcode = 0x64 && e.status = ST_DEFERRED
        | none => false

/-- R452, R455: whether a head may be committed now. -/
def Dev.eligible (d : Dev) (o : Nat) (h : Head) : Bool :=
  (queuePacers o h.sub h.svc).all (fun k => d.pacerHolds k h.frame.charge)
    && gateAllows (d.outlet o) h.svc d.now (d.txTime o h.frame.len) && d.readRoom o h.sub h.frame.reads && !d.behindReset o h
    && !d.behindData h

/-- R456: the head of oldest wait; the list stands by subscriber and service, so the first of equals. -/
def oldest : List Head → Option Head
  | [] => none
  | h :: r => match oldest r with
    | none => some h
    | some g => if g.frame.since < h.frame.since then some g else some h

/-- R457: the promotion bucket brought up to a split time, in 1/1,000 ns, capped at tx of L_max. -/
def Dev.bucketNow (d : Dev) (o : Nat) : Nat :=
  let x := d.outlet o
  min (d.txTime o (d.lMax o) * 1000) (x.bucket + x.promoShare * (d.now - x.bucketAt))

/-- Whether the outlet's link can carry frames. -/
def Dev.linkUp (d : Dev) (o lane : Nat) : Bool :=
  if o < 2 then bit (d.rg .ETH_LINK_UP o) lane else (d.port (o - 2)).up

/-- R455: heads that stand in an open window too short for them count once in TM_NOFIT. -/
def Dev.markNoFit (d : Dev) (o lane : Nat) : Dev :=
  (d.heads o lane).foldl (fun d h =>
    if h.frame.noFit then d
    else match windowLeft (d.outlet o) h.svc d.now with
      | some (some n) =>
        if d.txTime o h.frame.len ≤ n then d
        else
          let d := d.bump .TM_NOFIT_COUNT 1 0 o
          { d with queues := Tab.upd d.queues (queueKey o h.sub h.svc) fun q => match q with
              | f :: r => { f with noFit := true } :: r
              | [] => [] }
      | _ => d) d

/-- R151: refills until a Pacer that holds T has min(DEPTH, T + B) tokens, then the time to that refill, µs, at most
4,095. -/
def Dev.pacingUs (d : Dev) (p : Pacer) (sent : Nat) : Nat :=
  if p.rate = 0 || p.tokens ≥ p.depth * 65536 then 0
  else
    let need := min (p.depth * 65536) (p.tokens + sent * 65536) - p.tokens
    let n := ceilDiv (need * 1000000000 - min p.rem (need * 1000000000)) (max 1 (p.rate * p.interval * 65536))
    if n = 0 then 0
    else
      let i := max 1 p.interval
      let first := (d.now / i + 1) * i
      min 4095 (ceilDiv (first + (n - 1) * i - d.now) 1000)

/-- R151, R447: the load level: min(15, ⌊16 u⌋) for the fraction u of the last 100 µs in which the busiest resource was
occupied. -/
def loadLevel (busyNs : Nat) : Nat := min 15 (16 * min 100000 busyNs / 100000)

/-- R151, R447: for how many of the last 100,000 ns the busiest resource of a partition (64: all eight control cores together)
was occupied: the node's own measurement, a free value that follows from the partition, the split time and the requests that
the partition serves (log 30). -/
def Dev.busyTime (d : Dev) (part : Nat) : Nat :=
  Config.busyTime part d.now (Tab.count d.reqs fun q => q.live && (64 ≤ part || q.part == part))

/-- R151, R447: LOAD of a completion as its frame is committed. -/
def Dev.loadOf (d : Dev) (c : Cpl) (sent : Nat) : Nat :=
  let level := loadLevel (d.busyTime (if winIsPf0 c.win then 64 else (d.bib (winBib c.win)).part))
  let us := if winIsPf0 c.win then 0 else
    match Tab.find d.pacers (pacerKey (winBib c.win) (winSvc c.win)) with
    | some p => d.pacingUs p sent
    | none => 0
  level * 4096 + us

/-- A frame leaves its queue for the outlet: the next frame of the queue becomes head (R446, R456). -/
def Dev.popQueue (d : Dev) (o sub svc : Nat) : Dev :=
  let k := queueKey o sub svc
  match (Tab.find d.queues k).getD [] with
  | _ :: f :: r => { d with queues := Tab.ins d.queues k ({ f with since := d.now } :: r) }
  | _ => { d with queues := Tab.del d.queues k }

/-- R152, R448: an interrupt follows its entry in the entry's queue: it becomes head. -/
def Dev.pushIrq (d : Dev) (o sub svc p fn vec : Nat) : Dev :=
  let n := (d.outlet o).counted 4 1
  let f : Frame := { len := n, charge := n, dest := .pcie p fn, emits := [.msix p fn vec], since := d.now }
  let k := queueKey o sub svc
  { d with queues := Tab.ins d.queues k (f :: (Tab.find d.queues k).getD []) }

/-- R152: an entry leaves at a split time, for a slot of a destination: whether its interrupt follows, and the moderation
after it. -/
def RingMod.leave (m : RingMod) (now slotAddr : Nat) (dst : Dest) (irq : Bool) : Bool × RingMod :=
  let unsig := m.unsig + 1
  let sig := irq || m.modTime == 0 || unsig ≥ m.modCount
  (sig, { m with unsig := if sig then 0 else unsig, firstAt := if unsig = 1 then now else m.firstAt, lastAddr := slotAddr
                 dest := dst })

/-- R148, R152, R156: an entry of a ring leaves and counts for the moderation of the configuration under which it was written:
its vector, whether its interrupt follows. -/
def Dev.entryLeaves (d : Dev) (rk : Nat) (f : Frame) (irq : Bool) : Nat × Bool × Dev :=
  let r := d.ring rk
  match Tab.find r.past f.setup with
  | some m =>
    let (sig, m) := m.leave d.now f.slotAddr f.dest irq
    (m.vec, sig, d.setRing rk { r with past := Tab.ins r.past f.setup m })
  | none =>
    let (sig, m) := ({ vec := r.vec, modCount := r.modCount, modTime := r.modTime, unsig := r.unsig, firstAt := r.firstAt
                       lastAddr := r.lastAddr, dest := r.lastDest } : RingMod).leave d.now f.slotAddr f.dest irq
    (r.vec, sig, d.setRing rk { r with unsig := m.unsig, firstAt := m.firstAt, lastAddr := m.lastAddr, lastDest := m.dest })

/-- R148, R151, R152, R458, R96, R111: an entry's frame is committed: the entry gets LOAD and PROMOTED and leaves; its ring's
interrupt follows it where R152 asks for one, toward a fabric host in the same write (R442); its contract counts it. -/
def Dev.sendEntry (d : Dev) (o sub svc : Nat) (f : Frame) (c : Cpl) (urgent : Bool) : Dev :=
  let q := (c.req.bind fun r => Tab.find d.reqs r)
  let promoted := urgent || (match q with | some x => x.urgent | none => false)
  let load := d.loadOf c (match q with | some x => x.sent | none => f.len)
  let b := entryBytes c (if promoted then orFlag c.flags FL_PROMOTED else c.flags) load f.phase
  let rk := f.ring.getD 0
  let (vec, sig, d) := d.entryLeaves rk f c.irq
  let d := match f.dest with
    | .fab _ _ => d.emit (if sig then .dmaWriteImm f.dest f.slotAddr b (vec % 16 + rk % 8 * 16) else .dmaWrite f.dest f.slotAddr b)
    | .pcie p fn =>
      let d := d.emit (.dmaWrite f.dest f.slotAddr b)
      if sig then d.pushIrq o sub svc p fn vec else d
  d.countContract c (d.isExcused c) (d.now + Config.outletLatency o - c.landed)

/-- A lane group, or the outlet's one server, is taken for a frame's time. -/
def Dev.occupy (d : Dev) (o lane tx : Nat) : Dev :=
  d.updOutlet o fun x => if lane = 1 then { x with busy1 := d.now + tx } else { x with busy0 := d.now + tx }

/-- A head is committed from a band: 1 CONTRACTED, 2 URGENT, 3 OPEN. -/
def Dev.commitHead (d : Dev) (o lane : Nat) (h : Head) (band : Nat) : Dev :=
  let f := h.frame
  let tx := d.txTime o f.len
  let d := (queuePacers o h.sub h.svc).foldl (fun d k => d.pacerCharge k f.charge) d
  let d := d.popQueue o h.sub h.svc
  let d := d.occupy o lane tx
  let d := d.bump (if band = 1 then .TM_CONBYTES_COUNT else if band = 2 then .TM_URGBYTES_COUNT else .TM_OPNBYTES_COUNT)
    f.len 0 o
  let d := d.bump .TM_SUBSENT_COUNT f.len 0 h.sub
  let d := if o < 2 then d.bump .ETH_TXFRAMES_COUNT 1 o else d
  let d := if band = 2 then (d.bump .TM_PROMOTED_COUNT 1 0 o).bump .TM_SUBPROM_COUNT 1 0 h.sub else d
  let d := match f.req with
    | some r => if band = 2 then d.updReq r fun q => { q with urgent := true } else d
    | none => d
  match f.entry with
  | some c => d.sendEntry o h.sub h.svc f c (band = 2)
  | none => f.emits.foldl Dev.release d

/-- R456: CONTROL's head, where the control Pacer holds its length. -/
def Dev.commitCtl (d : Dev) (o lane : Nat) : Option Dev :=
  let x := d.outlet o
  match x.ctl with
  | f :: r =>
    if f.lane = lane && f.charge * 65536 ≤ x.ctlTokens then
      let r := match r with | g :: t => { g with since := d.now } :: t | [] => []
      let d := d.updOutlet o fun x => { x with ctl := r, ctlTokens := x.ctlTokens - f.charge * 65536 }
      let d := d.occupy o lane (d.txTime o f.len)
      let d := (d.bump .TM_CTLBYTES_COUNT f.len 0 o).bump .TM_SUBSENT_COUNT f.len 0 1024
      let d := if o < 2 then d.bump .ETH_TXFRAMES_COUNT 1 o else d
      some (f.emits.foldl Dev.release d)
    else none
  | [] => none

/-- A CONTROL head that the control Pacer holds counts once in TM_CTLWAIT. -/
def Dev.markCtlWait (d : Dev) (o : Nat) : Dev :=
  match (d.outlet o).ctl with
  | f :: r =>
    if !f.noFit && (d.outlet o).ctlTokens < f.charge * 65536 then
      (d.bump .TM_CTLWAIT_COUNT 1 0 o).updOutlet o fun x => { x with ctl := { f with noFit := true } :: r }
    else d
  | [] => d

/-- R456, R379: the APERTURE head, gated by service bit 3; one that does not fit in the window that remains counts once (R455). -/
def Dev.commitApt (d : Dev) (o lane : Nat) : Dev :=
  match (d.outlet o).apt with
  | f :: r =>
    if gateAllows (d.outlet o) 3 d.now (d.txTime o f.len) then
      let d := d.updOutlet o fun x => { x with apt := r }
      let d := d.occupy o lane (d.txTime o f.len)
      f.emits.foldl Dev.release (d.bump .TM_APTBYTES_COUNT f.len 0 o)
    else if !f.noFit && (windowLeft (d.outlet o) 3 d.now).isSome then
      (d.bump .TM_NOFIT_COUNT 1 0 o).updOutlet o fun x => { x with apt := { f with noFit := true } :: r }
    else d
  | [] => d

/-- R455: a refill that falls on the split time of a commit decision comes before it. -/
def Dev.refillsDue (d : Dev) (o : Nat) : Dev := ((Tab.keys d.pacers).foldl Dev.pacerRefill d).ctlRefill o

/-- OUTLET_COMMIT (R456): the outlet, or its lane group, is free, and the first frame of the order is committed. -/
def Dev.outletCommit (d : Dev) (o lane : Nat) : Dev :=
  let d := d.refillsDue o
  let x := d.outlet o
  let free := if lane = 1 then x.mode = 1 && x.busy1 ≤ d.now else x.busy0 ≤ d.now
  if !(o < 4 && free && d.linkUp o lane) then d
  else
    let d := d.updOutlet o fun x => { x with bucket := d.bucketNow o, bucketAt := d.now }
    match d.commitCtl o lane with
    | some d => d
    | none =>
      let d := (d.markCtlWait o).markNoFit o lane
      let hs := (d.heads o lane).filter (d.eligible o)
      let con := hs.filter fun h => d.contracted h.sub h.svc
      let urg := hs.filter fun h => !d.contracted h.sub h.svc && h.frame.urgent
      let opn := hs.filter fun h => !d.contracted h.sub h.svc && !h.frame.urgent
      let viaBucket := match oldest urg with
        | some h => if d.txTime o h.frame.len * 1000 ≤ (d.outlet o).bucket then some h else none
        | none => none
      match viaBucket with
      | some h =>
        let tx := d.txTime o h.frame.len
        (d.updOutlet o fun x => { x with bucket := x.bucket - tx * 1000 }).commitHead o lane h 2
      | none =>
        match oldest con with
        | some h => d.commitHead o lane h 1
        | none =>
          match oldest urg with
          | some h => d.commitHead o lane h 2
          | none =>
            match oldest opn with
            | some h => d.commitHead o lane h 3
            | none => d.commitApt o lane

/-- PROMOTION_AGE (R457): an OPEN head whose wait exceeds its PROMO_AGE enters URGENT. -/
def Dev.promote (d : Dev) (o sub svc : Nat) : Dev :=
  let age := (d.outlet o).promoAge.getD svc 0
  if age = 0 || d.contracted sub svc then d
  else { d with queues := Tab.upd d.queues (queueKey o sub svc) fun q => match q with
    | f :: r => if d.now - f.since > age * 1000 then { f with urgent := true } :: r else f :: r
    | [] => [] }

/-! ## RoCEv2, Ethernet, PTP (R437 to R445) -/

/-- Whether a bib is fabric-bound with its queue pair ready (R439). -/
def Dev.fabReady (d : Dev) (b : Nat) : Bool := (d.bib b).bind.kind = 2 && (d.bib b).qpReady

/-- R440: a packet marked CE: one CNP to the sender, at most one per queue pair per 50 µs. -/
def Dev.ceReceived (d : Dev) (b : Nat) : Dev :=
  let x := d.bib b
  let recent := match x.cnpAt with
    | some t => decide (d.now < t + 50000)
    | none => false
  if !d.fabReady b || recent then d
  else ((d.updBib b fun x => { x with cnpAt := some d.now }).bump .ETH_CNPTX_COUNT 1 x.bind.port).ethSend x.bind.port (.roceCnp b)

/-- R443: the port that PTP runs on: the preferred one, or the other while that one is down. -/
def Dev.ptpPort (d : Dev) : Nat :=
  let p := d.rg .PTP_CFG_PORT
  if d.rg .ETH_LINK_UP p != 0 then p else if d.rg .ETH_LINK_UP (1 - p) != 0 then 1 - p else p

/-- R445: loss of lock. A clock that has not been locked has none to lose: DEDUCED (log 154). -/
def Dev.unlock (d : Dev) : Dev :=
  if d.rg .PTP_STAT_LOCKED = 1 then
    (({ d with mt := { d.mt with synced := true, holdover := some d.now } } : Dev).setRg .PTP_STAT_LOCKED 0).setRg .PTP_STAT_HOLDOVER 1
      |>.bump .PTP_UNLOCK_COUNT
  else d

/-- R482: a node that is master has been synchronised. -/
def Dev.noteMaster (d : Dev) : Dev :=
  if d.rg .PTP_STAT_MASTER = 1 then { d with mt := { d.mt with synced := true } } else d

/-- R444, R445: a synchronisation with a measured offset (node less master, ns) and the servo's frequency. Before the
first load, the first synchronisation steps split time to the master's time, once. -/
def Dev.ptpSyncAt (d : Dev) (port : Nat) (offset freq : Int) : Dev :=
  if port != d.ptpPort then d
  else
    let first := d.ptpSync.isNone && d.rg .PTP_STEPS_COUNT = 0 && !d.imageLoaded && offset != 0
    let d := if first then ({ d with now := ((d.now : Int) - offset).toNat, relAt := d.relAt - offset }).bump .PTP_STEPS_COUNT else d
    let left := if first then 0 else offset
    let d := (d.setRg .PTP_OFFSET_NS (unsigned 32 left)).setRg .PTP_FREQ_PPB
      (unsigned 32 (max (-100000) (min 100000 freq)))
    let d := { d with ptpSync := some d.now, ptpCount := if left.natAbs ≤ 100 then d.ptpCount + 1 else 0 }
    let d := (d.noteMaster.setRg .PTP_STAT_MASTER 0).setRg .PTP_STAT_PORT d.ptpPort
    if left.natAbs > 1000 then d.unlock
    else if d.ptpCount ≥ 16 then (d.setRg .PTP_STAT_LOCKED 1).setRg .PTP_STAT_HOLDOVER 0
    else d

/-- PTP_SYNC_TIMEOUT (R445): no synchronisation for 2 s. A master-capable clock becomes master (R443). -/
def Dev.ptpTimeout (d : Dev) : Dev :=
  let due := match d.ptpSync with
    | some t => decide (t + 2000000000 ≤ d.now)
    | none => decide (2000000000 ≤ d.now)
  if !due then d
  else
    let d : Dev := { d.unlock with ptpCount := 0 }
    if d.rg .PTP_CFG_MASTER = 1 then d.setRg .PTP_STAT_MASTER 1 else d

/-- R443, R448: a PTP message of this clock enters CONTROL of the port that PTP runs on. 114 bytes on the wire: Ethernet with
one tag 18, IPv6 40, UDP 8, an event message 44, FCS 4 (PRESUMED, log 35). -/
def Dev.ptpSend (d : Dev) : Dev :=
  let o := d.ptpPort
  if d.rg .ETH_LINK_UP o = 0 then d
  else d.pushCtl o ((d.outlet o).counted 114 1) [.ptp o (d.rg .PTP_STAT_MASTER = 1)]

/-! ## The commands -/

/-- PACER_REFILL. -/
def execPacerRefill (t pacer : Nat) (s : State) : Host.Outcome State Fault Refusal :=
  s.runIf t Dev.coreOn fun d => if pacer ≥ 9220 then d.ctlRefill (pacer - 9220) else d.pacerRefill pacer

/-- GATE_CHANGE. -/
def execGateChange (t outlet : Nat) (s : State) : Host.Outcome State Fault Refusal :=
  s.runIf t Dev.coreOn fun d => d.gateChange outlet

/-- OUTLET_COMMIT. -/
def execOutletCommit (t outlet lane : Nat) (s : State) : Host.Outcome State Fault Refusal :=
  s.runIf t Dev.mgmtOn fun d => d.outletCommit outlet lane

/-- PROMOTION_AGE. -/
def execPromotionAge (t outlet sub svc : Nat) (s : State) : Host.Outcome State Fault Refusal :=
  s.runIf t Dev.coreOn fun d => d.promote outlet sub svc

/-- PAUSE_RECEIVED (R436): a PAUSE or PFC frame is counted and discarded. -/
def execPauseReceived (t port : Nat) (s : State) : Host.Outcome State Fault Refusal :=
  s.runIf t Dev.coreOn fun d => d.bump .ETH_PAUSE_COUNT 1 port

/-- NEIGHBOR_FRAME (R437): Cerone answers ARP, Neighbor Discovery and ICMP echo; any other frame is dropped and
counted. -/
def execNeighborFrame (t port : Nat) (kind : NeighborKind) (s : State) : Host.Outcome State Fault Refusal :=
  s.runIf t Dev.coreOn fun d =>
    if kind = .other then d.bump .ETH_DROPS_COUNT 1 port
    else (d.bump .ETH_RXFRAMES_COUNT 1 port).ethSend port (.neighborReply port kind)

/-- CNP_RECEIVED (R440). -/
def execCnpReceived (t port : Nat) (s : State) : Host.Outcome State Fault Refusal :=
  s.runIf t Dev.coreOn fun d => (d.bump .ETH_RXFRAMES_COUNT 1 port).bump .ETH_CNPRX_COUNT 1 port

/-- ROCE_CE_RECEIVED (R440). -/
def execRoceCeReceived (t bib : Nat) (s : State) : Host.Outcome State Fault Refusal :=
  s.runIf t Dev.coreOn fun d => d.ceReceived bib

/-- ROCE_ACK_TIMEOUT (R439): the unacknowledged packets are retransmitted. -/
def execRoceAckTimeout (t bib : Nat) (s : State) : Host.Outcome State Fault Refusal :=
  s.runIf t Dev.coreOn fun d => if d.fabReady bib then d.emit (.roceRetransmit bib) else d

/-- ROCE_INVALID_REQUEST (R438): NAK Invalid Request. -/
def execRoceInvalidRequest (t bib : Nat) (_kind : RoceBad) (s : State) : Host.Outcome State Fault Refusal :=
  s.runIf t Dev.coreOn fun d => if d.fabReady bib then d.ethSend (d.bib bib).bind.port (.roceNak bib) else d

/-- ROCE_KEY_RECORD (R441, R442): the bib's regions; DMA already issued keeps its key. -/
def execRoceKeyRecord (t bib : Nat) (rec : Bytes) (s : State) : Host.Outcome State Fault Refusal :=
  s.runIf t Dev.coreOn fun d =>
    if d.fabReady bib then (d.updBib bib fun x => { x with keys := some rec }).bump .ETH_RXFRAMES_COUNT 1 (d.bib bib).bind.port
    else d

/-- PTP_MESSAGE (R444, R445). -/
def execPtpMessage (t port : Nat) (offset freq : Int) (s : State) : Host.Outcome State Fault Refusal :=
  s.runIf t Dev.coreOn fun d => (d.bump .ETH_RXFRAMES_COUNT 1 port).ptpSyncAt port offset freq

/-- PTP_SYNC_TIMEOUT (R445). -/
def execPtpSyncTimeout (t : Nat) (s : State) : Host.Outcome State Fault Refusal :=
  s.runIf t Dev.coreOn Dev.ptpTimeout

/-- PTP_SEND_INTERVAL (R443). -/
def execPtpSendInterval (t : Nat) (s : State) : Host.Outcome State Fault Refusal :=
  s.runIf t Dev.coreOn Dev.ptpSend

/-- ETH_LINK_CHANGE (R443, R462): lane groups up, lanes locked; PTP moves to a port that is up. -/
def execEthLinkChange (t port up lock : Nat) (s : State) : Host.Outcome State Fault Refusal :=
  s.runIf t Dev.coreOn fun d =>
    let d := (d.setRg .ETH_LINK_UP up port).setRg .ETH_LINK_LOCK lock port
    d.setRg .PTP_STAT_PORT d.ptpPort

end Sys2Proof.Machine
end

