-- ==== Sys2Proof/Machine/Windows.lean ====
section
/-!
DEFINITION. Command windows (spec file 06): which window a write reaches, the landing checks, ring space, interrupts
by time, the PF0 admin ring, and the port events of Table 06.10.
-/
namespace Sys2Proof.Machine

/-! ## Opcodes (R25, Table 06.1) -/

/-- The opcodes that the chapters define. -/
def definedOps : List Nat :=
  [0x10, 0x11, 0x18, 0x19, 0x1F, 0x20, 0x21, 0x22, 0x2F, 0x30, 0x31, 0x32, 0x33, 0x40, 0x41, 0x48, 0x49, 0x4A, 0x4B] ++
  [0x4C, 0x4D, 0x4E, 0x50, 0x51, 0x52, 0x53, 0x54, 0x55, 0x58, 0x59] ++
  [0x60, 0x61, 0x62, 0x63, 0x64, 0x65, 0x66, 0x67, 0x68, 0x69, 0x6A, 0x6B, 0x6C, 0x6D, 0x6E, 0x6F]

/-- R32, Table 00.6: requests of the search, Infield and embedding families need a context; CANCEL and RUN_CANCEL leave
their FIFO at landing (R196, R297). -/
def needsCtx (op : Nat) : Bool := 0x10 ≤ op && op < 0x40 && op != 0x1F && op != 0x2F

/-- Table 06.1: the range of opcodes that a service window accepts. -/
def svcAccepts (svc op : Nat) : Bool :=
  match svc with
  | 0 => 0x10 ≤ op && op ≤ 0x1F
  | 1 => 0x20 ≤ op && op ≤ 0x2F
  | 2 => 0x30 ≤ op && op ≤ 0x3F
  | 3 => 0x40 ≤ op && op ≤ 0x47
  | 4 => 0x48 ≤ op && op ≤ 0x4F
  | 5 => 0x50 ≤ op && op ≤ 0x5F
  | 6 => 0x6C ≤ op && op ≤ 0x6F
  | _ => 0x60 ≤ op && op ≤ 0x6B

/-- R141: the reserved fields of the header; a PF0 window's RING is 0 (R157). -/
def headerOk (pf0 : Bool) (d : Bytes) : Bool :=
  u8 d 1 < 8 && u8 d 2 < 4 && u8 d 3 == 0 && zeros d 0x0A 6 && !(pf0 && u8 d 1 != 0)

/-! ## Which window a write reaches (R116, R119, R132, R136) -/

/-- The bib bound to a VF, with the path. -/
def Dev.vfBib (d : Dev) (p v : Nat) : Option (Nat × Nat) :=
  match d.bibs.find? fun x => x.2.state != 0 && x.2.bind.kind == 1 && x.2.bind.port == p && x.2.bind.vf == v with
  | some x => some (x.1, x.2.path)
  | none =>
    match d.bibs.find? fun x => match x.2.old with
      | some o => o.kind == 1 && o.port == p && o.vf == v
      | none => false with
    | some x => some (x.1, 1 - x.2.path)
    | none => none

/-- Whether a VF is enabled in its port's SR-IOV capability. -/
def Dev.vfOn (d : Dev) (port vf : Nat) : Bool := (d.port port).vfEnable && 1 ≤ vf && decide (vf ≤ (d.port port).numVfs)

/-- The window of a write, if a bib carries it. A VF in D3hot, or one that is not enabled, takes none, and the write counts as
stray: DESIGN CHOICE (log 105). The remote endpoint that a composition change left reaches the old window while the change drains (R132). -/
def Dev.srcWin (d : Dev) (src : Src) : Option Nat :=
  match src with
  | .pf0 p => some (pf0Win p)
  | .vf p v w =>
    if (d.port p).d3.contains v || !d.vfOn p v then none
    else (d.vfBib p v).map fun x => bibWin x.1 x.2 w
  | .fab b w => if (d.bib b).bind.kind = 2 && (d.bib b).qpReady then some (bibWin b (d.bib b).path w) else none
  | .fabOld b w => if (d.bib b).old.any fun o => o.kind == 2 then some (bibWin b (1 - (d.bib b).path) w) else none

/-- R116, Table 05.2: a bib that takes no writes. -/
def Dev.discards (d : Dev) (k : Nat) : Bool := !winIsPf0 k && (d.bib (winBib k)).state ≤ 1

/-- Whether a window's path is the one that a composition change left (R132). -/
def Dev.isOldPath (d : Dev) (k : Nat) : Bool := !winIsPf0 k && winPath k != (d.bib (winBib k)).path

/-! ## Landing (R142 to R145) -/

/-- The failure codes that a descriptor meets at landing (R142): state, header and opcode, GEN, credit, ring. -/
def Dev.landFails (d : Dev) (k : Nat) (x : Bytes) : List Nat :=
  let pf0 := winIsPf0 k
  let b := d.bib (winBib k)
  let fenced := d.nodeFenced || d.loader = 3 || d.loader = 4 || (!pf0 && (b.state = 3 || b.state = 4)) || d.isOldPath k
  let op := u8 x 0
  let badOp := !(definedOps.contains op && svcAccepts (winSvc k) op)
  let g := u16 x 8
  let badGen := if pf0 then g != 0 else newer 16 g b.gen
  (if badOp || !headerOk pf0 x || badGen || !(d.ring (ringKey k (u8 x 1 % 8))).en then [ST_BAD_DESC] else [])
    ++ (if (d.win k).fifo.length ≥ 256 then [ST_NO_CREDIT] else [])
    ++ (if !pf0 && stale 16 g b.gen then [ST_STALE_GEN] else [])
    ++ (if fenced then [ST_FENCED] else [])

/-- R97: the conformance bucket of a contract brought up to now, in 1/10^9 tokens. -/
def Contract.fill (c : Contract) (now : Nat) : Contract :=
  { c with tokens := min (c.burst * 1000000000) (c.tokens + c.rate * (now - c.at_)), at_ := now }

/-- R97: a landing request is judged against its contract's bucket, which gives one token where it holds one. -/
def Dev.judge (d : Dev) (b svc : Nat) : Option Judged × Dev :=
  match d.contractOf b svc with
  | none => (none, d)
  | some (n, c) =>
    let c := c.fill d.now
    let ok := c.tokens ≥ 1000000000
    let c := if ok then { c with tokens := c.tokens - 1000000000 } else c
    (some { record := n, uid := c.uid, conforming := ok, p50 := c.p50, p99 := c.p99, p999 := c.p999, miss50 := c.miss50
            miss99 := c.miss99, miss999 := c.miss999 }, { d with contracts := Tab.ins d.contracts n c })

/-- R449, R99: the frames of a window use an outlet whose link trained below its rate at load. -/
def Dev.onDegraded (d : Dev) (k : Nat) : Bool :=
  let o := (d.winDest k).outlet
  2 ≤ o && (d.port (o - 2)).degraded

/-- A descriptor lands in a window that takes it: it is refused with one completion, dropped for want of a ring, or
takes a slot; the second part is its request number in that last case. A LOAD_IMAGE refused here counts in no CI_REFUSALS:
DESIGN CHOICE (log 136). -/
def Dev.landIn (d : Dev) (k : Nat) (x : Bytes) : Dev × Option Nat :=
  let w := d.win k
  let full := w.fifo.length ≥ 256
  let r0 := if winIsPf0 k then k else ringKey k 0
  let noRing := !(d.ring (ringKey k (u8 x 1 % 8))).en && !(d.ring r0).en
  if noRing then
    let d := d.setWin k { (if full then w else w.credit 1) with dropped := min 255 (w.dropped + 1) }
    (d.reportWin SRC_CW_NORING k (u8 x 1 % 8) 10, none)
  else
    match d.landFails k x with
    | [] =>
      let (j, d) := if winIsPf0 k then (none, d) else d.judge (winBib k) (winSvc k)
      let (n, d) := d.newId
      let b := d.bib (winBib k)
      let q : Req := { desc := x, win := k, bib := if winIsPf0 k then none else some (winBib k)
                       gen := if winIsPf0 k then 0 else b.gen, landed := d.now, part := b.part, judged := j
                       loader := d.loader, excused := d.onDegraded k }
      ((d.setReq n q).updWin k fun w => { w with fifo := w.fifo ++ [n] }, some n)
    | fails =>
      let st := pickStatus fails ST_OK
      let d := (d.setWin k { (if full then w else w.credit 1) with
        nocredit := if st = ST_NO_CREDIT then min 65535 (w.nocredit + 1) else w.nocredit }).noteOutcome x st
      (d.post { win := k, bib := if winIsPf0 k then none else some (winBib k), ring := u8 x 1 % 8, tag := u32 x 4
                gen := if winIsPf0 k then 0 else (d.bib (winBib k)).gen, opcode := u8 x 0, irq := bit (u8 x 2) 0
                landed := d.now, status := st, flags := 0, result := 0 }, none)

/-- A 64-byte write with every byte enable set reaches the node (R137): a stray write is discarded and counted (R116),
any other is a descriptor that lands. -/
def Dev.land (d : Dev) (src : Src) (x : Bytes) : Dev × Option Nat :=
  if !d.coreOn then (d, none)
  else
    match d.srcWin src with
    | none => (d.bump .BIBTAB_STRAY_COUNT, none)
    | some k => if d.discards k then (d.bump .BIBTAB_STRAY_COUNT, none) else d.landIn k x

/-! ## Ring space and interrupts (R149, R150, R152) -/

/-- Completions that waited take the free entries of a ring, in order, and a configuration that waited for its RING_SET's
entry takes effect behind it (R156); by fuel. -/
def Dev.drainRing : Nat → Dev → Nat → Dev
  | 0, d, _ => d
  | f + 1, d, rk =>
    let r := d.ring rk
    match r.wait with
    | [] => d
    | (_, c) :: rest =>
      if r.free = 0 || !r.en then d
      else Dev.drainRing f (((d.setRing rk { r with wait := rest }).writeEntry rk c).configAfter rk c) rk

/-- R156: completions that wait for a ring go on in its configuration; those of a ring now disabled go to ring 0 of its bib,
where they wait if that is not enabled either. -/
def Dev.rehome (d : Dev) (rk : Nat) : Dev :=
  let d := Dev.drainRing ((d.ring rk).wait.length + 1) d rk
  let x := d.ring rk
  let k0 := rk / 8 * 8
  if x.en || winIsPf0 rk || rk = k0 then d
  else
    let d := d.setRing rk { x with wait := [] }
    let y := d.ring k0
    Dev.drainRing (y.wait.length + x.wait.length + 1) (d.setRing k0 { y with wait := y.wait ++ x.wait }) k0

/-- Completions that wait for a ring go on, and with the last of them the drain of a composition change may end (R130). -/
def Dev.ringGoesOn (d : Dev) (rk : Nat) : Dev :=
  let d := d.rehome rk
  if winIsPf0 rk then d else d.endDrain (winBib rk)

/-- One HEAD of a release record (R149). -/
def Dev.releaseHead (d : Dev) (k r head : Nat) : Dev :=
  let rk := if winIsPf0 k then (if r = 0 then k else 0xFFFF_FFFF) else ringKey k r
  let x := d.ring rk
  if !x.en then d
  else
    let step := (head + 4294967296 - x.head) % 4294967296
    if step > x.used then d.reportWin SRC_CW_RELEASE k (r * 4294967296 + head) 10
    else (d.setRing rk { x with head := head }).ringGoesOn rk

/-- A release record (R149). -/
def Dev.releaseRec (d : Dev) (k : Nat) (rec : Bytes) : Dev :=
  [0, 1, 2, 3, 4, 5, 6, 7].foldl (fun d r => if bit (u8 rec 0x20) r then d.releaseHead k r (u32 rec (4 * r)) else d) d

/-- R152, R448: an interrupt that MOD_TIME triggers enters CONTROL of the outlet by which the entries left. -/
def Dev.modIrq (d : Dev) (rk vec lastAddr : Nat) (dst : Dest) : Dev :=
  match dst with
  | .pcie p fn => d.pushCtl (2 + p) ((d.outlet (2 + p)).counted 4 1) [.msix p fn vec]
  | .fab b e => d.pushCtl e (d.frameLen (.fab b e) 0) [.dmaWriteImm (.fab b e) lastAddr [] (vec % 16 + rk % 8 * 16)]

/-- MOD_TIME_EXPIRY (R152, R156): entries that have left are signalled, those of earlier configurations of the ring too. -/
def Dev.modTime (d : Dev) (rk : Nat) : Dev :=
  let due (unsig firstAt modTime : Nat) : Bool := unsig > 0 && firstAt + modTime * 1000 ≤ d.now
  let r := d.ring rk
  let old := r.past.filter fun p => due p.2.unsig p.2.firstAt p.2.modTime
  let now := due r.unsig r.firstAt r.modTime
  let d := d.setRing rk { r with
    unsig := if now then 0 else r.unsig
    past := Tab.mapV r.past fun _ m => if due m.unsig m.firstAt m.modTime then { m with unsig := 0 } else m }
  let d := old.foldl (fun d p => d.modIrq rk p.2.vec p.2.lastAddr p.2.dest) d
  if now then d.modIrq rk r.vec r.lastAddr r.lastDest else d

/-- RING_FULL_TIMEOUT (R150): completions that have waited 1 ms are discarded and their CREDITS return. -/
def Dev.ringFull (d : Dev) (rk : Nat) : Dev :=
  let r := d.ring rk
  let (late, keep) := r.wait.partition fun p => p.1 + 1000000 ≤ d.now
  let d := d.setRing rk { r with wait := keep }
  let d := late.foldl (fun d p =>
    ((d.dropWaiting [p]).reportWin SRC_RING_FULL p.2.win (if winIsPf0 rk then 0 else rk % 8) 4).configAfter rk p.2) d
  d.ringGoesOn rk

/-! ## Ports (R157 to R161, R539) -/

/-- R158: a write to ADM_RING_BASE. -/
def Dev.admBase (d : Dev) (port v : Nat) : Dev := d.updRing (pf0Win port) fun r => { r with base := v % 2 ^ 64 / 4096 * 4096 }

/-- R158: a write to ADM_RING_CFG. -/
def Dev.admCfg (d : Dev) (port v : Nat) : Dev :=
  let k := pf0Win port
  let en := bit v 31
  let size := bits v 4 0
  let mc := bits v 20 12
  if en && !(6 ≤ size && size ≤ 16 && 1 ≤ mc && mc ≤ 256) then d
  else
    let r := d.ring k
    let x := { r with vec := bits v 11 10, modTime := bits v 30 21, modCount := mc, size := size, en := en }
    (d.setRing k (if en && !r.en then { x with written := 0, head := 0, unsig := 0, setup := r.setup + 1, past := r.close.past }
      else x)).rehome k

/-- R161: admin commands of a port's PF0 window run on and their completions are discarded; descriptors still waiting
are lost with the window, and the admin ring is disabled. -/
def Dev.dropPf0 (d : Dev) (port : Nat) : Dev :=
  let k := pf0Win port
  let d := { d with reqs := (Tab.keep d.reqs fun _ q => !(q.win == k && q.waiting)).map fun (p : Nat × Req) =>
      (p.1, if p.2.win == k then { p.2 with mute := true } else p.2) }
  (d.setWin k {}).setRing k { (d.ring k).close with en := false, wait := [] }

/-- Table 06.10: BIB_FATAL, BINDING_LOST, against every bib bound to a VF of a port. -/
def Dev.bindingLost (d : Dev) (port : Nat) : Dev :=
  (d.bibs.filter fun x => x.2.state != 0 && x.2.bind.kind == 1 && x.2.bind.port == port).foldl
    (fun d x => d.report SRC_BINDING_LOST 6 port (some x.1) 0 0) d

/-- PERST_N or hot reset of a port (R539): its controller, PF0, VFs and admin ring, and nothing else. -/
def Dev.resetPort (d : Dev) (port : Nat) : Dev :=
  let d := d.dropPf0 port
  let d := d.updPort port fun p =>
    { apt := p.apt, sampled := p.sampled, loadRate := p.loadRate, loadWidth := p.loadWidth, degraded := p.degraded }
  (d.clearRing (pf0Win port)).bindingLost port

/-- R545: in recovery, and in the run that it starts, only port A's link comes up. -/
def Dev.linkBarred (d : Dev) (port : Nat) : Bool := port = 1 && 2 ≤ d.straps.bootMode

/-- PWR_CLK.PCIE: a port's PLL has locked, or lost its clock (R533, R535). -/
def Dev.lockPcie (d : Dev) (port : Nat) (on : Bool) : Dev :=
  let x := d.rg .PWR_CLK_PCIE
  d.setRg .PWR_CLK_PCIE (if bit x port = on then x else if on then x + 2 ^ port else x - 2 ^ port)

/-- R539: link training of a port starts, and the port answers configuration requests from 100 ms on. The link trains to its
full rate and width (Table 06.9); LINK_DEGRADED tells of less: DESIGN CHOICE (log 37). -/
def Dev.trainPort (d : Dev) (port : Nat) : Dev :=
  if d.linkBarred port then d
  else (d.lockPcie port true).updPort port fun p => { p with up := true, rate := 32, width := 16, perst := false, answersAt := d.now + 100000000 }

/-- R73, R94: APT_EN is sampled for a port. ID_CAP0.APT is fixed by the first sample (log 106). -/
def Dev.sampleApt (d : Dev) (port : Nat) (aptEn : Bool) : Dev :=
  let first := !(d.ports.any fun p => p.sampled)
  let d := d.updPort port fun p => { p with apt := aptEn, sampled := true }
  if first then d.setRg .ID_CAP0_APT (ofBool aptEn) else d

/-- LINK_DEGRADED (R449): the rate and width trained; the Referee records UNIT_FATAL without a fence, and requests in flight on
that outlet are excused; those that land later are too, until the next load (`Dev.onDegraded`). -/
def Dev.linkDegraded (d : Dev) (port lanes rate : Nat) : Dev :=
  let p := d.port port
  let worse := d.imageLoaded && rate * lanes < p.loadRate * p.loadWidth
  let d := d.updPort port fun p => { p with up := lanes > 0, rate := rate, width := lanes, degraded := p.degraded || worse }
  if !worse then d
  else
    let d := d.report SRC_LINK_DEGRADED 6 port none (lanes % 256 + rate % 256 * 256) 0
    { d with reqs := Tab.mapV d.reqs fun _ q => if (d.winDest q.win).outlet == 2 + port then { q with excused := true } else q }

/-- Table 03.1: size and type bits of a 64-bit BAR, of PF0 (0, 1, 2 for BAR0, BAR2, BAR4) or of the VFs (3, 4). -/
def barShape (apt : Bool) : Nat → Nat × Nat
  | 0 => (0x10000000, 0x4)
  | 1 => (0x2000, 0x4)
  | 2 => if apt then (0x1000000000, 0xC) else (0, 0)
  | 3 => (0x20000, 0x4)
  | 4 => (0x2000, 0x4)
  | _ => (0, 0)

/-- A BAR double word as it reads: the address bits that the size leaves, and in the low one the type (R73). -/
def Port.barWord (p : Port) (i : Nat) : Nat :=
  let (size, type) := barShape p.apt (i / 2)
  if size = 0 then 0
  else
    let v := Tab.get 0 p.bars i % 2 ^ 32
    if i % 2 = 0 then (if size < 2 ^ 32 then v / size * size else 0) + type else v / max 1 (size / 2 ^ 32) * max 1 (size / 2 ^ 32)

/-- The link speed code of a rate in GT/s. PRESUMED from the published standard (log 107). -/
def speedCode (rate : Nat) : Nat := if 32 ≤ rate then 5 else if 16 ≤ rate then 4 else if 8 ≤ rate then 3 else if 5 ≤ rate then 2 else 1

/-- Table 06.9: a field of the configuration space; none for what only the published standard gives. -/
def Port.cfgField (p : Port) (f : CfgField) : Option Nat :=
  let m (fn : Nat) : Msix := (Tab.find p.msix fn).getD {}
  match f with
  | .totalVfs => some 512
  | .firstVfOffset => some 1
  | .vfStride => some 1
  | .numVfs => some p.numVfs
  | .vfEnable => some (ofBool p.vfEnable)
  | .ariCapable => some 1
  | .ariEnable => some (ofBool p.ari)
  | .maxPayload => some p.mps
  | .maxRead => some p.mrrs
  | .linkSpeed => some (speedCode p.rate)
  | .linkWidth => some p.width
  | .msixSize fn => some (if fn = 0 then 3 else 15)
  | .msixEnable fn => some (ofBool (m fn).enabled)
  | .powerState fn => some (if p.d3.contains fn then 3 else 0)
  | .ecrcGen => some (ofBool p.ecrcGen)
  | .ecrcCheck => some (ofBool p.ecrcCheck)
  | .completionTimeout => some p.timeoutCode
  | .timeoutDisable => some 0
  | .bar i => some (p.barWord i)
  | .ident => none

/-- PCIE_CONFIG_REQUEST (R159, R539): a port answers from 100 ms after its training started. A value that Table 06.9 does not
support changes nothing (DESIGN CHOICE, log 107). -/
def Dev.cfgRequest (d : Dev) (port : Nat) (c : CfgReq) : Dev :=
  if d.now < (d.port port).answersAt then d
  else match c with
  | .vfEnable on n =>
    let was := (d.port port).vfEnable
    let d := d.updPort port fun p => { p with vfEnable := on, numVfs := if on then min 512 n else 0 }
    if was && !on then d.bindingLost port else d
  | .msixEnable fn on =>
    d.updPort port fun p => { p with msix := Tab.ins p.msix fn { ((Tab.find p.msix fn).getD {}) with enabled := on } }
  | .powerState fn d3 =>
    d.updPort port fun p => { p with d3 := if d3 then insertBy (· < ·) fn (p.d3.filter (· != fn)) else p.d3.filter (· != fn) }
  | .maxPayload n => if [128, 256, 512].contains n then d.updPort port fun p => { p with mps := n } else d
  | .maxRead n => if [128, 256, 512, 1024, 2048, 4096].contains n then d.updPort port fun p => { p with mrrs := n } else d
  | .ariEnable on => d.updPort port fun p => { p with ari := on }
  | .ecrc gen check => d.updPort port fun p => { p with ecrcGen := gen, ecrcCheck := check }
  | .completionTimeout code =>
    if [0, 1, 2, 5, 6, 9, 10, 13, 14].contains code then d.updPort port fun p => { p with timeoutCode := code } else d
  | .barWrite i v => if i < 12 then d.updPort port fun p => { p with bars := Tab.put 0 p.bars i (v % 2 ^ 32) } else d
  | .read f =>
    match (d.port port).cfgField f with
    | some v => d.emit (.readData port (le 4 v))
    | none => let (b, d) := d.undefBytes 4; d.emit (.readData port b)

/-- The MSI-X state of a function. -/
def Dev.msixOf (d : Dev) (port fn : Nat) : Msix := (Tab.find (d.port port).msix fn).getD {}

/-- Table 03.1, R158: vectors of a function. -/
def msixVecs (fn : Nat) : Nat := if fn = 0 then 4 else 16

/-- Four bytes of a function's BAR2: the MSI-X table, entries of 16 bytes with the mask in the last word, and the pending-bit
array at 0x1000 (Table 03.1; the entry's layout PRESUMED from the published standard, log 107). -/
def Dev.msixWord (d : Dev) (port fn off : Nat) : Nat :=
  let m := d.msixOf port fn
  if off < 0x1000 then
    if msixVecs fn ≤ off / 16 then 0
    else if off % 16 / 4 = 3 then ofBool (!m.unmasked.contains (off / 16)) else Tab.get 0 m.table (off / 4)
  else if off / 4 = 0x400 then sum (m.pendingVecs.map fun v => 2 ^ v) else 0

/-- MSIX_UNMASK (R152): the vector is unmasked, and its pending message is sent. -/
def Dev.unmask (d : Dev) (port fn v : Nat) : Dev :=
  let m := (Tab.find (d.port port).msix fn).getD {}
  let n := { m with unmasked := insertBy (· < ·) v (m.unmasked.filter (· != v)), pendingVecs := m.pendingVecs.filter (· != v) }
  let d := d.updPort port fun p => { p with msix := Tab.ins p.msix fn n }
  if m.pendingVecs.contains v && m.enabled then d.emit (.msix port fn v) else d

/-- A four-byte write to a function's BAR2: the vector control word masks or unmasks (R152); the pending bits ignore it. -/
def Dev.msixWrite (d : Dev) (port fn off v : Nat) : Dev :=
  let m := d.msixOf port fn
  let vec := off / 16
  let put (m : Msix) : Dev := d.updPort port fun p => { p with msix := Tab.ins p.msix fn m }
  if 0x1000 ≤ off || msixVecs fn ≤ vec then d
  else if off % 16 / 4 = 3 then (if bit v 0 then put { m with unmasked := m.unmasked.filter (· != vec) } else d.unmask port fn vec)
  else put { m with table := Tab.put 0 m.table (off / 4) (v % 2 ^ 32) }

/-- R137: a block that is not complete, or a poisoned TLP, is dropped, counted and recorded; in a window that takes no writes it
is stray (R116). -/
def Dev.dropBlock (d : Dev) (src : Src) (off : Nat) : Dev :=
  match d.srcWin src with
  | none => d.bump .BIBTAB_STRAY_COUNT
  | some k =>
    if d.discards k then d.bump .BIBTAB_STRAY_COUNT
    else (d.updWin k fun w => { w with dropped := min 255 (w.dropped + 1) }).reportWin SRC_CW_PARTIAL k off 10

/-! ## The commands -/

/-- RING_RELEASE (R149): a 64-byte write to offset 0x1FC0 of an admin window. -/
def execRingRelease (t : Nat) (src : Src) (rec : Bytes) (s : State) : Host.Outcome State Fault Refusal :=
  s.runIf t Dev.coreOn fun d =>
    match d.srcWin src with
    | none => d.bump .BIBTAB_STRAY_COUNT
    | some k => if d.discards k then d.bump .BIBTAB_STRAY_COUNT else d.releaseRec k rec

/-- STRAY_WINDOW_WRITE (R116): the write to a VF that carries no bib is discarded and counted. -/
def execStrayWindowWrite (t port vf : Nat) (s : State) : Host.Outcome State Fault Refusal :=
  s.runIf t Dev.coreOn fun d =>
    match d.srcWin (.vf port vf 0) with
    | none => d.bump .BIBTAB_STRAY_COUNT
    | some k => if d.discards k then d.bump .BIBTAB_STRAY_COUNT else d

/-- TLP_DROPPED (R137, Table 06.10): an incomplete block or a poisoned TLP is counted and recorded; a malformed TLP or
one with an ECRC error (where its checking is enabled, R159) goes to AER alone, a poisoned one to AER too. -/
def execTlpDropped (t : Nat) (src : Src) (kind : TlpDrop) (off : Nat) (s : State) : Host.Outcome State Fault Refusal :=
  s.runIf t Dev.coreOn fun d =>
    let port := match src with | .pf0 p => p | .vf p _ _ => p | .fab _ _ => 0 | .fabOld _ _ => 0
    let seen := kind != .incomplete && (kind != .ecrc || (d.port port).ecrcCheck)
    let d := if seen then d.emit (.aer port) else d
    if kind = .malformed || kind = .ecrc then d else d.dropBlock src off

/-- ADMIN_RING_CONFIG (R158). -/
def execAdminRingConfig (t port value : Nat) (s : State) : Host.Outcome State Fault Refusal :=
  s.runIf t Dev.coreOn fun d => d.admCfg port value

/-- MOD_TIME_EXPIRY (R152). -/
def execModTimeExpiry (t ring : Nat) (s : State) : Host.Outcome State Fault Refusal :=
  s.runIf t Dev.coreOn fun d => d.modTime ring

/-- RING_FULL_TIMEOUT (R150). -/
def execRingFullTimeout (t ring : Nat) (s : State) : Host.Outcome State Fault Refusal :=
  s.runIf t Dev.coreOn fun d => d.ringFull ring

/-- PERST_DEASSERT (R539, R73): APT_EN is sampled and link training starts; while the node is in reset, training waits for
the end of RESET_N (RESET_RELEASE). -/
def execPerstDeassert (t port : Nat) (aptEn : Bool) (s : State) : Host.Outcome State Fault Refusal :=
  s.runIf t (fun d => d.power != 0) fun d =>
    let d := (d.sampleApt port aptEn).updPort port fun p => { p with perst := false }
    if d.mgmtOn then d.trainPort port else d

/-- LINK_DEGRADED (R449). -/
def execLinkDegraded (t port lanes rate : Nat) (s : State) : Host.Outcome State Fault Refusal :=
  s.runIf t Dev.coreOn fun d => d.linkDegraded port lanes rate

/-- MSIX_UNMASK (R152). -/
def execMsixUnmask (t port fn vec : Nat) (s : State) : Host.Outcome State Fault Refusal :=
  s.runIf t Dev.coreOn fun d => d.unmask port fn vec

end Sys2Proof.Machine
end

