-- ==== Sys2Proof/Machine/Bibs.lean ====
section
/-!
DEFINITION. Bibs (spec file 05) and the ring commands of file 06: the bib state machine, teardown, composition changes,
RING_SET, and the checks that every admin command shares (R155).
-/
namespace Sys2Proof.Machine

/-! ## The checks of an admin command (R155, R20) -/

/-- The failures of an admin command, each with its RESULT; the lowest code is reported, and among equal codes the
lowest RESULT (R20, R128). -/
def pickFail : List (Nat × Nat) → Option (Nat × Nat)
  | [] => none
  | a :: r => match pickFail r with
    | none => some a
    | some b => if b.1 < a.1 || (b.1 = a.1 && b.2 < a.2) then some b else some a

/-- One failure where a condition holds. -/
def failIf (c : Bool) (st : Nat) (res : Nat := 0) : List (Nat × Nat) := if c then [(st, res)] else []

/-- RESULT 1 of the bib commands and contract changes (R110, R122, R128): the descriptor landed while the loader was in
NO_IMAGE, CHECKING or STORING; in DRAINING and APPLYING it fails at landing. -/
def Req.loaderBusy (q : Req) : Bool := q.loader ≤ 2

/-- Reserved payload bytes of a descriptor: all but the header and the named places are 0. -/
def payloadOk (used : List (Nat × Nat)) (x : Bytes) : Bool := reservedZero 0 ((0, 16) :: used) x

/-- A command ends with its failure, if it has one; else it goes on. -/
def Dev.checked (d : Dev) (r : Nat) (fails : List (Nat × Nat)) (go : Dev → Dev) : Dev :=
  match pickFail fails with
  | some (st, res) => d.complete r st res
  | none => go d

/-- R20: a request whose buffer may yet show a lower failure code reads it all the same; nothing ranks below
ST_BAD_DESC. -/
def Dev.checkedRead (d : Dev) (r : Nat) (fails : List (Nat × Nat)) (go : Dev → Dev) : Dev :=
  match pickFail fails with
  | none => go d
  | some (st, res) => if st = ST_BAD_DESC then d.complete r st res else go (d.updReq r fun q => { q with pre := fails })

/-- The failure of a request whose buffer could not be read (R160, R20). -/
def Req.readFail (q : Req) : Nat × Nat :=
  (pickFail (q.fails.map (fun s => (s, 0)) ++ q.pre)).getD (ST_INTERNAL, 0)

/-- R547, Table 22.11: an entry is appended to the measurement log. -/
def Dev.measure (d : Dev) (kind : Nat) (bib : Option Nat) (digest : Bytes) : Dev :=
  let n := d.rg .MEAS_COUNT_ENTRIES
  let e := le 4 n ++ le 1 kind ++ le 1 0 ++ le 2 (bib.getD 0xFFFF) ++ le 8 d.now ++ fill 48 0 ++ fit 64 digest
  let d : Dev := { d with measRun := sha512 (d.measRun ++ fit 64 digest) }
  let d : Dev := if d.measLog.length < 4096 then { d with measLog := d.measLog ++ [e] } else d.bump .MEAS_DROPPED_COUNT
  d.bump .MEAS_COUNT_ENTRIES

/-- R61: a run-time change that is accepted is measured by its descriptor. -/
def Dev.measureChange (d : Dev) (q : Req) : Dev := d.measure 3 q.bib (sha512 q.desc)

/-! ## Teardown (R124, R126) -/

/-- R140: CW_STAT's counters of a bib's windows return to 0. -/
def Dev.zeroWins (d : Dev) (b : Nat) : Dev :=
  { d with wins := Tab.mapV d.wins fun k w =>
      if !winIsPf0 k && winBib k == b then { w with accum := 0, nocredit := 0, dropped := 0 } else w }

/-- R124 step 2 without grace: work still running completes with ST_FENCED. -/
def Dev.tdCut (d : Dev) (b : Nat) : Dev :=
  (d.updBib b fun x => { x with tdGrace := false }).endAll (fun q => q.bib == some b && !q.waiting && !q.joined) ST_FENCED

/-- R124: a teardown starts; `waiter` awaits its end. -/
def Dev.startTeardown (d : Dev) (b : Nat) (grace : Bool) (pending : Nat) (sw : Bool) (waiter : Option Nat) : Dev :=
  let d := d.updBib b fun x =>
    { x with state := 4, pending := pending, tdStart := d.now, tdGrace := grace, tdWait := waiter.toList
             sw := if sw then min 65535 (x.sw + 1) else x.sw, hw := if sw then x.hw else min 65535 (x.hw + 1) }
  let d := d.endAll (fun q => q.bib == some b && q.waiting) ST_FENCED
  if grace then d else d.tdCut b

/-- R124 steps 4 and 5, without the pool's part (Admin.lean adds it): contexts and records are released, the generation
increments, and the bib enters its pending state. -/
def Dev.endTeardown (d : Dev) (b : Nat) : Dev :=
  let x := d.bib b
  let d : Dev := { d with reqs := Tab.keep d.reqs fun _ q => !(q.bib == some b && q.ended)
                          dmas := Tab.keep d.dmas fun _ m => m.bib != some b
                          bufs := Tab.keep d.bufs fun n _ => d.dmas.any fun p => p.2.buf == n && p.2.bib != some b }
  let d := (d.resolveBib b).zeroWins b
  let g := (x.gen + 1) % 65536
  let d := d.updBib b fun x =>
    { x with gen := g, state := if x.pending = 1 then 2 else 1, pending := 0, tdGrace := false, tdWait := []
             qpReady := if x.bind.kind = 2 then true else x.qpReady }
  x.tdWait.foldl (fun d r => d.complete r ST_OK g) d

/-! ## The bib state machine (Table 05.3) -/

/-- The events of Table 05.3 that a command or the Referee's timer brings. -/
inductive BibCmd where
  | enable | disable | resetPf0 | resetOwn | expiry
deriving DecidableEq, Repr

/-- An answer to the command that brought the event, where one did. -/
def Dev.answer (d : Dev) (r : Option Nat) (st res : Nat) : Dev :=
  match r with
  | some r => d.complete r st res
  | none => d

/-- Table 05.3. RESULT is the current generation where BIB_ENABLE meets an ACTIVE bib, and 0 where a command meets a DISABLED
one: the table names none, DESIGN CHOICE (log 108). -/
def Dev.bibEvent (d : Dev) (b : Nat) (c : BibCmd) (r : Option Nat) : Dev :=
  let x := d.bib b
  let next := (x.gen + 1) % 65536
  match x.state with
  | 1 =>
    match c with
    | .enable => (d.updBib b fun x => { x with state := 2 }).answer r ST_OK x.gen
    | _ => d.answer r ST_OK 0
  | 2 =>
    match c with
    | .enable => d.answer r ST_OK x.gen
    | .expiry => d
    | .disable => d.startTeardown b true 2 true r
    | .resetPf0 => d.startTeardown b false 1 true r
    | .resetOwn => (d.answer r ST_DEFERRED next).startTeardown b false 1 true none
  | 3 =>
    match c with
    | .enable => d.answer r ST_FENCED 0
    | .disable => d.startTeardown b false 2 true r
    | .expiry => d.startTeardown b false 1 false none
    | _ => d.startTeardown b false 1 true r
  | 4 =>
    match c with
    | .disable => (d.updBib b fun x => { x with pending := 2 }).answer r ST_DEFERRED next
    | .expiry => d
    | _ => (d.updBib b fun x => { x with pending := 1 }).answer r ST_DEFERRED next
  | _ => d

/-- BIB_ENABLE, BIB_DISABLE, BIB_RESET as admitted (R122, R155). -/
def Dev.bibCommand (d : Dev) (r : Nat) (q : Req) (op : Nat) : Dev :=
  let b := u16 q.desc 0x10
  let own := !winIsPf0 q.win
  let c : BibCmd := if op = 0x62 then .enable else if op = 0x63 then .disable else if own then .resetOwn else .resetPf0
  d.checked r
    (failIf (!payloadOk [(0x10, 2)] q.desc || b > 1023) ST_BAD_DESC
      ++ failIf (own && (op != 0x64 || b != winBib q.win || !(d.bib b).selfReset)) ST_NOT_OWNER
      ++ failIf q.loaderBusy ST_REFUSED_RESOURCE 1
      ++ failIf ((d.bib b).state = 0) ST_REFUSED_RESOURCE 2)
    fun d => (if (d.bib b).state = 3 && c = .enable then d else d.measureChange q).bibEvent b c (some r)

/-! ## RING_SET (R155, R156) -/

/-- Reading a ring record; `ok` says that its fields are in range (R155, R156). -/
def ringRecord (x : Bytes) : RingRec :=
  let e := u8 x 5
  let r : RingRec := { bib := u16 x 0, ring := u8 x 2, vec := u8 x 3, size := u8 x 4, en := e = 1, modCount := u16 x 6
                       base := u64 x 8, modTime := u16 x 0x10, ok := true }
  { r with ok := r.ring ≤ 7 && e ≤ 1 && zeros x 0x12 14 && (!r.en || (r.vec ≤ 15 && 6 ≤ r.size && r.size ≤ 16
      && 1 ≤ r.modCount && r.modCount ≤ 256 && r.base % 4096 == 0 && r.modTime ≤ 1023)) }

/-- RING_SET. Its completion goes to the ring its header names, as configured before the change; where that is the ring it
configures and the entry has to wait for room, so does the change. An ABSENT bib is refused as R122 refuses it: DESIGN
CHOICE (log 109). -/
def Dev.ringSet (d : Dev) (r : Nat) (q : Req) : Dev :=
  let x := ringRecord (sub q.desc 0x10 32)
  let own := !winIsPf0 q.win
  let b := d.bib x.bib
  let rk := bibWin x.bib b.path x.ring
  d.checked r
    (failIf (!payloadOk [(0x10, 0x20)] q.desc || x.bib > 1023 || !x.ok
        || (x.en && b.bind.kind = 2 && !inRegions b.keys x.base (2 ^ x.size * 32))) ST_BAD_DESC
      ++ failIf (own && x.bib != winBib q.win) ST_NOT_OWNER
      ++ failIf (b.state = 0) ST_REFUSED_RESOURCE 2
      ++ failIf (!x.en && x.ring = 0 && b.state = 2) ST_REFUSED_RESOURCE 3)
    fun d =>
      if own && d.targetRing q.win (u8 q.desc 1 % 8) = rk && (d.ring rk).en && !d.reroutes q.win then
        (d.complete r ST_OK 0 (some x)).rehome rk
      else ((d.complete r ST_OK).updRing rk fun y => y.configure x).rehome rk

/-! ## BIB_BIND (R128 to R134) -/

/-- The binding that BIB_BIND names. -/
def bindOf (x : Bytes) : Binding :=
  { kind := u8 x 0x12, port := u8 x 0x13, vf := u16 x 0x14, qpn := u32 x 0x18, gid := un 16 x 0x20 }

/-- Table 05.1: a binding whose fields are in range, and 0 where its KIND does not use them. -/
def Binding.ok (y : Binding) : Bool :=
  match y.kind with
  | 0 => y.port = 0 && y.vf = 0 && y.qpn = 0 && y.gid = 0
  | 1 => y.port ≤ 1 && 1 ≤ y.vf && y.vf ≤ 512 && y.qpn = 0 && y.gid = 0
  | 2 => y.port ≤ 1 && y.vf = 0 && y.qpn < 2 ^ 24
  | _ => false

/-- The outlet of a binding, if it has one. -/
def Binding.outlet (y : Binding) : Option Nat :=
  match y.kind with
  | 1 => some (2 + y.port)
  | 2 => some y.port
  | _ => none

/-- Table 05.4: the refusals of BIB_BIND, by RESULT. A VF, or a remote endpoint, that another bib's composition change is still
leaving carries that bib: DESIGN CHOICE (log 110). -/
def Dev.bindRefusals (d : Dev) (q : Req) (b : Nat) (y : Binding) : List (Nat × Nat) :=
  let x := d.bib b
  let taken := d.bibs.any fun p => p.1 != b && p.2.state != 0 &&
    ((y.kind == 1 && p.2.bind.kind == 1 && p.2.bind.port == y.port && p.2.bind.vf == y.vf) ||
     (y.kind == 2 && p.2.bind.kind == 2 && p.2.bind.gid == y.gid && p.2.bind.qpn == y.qpn) ||
     (match p.2.old with
      | some o => (y.kind == 1 && o.kind == 1 && o.port == y.port && o.vf == y.vf)
          || (y.kind == 2 && o.kind == 2 && o.gid == y.gid && o.qpn == y.qpn)
      | none => false))
  let tooSmall := match y.outlet with
    | none => false
    | some o => [0, 1, 2, 3, 4, 5, 6, 7, 8].any fun s => match Tab.find d.pacers (pacerKey b s) with
        | some p => p.rate > 0 && p.depth < d.lMax o
        | none => false
  let noRate := match y.outlet with
    | none => false
    | some o => (d.contracts.any fun p => p.2.bib == b) && (d.outlet o).rate = 0
  failIf q.loaderBusy ST_REFUSED_RESOURCE 1
    ++ failIf (x.state = 0 || x.state = 3 || x.state = 4) ST_REFUSED_RESOURCE 2
    ++ failIf x.old.isSome ST_REFUSED_RESOURCE 3
    ++ failIf taken ST_REFUSED_RESOURCE 4
    ++ failIf (y.kind = 1 && !((d.port y.port).vfEnable && y.vf ≤ (d.port y.port).numVfs)) ST_REFUSED_RESOURCE 5
    ++ failIf (y.kind = 1 && q.win != pf0Win y.port) ST_REFUSED_RESOURCE 6
    ++ failIf (y.kind = 0 && x.state != 1) ST_REFUSED_RESOURCE 7
    ++ failIf (tooSmall || noRate) ST_REFUSED_RESOURCE 8

/-- R77, R129: VF_INFO.MAP of a VF takes the map epoch of its binding. -/
def Dev.stampVf (d : Dev) (y : Binding) (map : Nat) : Dev :=
  if y.kind = 1 then d.setRg .VF_INFO_MAP map y.port y.vf else d

/-- R129 to R131: T0. The map epoch increments, the binding changes, the new path starts with empty windows, and the
rings come from RINGTAB. A DISABLED bib has no drain (R133). -/
def Dev.bindAt (d : Dev) (b : Nat) (y : Binding) (rings : List RingRec) : Dev :=
  let x := d.bib b
  let map := (d.rg .BIBTAB_MAP_EPOCH + 1) % 65536
  let d := d.setRg .BIBTAB_MAP_EPOCH map
  let d := ((d.excuse (some b)).zeroWins b).expireBib (some b)
  let p := 1 - x.path
  let drain := x.state = 2 && d.reqs.any fun q => !q.2.ended && !winIsPf0 q.2.win && winBib q.2.win == b
  let d := d.setBib b { x with bind := y, path := p, map := map, t0 := d.now, prev := x.bind, keys := none, qpReady := y.kind = 2
                               old := if drain then some x.bind else none, oldKeys := if drain then x.keys else none }
  let d := [0, 1, 2, 3, 4, 5, 6, 7].foldl (fun d w => (d.clearRing (bibWin b p w)).setWin (bibWin b p w) {}) d
  let d := (rings.filter (·.en)).foldl (fun d r => d.updRing (bibWin b p r.ring) fun z => z.configure r) d
  d.stampVf y map

/-- BIB_BIND as admitted: its fields, then the ring table of a VF binding is read. -/
def Dev.bibBind (d : Dev) (r : Nat) (q : Req) : Dev :=
  let b := u16 q.desc 0x10
  let y := bindOf q.desc
  let tab := u64 q.desc 0x30
  let d := d.updReq r fun q => { q with stage := 1 }
  let bad := !payloadOk [(0x10, 6), (0x18, 4), (0x20, 24)] q.desc || b > 1023 || !y.ok || (y.kind != 1 && tab != 0)
  let own := !winIsPf0 q.win
  let fails := failIf bad ST_BAD_DESC ++ failIf own ST_NOT_OWNER
    ++ (if bad then [] else d.bindRefusals q b y)
  match (if y.kind = 1 && !bad then none else pickFail fails) with
  | some (st, res) => d.complete r st res
  | none =>
    if y.kind = 1 then (d.updReq r fun q => { q with pre := fails }).dmaRead r 0 tab 256
    else
      let d := (d.bindAt b y []).measureChange q
      d.complete r ST_OK (d.rg .BIBTAB_MAP_EPOCH)

/-- BIB_BIND goes on with its ring table (Table 06.7): the refusals again, then T0. -/
def Dev.bibBindRings (d : Dev) (r : Nat) (q : Req) (table : Bytes) : Dev :=
  let b := u16 q.desc 0x10
  let y := bindOf q.desc
  let recs := (chunks 32 8 table).map ringRecord
  let fails := failIf (recs.any fun x => !x.ok) ST_BAD_DESC ++ (if q.pre.isEmpty then d.bindRefusals q b y else q.pre)
  match pickFail fails with
  | some (st, res) => d.complete r st res
  | none =>
    let d := (d.bindAt b y recs).measureChange q
    d.complete r ST_OK (d.rg .BIBTAB_MAP_EPOCH)

/-! ## FAULT_ACK (R503, R504) -/

/-- The 32 bytes of a Referee record (Table 20.7). -/
def refBytes : Option RefRec → Bytes
  | none => fill 32 0
  | some r =>
    le 8 r.addr ++ le 8 r.time ++
    le 8 (r.utype * 2 ^ 48 + r.uinst * 2 ^ 32 + (match r.bib with | some b => 2 ^ 31 + b * 65536 | none => 0) + r.gen) ++
    le 8 (r.count * 2 ^ 32 + r.source * 2 ^ 24 + r.access * 2 ^ 20 + r.cls * 256 + r.state * 16 + min 15 r.steps)

/-- GRACE_EXPIRY (R506 to R508): an OPEN record's window has ended, and it escalates one step. -/
def Dev.graceExpiry (d : Dev) (n : Nat) : Dev :=
  match Tab.find d.recs n with
  | none => d
  | some x =>
    if !(x.state = 1 && x.cls ≥ 1 && x.since + d.rg .REF_CFG_GRACE_US * 1000 ≤ d.now) then d
    else
      let put (d : Dev) (y : RefRec) : Dev :=
        { d.bump .REF_ESCAL_COUNT with recs := Tab.ins d.recs n { y with steps := min 15 (y.steps + 1), since := d.now } }
      match x.bib with
      | some b =>
        if (d.bib b).state = 4 || x.resetDone then d
        else if x.cls = 1 then ((put d { x with cls := 2 }).bibFatal b).notify 2
        else (put d { x with resetDone := true }).bibEvent b .expiry none
      | none =>
        if x.cls = 1 then
          let d := put d { x with cls := 3 }
          (d.fenceUnit x.utype x.uinst).notify 3
        else if x.cls = 3 then ((put d { x with cls := 4 }).fenceNode).notify 4
        else d

/-- FAULT_ACK as admitted: READ, ACK, CLEAR in that order. A window that ends by now escalates first (R506). Where READ's
buffer lies in no region (R442), the command fails and does none of them. -/
def Dev.faultAck (d : Dev) (r : Nat) (q : Req) : Dev :=
  let n := u16 q.desc 0x10
  let a := u8 q.desc 0x12
  let cnt := u32 q.desc 0x14
  let addr := u64 q.desc 0x18
  let own := !winIsPf0 q.win
  d.checked r
    (failIf (!payloadOk [(0x10, 3), (0x14, 12)] q.desc || n > 10239 || a = 0 || a > 7 || (bit a 2 && addr % 64 != 0)) ST_BAD_DESC
      ++ failIf (own && !(n < 8192 && n / 8 = winBib q.win)) ST_NOT_OWNER)
    fun d =>
      let d := d.graceExpiry n
      if bit a 2 && !d.dmaOk q.win addr 256 then (d.dmaWrite r addr (fill 256 0)).finish r ST_OK 0
      else
      let d := if bit a 2 then
          d.dmaWrite r addr (((List.range 8).map fun i => refBytes (Tab.find d.recs (n / 8 * 8 + i))).flatten)
        else d
      match Tab.find d.recs n with
      | none => d.finish r ST_OK 0
      | some x =>
        let free := bit a 1 && cnt = x.count
        let st := if x.state = 1 && (bit a 0 || bit a 1) then 2 else x.state
        let d := if free then { d with recs := Tab.del d.recs n } else { d with recs := Tab.ins d.recs n { x with state := st } }
        d.finish r ST_OK (x.count + x.cls * 2 ^ 32 + (if free then 0 else st) * 2 ^ 36 + ofBool free * 2 ^ 40)

/-! ## The commands that need nothing of another family -/

/-- REF_PEND_CLEAR (R514, R15 W1C): a 1 clears the bit; a hardware set of the same cycle wins. -/
def execRefPendClear (t value : Nat) (hwSet : Bool) (s : State) : Host.Outcome State Fault Refusal :=
  s.runIf t Dev.portsOn fun d =>
    let d := d.onBlock 3 0 fun d => if bit value 0 then d.setRg .REF_PEND_PEND 0 else d
    if hwSet then d.setRg .REF_PEND_PEND 1 else d

/-- ERRCLASS_WRITE (R511, R514): the RW fields of REF_CFG are stored; ERR_N follows `Dev.errN`. GRACE_US is RWL. -/
def execErrclassWrite (t value : Nat) (s : State) : Host.Outcome State Fault Refusal :=
  s.runIf t Dev.portsOn fun d => d.onBlock 3 0 fun d =>
    let d := ((d.setRg .REF_CFG_ERRCLASS (bits value 29 27)).setRg .REF_CFG_NOTIFY (bits value 26 24)).setRg .REF_CFG_VEC
      (bits value 23 22)
    if d.imageLoaded then d else d.setRg .REF_CFG_GRACE_US (bits value 16 0)

/-- NOTIFY_HOLDOFF_END (R512): the shared vector of the events held within 10 µs is sent. -/
def execNotifyHoldoffEnd (t : Nat) (s : State) : Host.Outcome State Fault Refusal :=
  s.runIf t Dev.mgmtOn fun d =>
    let due := match d.notifiedAt with
      | some u => decide (u + 10000 ≤ d.now)
      | none => true
    if d.notifyHeld && due then d.refVector else d

end Sys2Proof.Machine
end

