-- ==== Sys2Proof/Machine/Flash.lean ====
section
/-!
DEFINITION. The flash translation layer and the DRAM tier's frames (spec files 16, 17): tiles, blocks, programs, reads,
eviction, and what the supply allows.
-/
namespace Sys2Proof.Machine

/-- R386: a resident tile, whose copy has arrived. -/
def Tile.resident (t : Tile) : Bool := t.frame.isSome && t.reading.isNone

/-! ## Sleds and targets (R405, R407, R408) -/

def sledOf (target : Nat) : Nat := target / 128
def chanOf (target : Nat) : Nat := target / 16
def Dev.sledState (d : Dev) (n : Nat) : Nat := d.rg .SLED_STAT_STATE n

/-- A sled that reads serve (Table 17.2). -/
def Dev.sledReads (d : Dev) (n : Nat) : Bool := 2 ≤ d.sledState n && d.sledState n ≤ 4

/-- A tile that the flash holds (Table 17.4). -/
def Tile.onFlash (t : Tile) : Bool := t.st == 1 || t.st == 2

/-- R408: a tile whose unit stands on a sled that serves no reads. -/
def Dev.lostTile (d : Dev) (t : Tile) : Bool := t.onFlash && !d.sledReads (sledOf t.target)

/-- R407, R509: a target that takes new programs; in flush mode READ_ONLY serves too, and one of a fenced channel. -/
def Dev.writable (d : Dev) (n : Nat) (flush : Bool) : Bool :=
  (d.sledState (sledOf n) = 2 && (flush || !d.isFenced 0x41 (chanOf n))) || (flush && d.sledState (sledOf n) = 3)

def Dev.writables (d : Dev) (flush : Bool) : List Nat := (Tab.keys d.fl.targets).filter fun n => d.writable n flush

/-- Tiles that a block holds in one-bit mode: a third of the native ones of TLC, a quarter of those of QLC (R413). -/
def Target.slcTiles (x : Target) : Nat := x.perBlock / (if x.qlc then 4 else 3)

/-- The open block of a mode of a target with room, if any. -/
def Target.openBlk (x : Target) (native : Bool) : Option Nat :=
  (x.blks.find? fun p => !p.2.retired && !p.2.erasing && p.2.mode == (if native then 2 else 1)
    && decide (p.2.pages < (if native then x.perBlock else x.slcTiles))).map (·.1)

/-- R404: what the media table says of a target. -/
def Dev.mediaOf (d : Dev) (x : Target) : MediaPart :=
  Tab.get { qlc := x.qlc, tR := 0, tRslc := 0, tSus := 0, tProgJ := 0, tProgSlc := 0, tProg := 0, endurance := 0 } d.fl.media x.id

/-- R409: the blocks of a target that the node uses. -/
def Target.usable (x : Target) : Nat := x.cap.getD x.blocks

/-- R413: the blocks of a target that SLC_SHARE, in 1/1,000, sets aside. -/
def Target.slcBlks (x : Target) (share : Nat) : Nat := max 1 (ceilDiv (x.usable * share) 1000)

/-- LUN of a block, and its number there (Table 17.4). -/
def Target.lunOf (x : Target) (b : Nat) : Nat := b / max 1 (x.blocks / max 1 x.luns)
def Target.inLun (x : Target) (b : Nat) : Nat := b % max 1 (x.blocks / max 1 x.luns)

/-- A block that is not blank, or may not be opened. -/
def Blk.taken (b : Blk) : Bool := b.mode != 0 || b.retired || b.erasing

/-- R413, R415: the free block with the fewest erases, the lowest number first, while the mode has blocks left of its share; a block never
used has no erases. -/
def Target.freeBlk (x : Target) (native : Bool) (share : Nat) : Option Nat :=
  let used := (x.blks.filter fun p => p.2.mode == (if native then 2 else 1) && !p.2.retired).length
  if (if native then x.usable - x.slcBlks share else x.slcBlks share) ≤ used then none
  else
    let blank := ((List.range (x.blks.length + 1)).find? fun n => decide (n < x.usable) && !(Tab.has x.blks n)).toList.map fun n => (0, n)
    let free := (x.blks.filter fun p => !p.2.taken).map fun p => (p.2.erases, p.1)
    match blank ++ free with
    | [] => none
    | a :: r => some (r.foldl (fun b p => if p.1 < b.1 || (p.1 == b.1 && p.2 < b.2) then p else b) a).2

/-- Free blocks of a target. -/
def Target.freeCount (x : Target) : Nat := x.usable - (x.blks.filter fun p => p.2.taken).length

/-- SLC_SHARE of the format; a flush, and a tier without a format, take any block. -/
def Dev.slcShare (d : Dev) (flush : Bool) : Nat :=
  if flush then 1000 else match d.fl.format with | some f => f.2 | none => 1000

/-- Whether a target has room for a program. -/
def Target.room (x : Target) (native : Bool) (share : Nat) : Bool := (x.openBlk native).isSome || (x.freeBlk native share).isSome

/-- Operations in progress on a target. -/
def Dev.opsOn (d : Dev) (n : Nat) : List FOp := (Tab.vals d.fl.ops).filter fun o => o.target == n

/-- R415: the next writable target after the last one, in ascending order, wrapping, that has room, among those that a test
admits. -/
def Dev.nextTarget (d : Dev) (native flush : Bool) (p : Nat → Bool := fun _ => true) : Option Nat :=
  let ts := (d.writables flush).filter fun n => p n && match Tab.find d.fl.targets n with
    | some x => x.room native (d.slcShare flush)
    | none => false
  match ts.find? fun n => decide (d.fl.nextTarget ≤ n) with
  | some n => some n
  | none => ts.head?

/-! ## Buffer, journal bound, supply (R412 to R414, R426) -/

/-- Programs that only the journal reserve may serve (R413). -/
def Why.reserved : Why → Bool
  | .groupJournal .. => true
  | .stepJournal .. => true
  | .mapSegments .. => true
  | .runRecord => true
  | .panelSegs .. => true
  | _ => false

/-- Map segments that a program writes. -/
def Why.segs : Why → List Nat
  | .mapSegments l => l
  | .flushSegments l => l
  | .panelSegs _ l => l
  | _ => []

def FOp.segs (o : FOp) : List Nat := match o.why with | some w => w.segs | none => []

/-- Programs of the flush (Table 17.7). -/
def Why.flush : Why → Bool
  | .startRecord => true
  | .openPages => true
  | .flushSegments _ => true
  | .endRecord => true
  | _ => false

/-- Tiles of the write buffer in use, started programs included. -/
def Dev.bufUsed (d : Dev) : Nat :=
  Tab.count d.fl.map (fun t => t.st == 1) + sum (d.fl.journal.map (·.tiles)) + sum (d.fl.steps.map (·.tiles))
    + d.fl.segHome.length + sum ((Tab.vals d.fl.ops).map fun o => if o.kind == 1 && !o.native then o.tiles else 0)

/-- R413, R414: whether a program finds room in the write buffer. -/
def Dev.bufRoom (d : Dev) (w : Why) (n : Nat) : Bool :=
  let cap := d.rg .FTL_SLC_CAP_TILES
  let used := d.bufUsed
  if w.reserved then used + n ≤ cap
  else used * 100 < cap * d.rg .FTL_CFG_WAIT_PCT && (used + n) * 100 ≤ cap * (100 - d.rg .FTL_CFG_JRES_PCT)

/-- R410, R412: the map segment of a tile: 512 units, 256 tiles. -/
def segOf (tile : Nat) : Nat := tile / 256

/-- R412: the journal bound in segments of 4 KiB. -/
def Dev.segBound (d : Dev) : Nat := d.rg .FTL_JOURNAL_BOUND_MIB * 256

/-- Map segments being written back, or waiting to be. -/
def Dev.flyingSegs (d : Dev) : List Nat := (Tab.vals d.fl.ops ++ d.fl.wait).flatMap FOp.segs

/-- Segments that the programs in progress will dirty as they end. -/
def Dev.comingSegs (d : Dev) : List Nat :=
  (Tab.vals d.fl.ops).filterMap fun o => if o.kind = 1 then o.tile.map segOf else none

/-- R412: dirty segments, those being written back and those that programs in progress will dirty included. -/
def Dev.dirtyAll (d : Dev) : List Nat := (d.fl.dirtySegs ++ d.flyingSegs ++ d.comingSegs).eraseDups
def Dev.dirtyCount (d : Dev) : Nat := d.dirtyAll.length

/-- R412: whether dirtying some segments would pass the bound. -/
def Dev.boundHolds (d : Dev) (segs : List Nat) : Bool :=
  let more := segs.filter fun g => !d.dirtyAll.contains g
  more.isEmpty || decide (d.dirtyCount + more.length ≤ d.segBound)

/-- R412: a writer of a tile whose segment would pass the bound. -/
def Dev.segWaits (d : Dev) (tile : Option Nat) : Bool :=
  match tile with
  | none => false
  | some t => !d.boundHolds [segOf t]

/-- R426: whether a program may start at all. -/
def Dev.mayProgram (d : Dev) : Bool := d.rg .FTL_SUPPLY_NVLOW = 0 && d.rg .FTL_SUPPLY_FLUSH = 0

/-- R410, Table 17.4: the map entry of a logical unit of 32 KiB; units 2t and 2t + 1 are the halves of tile t. -/
def Dev.mapEntry (d : Dev) (unit : Nat) : Nat :=
  let t := d.tile (unit / 2)
  if !t.onFlash then t.st * 2 ^ 61
  else
    let (lun, blk) := match Tab.find d.fl.targets t.target with | some x => (x.lunOf t.blk, x.inLun t.blk) | none => (0, t.blk)
    t.st * 2 ^ 61 + chanOf t.target % 32 * 2 ^ 56 + t.target % 16 * 2 ^ 52 + lun % 4 * 2 ^ 50 + blk % 2 ^ 18 * 2 ^ 32
      + t.page % 2 ^ 16 * 2 ^ 16 + unit % 2 * 2 ^ 15

/-- R412: the 4 KiB of a map segment. -/
def Dev.segBytes (d : Dev) (g : Nat) : Bytes := (List.range 512).flatMap fun i => le 8 (d.mapEntry (512 * g + i))

/-- R410: the spare bytes of a programmed unit: its logical unit number, its write sequence, their CRC-32. Their order and the width of
the number are a DESIGN CHOICE (log 42). -/
def spareBytes (unit seq : Nat) : Bytes := let b := le 8 unit ++ le 8 seq; b ++ le 4 (crc32 b)

def Dev.dirtySeg (d : Dev) (tile : Nat) : Dev :=
  let g := segOf tile
  if d.fl.dirtySegs.contains g then d
  else
    { d with fl := { d.fl with dirtySegs := d.fl.dirtySegs ++ [g] } }

/-! ## Operations (R32, R402, R417) -/

/-- R32: the tracker is full. -/
def Dev.trackerFull (d : Dev) : Bool := d.fl.ops.length ≥ 32768

/-- An operation enters the tracker. -/
def Dev.issue (d : Dev) (o : FOp) : Nat × Dev :=
  let (n, d) := d.newId
  let d : Dev := { d with fl := { d.fl with ops := Tab.ins d.fl.ops n o } }
  (n, (d.bump .OPT_ISSUED_COUNT).raiseTo .OPT_PEAK_COUNT d.fl.ops.length)

def Dev.dropOp (d : Dev) (n : Nat) : Dev := { d with fl := { d.fl with ops := Tab.del d.fl.ops n } }

/-- R416: a journal program, which no read suspends. -/
def Why.journal : Why → Bool
  | .groupJournal .. => true
  | .stepJournal .. => true
  | _ => false

/-- R416, R417: a read is counted: it finds more than one read ahead on its target, or, as the only one, suspends a program or
an erase. -/
def Dev.countRead (d : Dev) (target : Nat) : Dev :=
  let on := (Tab.vals d.fl.ops).filter fun o => o.target == target
  let ahead := (on.filter fun o => o.kind == 0).length
  let c := chanOf target
  let d := d.bump .FLC_READS_COUNT 1 c
  let d := if ahead > 1 then d.bump .FLC_QDEEP_COUNT 1 c else d
  if ahead = 0 && on.any fun o => o.kind == 2 || (o.kind == 1 && !(match o.why with | some w => w.journal | none => false)) then
    d.bump .FLC_SUSPEND_COUNT 1 c
  else d

/-- R32: a unit stalls on the full tracker from now on. -/
def Dev.stall (d : Dev) : Dev := { d with fl := { d.fl with stallAt := some (d.fl.stallAt.getD d.now) } }

/-- R32: a read waits for a tracker entry. -/
def Dev.stallRead (d : Dev) (o : FOp) : Dev := ({ d with fl := { d.fl with stalled := d.fl.stalled ++ [o] } } : Dev).stall

/-- R402: a stall has ended: it counts, in TRACK cycles of 2/3 ns (R30). -/
def Dev.stallEnds (d : Dev) : Dev :=
  match d.fl.stallAt with
  | none => d
  | some a => ({ d with fl := { d.fl with stallAt := none } } : Dev).bump .OPT_STALL_CYCLES ((d.now - a) * 3 / 2)

/-! ## Frames and eviction (R382 to R388) -/

def Dev.packTiles (d : Dev) : Nat := sum (Tab.vals d.fl.packs)

/-- Tiles pinned by allocations of a partition, or of all. -/
def Dev.allocPins (d : Dev) (part : Option Nat) : Nat :=
  sum ((Tab.vals d.fl.allocs).map fun a => if a.hint == 0 && (part.isNone || part == some a.part) then a.tiles else 0)

/-- Every pinned tile of the shared pool. -/
def Dev.pinnedTiles (d : Dev) : Nat := d.allocPins none + d.packTiles + d.fl.internalPins

/-- Frames for cached tiles: the shared pool less the work reserve and the pins. -/
def Dev.cacheFrames (d : Dev) : Nat := d.rg .TIER_TOTAL_TILES - d.rg .TIER_WORK_TILES - d.pinnedTiles

/-- R384: the tiles that readers and writers hold: units of scans, tiles of walk groups, operations in flight, weight tiles being copied
into Track SRAM, tiles that a SET_HINT brings together. -/
def Dev.heldTiles (d : Dev) : List Nat :=
  ((d.fl.map.filter fun p => 0 < p.2.holds).map (·.1) ++ (Tab.vals d.fl.ops).filterMap (·.tile)
    ++ (Tab.vals d.ix.groups).filterMap (·.tile) ++ ((Tab.vals d.inf.passes).flatMap (·.weights)).filterMap (·.key)
    ++ (Tab.vals d.fl.jobs).flatMap (·.keep)).eraseDups

/-- The lowest number that a list does not hold. -/
def lowestFree (l : List Nat) : Nat := (sortBy (· < ·) l).foldl (fun n u => if u = n then n + 1 else n) 0

/-- R388: rank of a hint among tiles of equal age; a tile that was cached before its hint became NO_CACHE leaves last: DESIGN CHOICE
(log 41). -/
def evictRank (hint : Nat) : Nat := if hint = 3 then 0 else if hint = 2 then 1 else if hint = 1 then 2 else 3

/-- R388: the first of two tiles leaves before the second. -/
def evictsBefore (a b : Tile) : Bool :=
  b.age < a.age || (a.age == b.age && (evictRank a.hint < evictRank b.hint ||
    (evictRank a.hint == evictRank b.hint && a.frame.getD 0 < b.frame.getD 0)))

/-- R388: the tile to evict. -/
def Dev.victim (d : Dev) : Option Nat :=
  match d.fl.map.filter fun p => p.2.resident && !p.2.pinned && p.2.dirty.isNone && !d.heldTiles.contains p.1 with
  | [] => none
  | a :: r => some (r.foldl (fun (b p : Nat × Tile) => if evictsBefore p.2 b.2 then p else b) a).1

/-- R382, R388: tiles are evicted until n more frames fit those that are left for cached tiles; by fuel. -/
def Dev.fitCache : Nat → Dev → Nat → Dev
  | 0, d, _ => d
  | f + 1, d, n =>
    if Tab.count d.fl.map (fun t => t.frame.isSome && !t.pinned) + n ≤ d.cacheFrames then d
    else match d.victim with
      | none => d
      | some k => Dev.fitCache f ((d.updTile k fun t => { t with frame := none, age := 0 }).bump .TIER_EVICT_COUNT) n

/-- R382: cached tiles leave the frames that pins have taken. -/
def Dev.shrinkCache (d : Dev) : Dev := Dev.fitCache (d.fl.map.length + 1) d 0

/-- A frame for a miss, or for a tile that is pinned. The lowest free number is taken (DESIGN CHOICE, log 41). -/
def Dev.takeFrame (d : Dev) (pin : Bool := false) : Nat × Dev :=
  let d := if pin then d else Dev.fitCache (d.fl.map.length + 1) d 1
  (lowestFree ((Tab.vals d.fl.map).filterMap (·.frame)), d)

/-- Table 16.2: the age that an access sets. -/
def ageAtAccess (hint : Nat) : Nat := if hint = 3 then 255 else 0

/-- What a tile is when a reader comes to it (R386, R408, R422). -/
inductive Found where
  | hit | zero | discarded | lost | miss
deriving DecidableEq, Repr

def Dev.look (d : Dev) (k : Nat) : Found :=
  let t := d.tile k
  if t.st = 3 then .discarded
  else if t.resident && (t.hint != 4 || t.pinned || t.dirty.isSome || !t.onFlash) then .hit
  else if t.st = 0 then .zero
  else if d.lostTile t then .lost else .miss

/-- R387: the sweep over the resident tiles of the shared pool. -/
def Dev.tierSweep (d : Dev) : Dev :=
  let a := d.rg .TIER_CFG_STEP_DRAM
  let b := d.rg .TIER_CFG_STEP_FLASH
  let d : Dev := { d with fl := { d.fl with map := Tab.mapV d.fl.map fun _ t =>
    if !t.resident || t.pinned then t
    else { t with age := min 255 (t.age + (if t.hint = 1 then a else if t.hint = 2 then b else 0)) } } }
  d.bump .TIER_SWEEPS_COUNT

/-- R387: the sweep over the pool's own blocks, with STEP_DRAM. -/
def Dev.poolSweep (d : Dev) : Dev :=
  { d with pl := { d.pl with blocks := Tab.mapV d.pl.blocks fun _ b => { b with age := min 255 (b.age + d.rg .TIER_CFG_STEP_DRAM) } } }

/-- R387: the sweep of a split time that is a whole multiple of 10 ms, once, before the accesses of that time. -/
def Dev.sweepDue (d : Dev) : Dev :=
  if d.now % 10000000 != 0 || d.fl.sweptAt == some d.now then d
  else ({ d with fl := { d.fl with sweptAt := some d.now } } : Dev).tierSweep.poolSweep

/-- R386: an access to a resident tile. -/
def Dev.hitTile (d : Dev) (k : Nat) : Dev :=
  (d.sweepDue.updTile k fun t => { t with age := ageAtAccess t.hint }).bump .TIER_HITS_COUNT

/-- R408: the loss of a sled's tiles is recorded once per sled. -/
def Dev.reportLoss (d : Dev) (k : Nat) : Dev :=
  let n := sledOf (d.tile k).target % 4
  let h := Tab.get ({} : Health) d.fl.health n
  if h.lostSaid then d
  else
    let d : Dev := { d with fl := { d.fl with health := Tab.ins d.fl.health n { h with lostSaid := true } } }
    d.report SRC_SLED_LOST 0x40 n none n 6

/-- R419: an uncorrectable codeword of a logical tile, against the request's bib or the channel controller. -/
def Dev.reportMedia (d : Dev) (target k : Nat) (bib : Option Nat) : Dev :=
  d.report SRC_MEDIA_UNCORR 0x41 (chanOf target) bib k 6

/-- R386: the flash read of a miss starts, with a frame, which for PIN_DRAM is pinned. -/
def Dev.beginRead (d : Dev) (k hint : Nat) (ws : List Wait) : Dev :=
  let t := d.tile k
  let (f, d) := match t.frame with
    | some f => (f, d)
    | none => d.takeFrame (hint = 0)
  let d := (d.countRead t.target).bump .TIER_MISSES_COUNT
  let (n, d) := d.issue
    { kind := 0, tile := some k, target := t.target, blk := t.blk, page := t.page, native := t.st == 2, hint := hint, waiters := ws }
  d.updTile k fun t => { t with reading := some n, frame := some f, hint := hint, pinned := t.pinned || hint = 0, age := ageAtAccess hint }

/-- R386: a miss: the read in progress is joined, or one is started; a full tracker stalls it (R32). -/
def Dev.startRead (d : Dev) (k hint : Nat) (w : Wait) : Dev :=
  let d := d.sweepDue
  let t := d.tile k
  let join (o : FOp) : FOp := { o with waiters := o.waiters ++ [w] }
  match t.reading with
  | some n => { d with fl := { d.fl with ops := Tab.upd d.fl.ops n join } }
  | none =>
    if d.fl.stalled.any fun o => o.tile == some k && !o.raw then
      { d with fl := { d.fl with stalled := d.fl.stalled.map fun o => if o.tile = some k && !o.raw then join o else o } }
    else if d.trackerFull then
      d.stallRead { kind := 0, tile := some k, target := t.target, blk := t.blk, page := t.page, hint := hint, waiters := [w] }
    else d.beginRead k hint [w]

/-- A flash read that fills no frame (SCRUB, spill, the source of a copy). -/
def Dev.rawRead (d : Dev) (k : Nat) (ws : List Wait) : Dev :=
  let t := d.tile k
  let o : FOp := { kind := 0, tile := some k, target := t.target, blk := t.blk, page := t.page, native := t.st == 2, raw := true
                   src := t.seq, waiters := ws }
  if d.trackerFull then d.stallRead o else ((d.countRead t.target).issue o).2

/-! ## Programs (R413 to R415) -/

/-- Health counts of a sled (R424). -/
def Dev.updHealth (d : Dev) (n : Nat) (f : Health → Health) : Dev :=
  { d with fl := { d.fl with health := Tab.ins d.fl.health n (f (Tab.get ({} : Health) d.fl.health n)) } }

/-- A program starts on a target, in its open block or in a free one, where the tracker has room (R32). -/
def Dev.launchOn (d : Dev) (o : FOp) (n : Nat) (flush : Bool := false) : Option Dev :=
  if d.trackerFull then none
  else (Tab.find d.fl.targets n).bind fun x =>
    (match x.openBlk o.native with | some b => some b | none => x.freeBlk o.native (d.slcShare flush)).map fun b =>
      let y := Tab.get (Blk.mk 0 0 0 0 false false) x.blks b
      let z : Blk := if y.mode = 0 then { y with mode := if o.native then 2 else 1, pages := o.tiles, opened := d.fl.seq }
        else { y with pages := y.pages + o.tiles }
      let page := if y.mode = 0 then 0 else y.pages
      let d : Dev := { d with fl := { d.fl with
        targets := Tab.ins d.fl.targets n { x with blks := Tab.ins x.blks b z }, nextTarget := n + 1 } }
      let d := d.bump .FLC_PROGS_COUNT 1 (chanOf n)
      let d := d.updHealth (sledOf n) fun h => { h with mediaBytes := min (2 ^ 64 - 1) (h.mediaBytes + 65536 * o.tiles) }
      (d.issue { o with target := n, blk := b, page := page }).2

/-- A program starts on the next writable target (R415). -/
def Dev.launch (d : Dev) (o : FOp) (flush : Bool) : Option Dev :=
  (d.nextTarget o.native flush).bind fun n => d.launchOn o n flush

/-- A program that may start does; one that finds no room waits, in order (R32, R412, R414), and so does one that the NV bar holds
(R426). In flush mode none starts here (R427). -/
def Dev.program (d : Dev) (w : Why) (tile : Option Nat) (tiles : Nat) (data : Bytes) (native : Bool) (src : Nat := 0) :
    Dev :=
  let o : FOp := { kind := 1, why := some w, tile := tile, tiles := tiles, data := data, native := native, src := src }
  let wait (d : Dev) : Dev :=
    let d : Dev := { d with fl := { d.fl with wait := d.fl.wait ++ [o] } }
    if d.trackerFull then d.stall else d
  let full := !native && !d.bufRoom w tiles
  if d.rg .FTL_SUPPLY_FLUSH = 1 then d
  else if d.rg .FTL_SUPPLY_NVLOW = 1 then wait (d.bump .FTL_NVBLK_COUNT)
  else if full || d.segWaits tile then (if w.reserved && full then d.bump .FTL_JWAIT_COUNT else d) |> wait
  else match d.launch o false with
    | some d => d
    | none => wait d

/-! ## The ends of tier requests (R394 to R398, R421 to R423) -/

/-- A live tier job: its request runs. -/
def Dev.liveJob (d : Dev) (r : Nat) : Bool := match Tab.find d.reqs r with | some q => q.live | none => false

def Dev.opOf (d : Dev) (r : Nat) : Nat := match Tab.find d.reqs r with | some q => u8 q.desc 0 | none => 0

/-- The live requests that name a handle, in admission order, with their jobs. -/
def Dev.jobsOn (d : Dev) (h : Nat) : List (Nat × TierJob) := d.fl.jobs.filter fun p => p.2.handle == h && d.liveJob p.1

def Dev.updJob (d : Dev) (r : Nat) (f : TierJob → TierJob) : Dev :=
  { d with fl := { d.fl with jobs := Tab.upd d.fl.jobs r f } }

/-- R424: tiles written, read and missed by a bib. -/
def Dev.useBib (d : Dev) (r w rd m : Nat) : Dev :=
  match Tab.find d.reqs r with
  | some q => match q.bib with
    | some b =>
      let (x, y, z) := Tab.get (0, 0, 0) d.fl.bibUse b
      { d with fl := { d.fl with bibUse := Tab.ins d.fl.bibUse b (x + w, y + rd, z + m) } }
    | none => d
  | none => d

/-- Frames and flash units of an allocation's tile go. -/
def Dev.dropTile (d : Dev) (k : Nat) : Dev :=
  if Tab.has d.fl.map k then
    { d with fl := { d.fl with map := Tab.del d.fl.map k, bytes := Tab.clearRange d.fl.bytes (k * 65536) ((k + 1) * 65536) } }.dirtySeg k
  else d

/-- Tiles of an allocation that the map lists. -/
def Dev.tilesOf (d : Dev) (h : Nat) : List Nat :=
  let lo := allocTile h 0
  (Tab.keys d.fl.map).filter fun k => lo ≤ k && k < lo + 2 ^ 23

/-- R398, R412: the tiles of an allocation that is being freed go, as far as the journal bound lets their segments become
dirty. -/
def Dev.freeTiles (d : Dev) (h : Nat) : Dev :=
  (d.tilesOf h).foldl (fun d k => if d.segWaits (some k) then d else d.dropTile k) d

/-- R398, R412: an allocation goes once its tiles have gone. -/
def Dev.freeStep (d : Dev) (h : Nat) : Dev :=
  let d := d.freeTiles h
  if (d.tilesOf h).isEmpty then { d with fl := { d.fl with allocs := Tab.del d.fl.allocs h } } else d

/-- R391, R399: an allocation is freed without a request; what the journal bound holds back goes as segments are written. -/
def Dev.freeAlloc (d : Dev) (h : Nat) : Dev :=
  ({ d with fl := { d.fl with allocs := Tab.upd d.fl.allocs h fun a => { a with freeing := some 0 } } } : Dev).freeStep h

/-- R398: a PROG_LOAD of a bib that was admitted before a request, and may name what it names, has not ended. -/
def Dev.loadingFor (d : Dev) (bib r : Nat) : Bool :=
  d.reqs.any fun p => decide (p.1 < r) && p.2.live && p.2.bib == some bib && u8 p.2.desc 0 == 0x20

/-- R422: a tile is discarded. A pinned frame stays, with undefined contents. -/
def Dev.discardTile (d : Dev) (k : Nat) : Dev :=
  let d : Dev := { d with fl := { d.fl with bytes := Tab.clearRange d.fl.bytes (k * 65536) ((k + 1) * 65536) } }
  ((d.updTile k fun t => { st := 3, hint := t.hint, pinned := t.pinned, frame := if t.pinned then t.frame else none }).dirtySeg
    k).bump .FTL_DISCARD_TILES

/-- The tiles of a request: its allocation, first tile, count. -/
def tierArgs (x : Bytes) : Nat × Nat × Nat := (u64 x 0x10, u32 x 0x18, u32 x 0x1C)

/-- What can now end, ends: DISCARDs whose earlier writes have ended, and FREEs whose requests have (R398, R422). A FREE that finds
its allocation named by a program loaded meanwhile fails: DESIGN CHOICE (log 146). -/
def Dev.settle (d : Dev) : Dev :=
  let d : Dev := { d with fl := { d.fl with jobs := d.fl.jobs.filter fun p => d.liveJob p.1 } }
  let d := (d.fl.jobs.filter fun p => d.opOf p.1 == 0x58).foldl (fun d p =>
    match Tab.find d.reqs p.1 with
    | none => d
    | some q =>
      let (h, a, n) := tierArgs q.desc
      let before := (d.jobsOn p.2.handle).any fun x => x.1 < p.1 && d.opOf x.1 == 0x52 && (match Tab.find d.reqs x.1 with
        | some y => let (_, b, m) := tierArgs y.desc; decide (b < a + n && a < b + m)
        | none => false)
      let segs := ((List.range n).map fun i => segOf (allocTile h (a + i))).eraseDups
      if before || !d.boundHolds segs then d
      else
        let d := (List.range n).foldl (fun d i => d.discardTile (allocTile h (a + i))) d
        let d : Dev := { d with fl := { d.fl with jobs := Tab.del d.fl.jobs p.1 } }
        d.finish p.1 ST_OK n) d
  (d.fl.allocs.filter fun p => p.2.freeing.isSome).foldl (fun d p =>
    match p.2.freeing with
    | none => d
    | some r =>
      if ((d.jobsOn p.1).any fun q => q.1 != r) || d.loadingFor p.2.bib r then d
      else if r != 0 && p.2.named > 0 then
        ({ d with fl := { d.fl with allocs := Tab.upd d.fl.allocs p.1 fun a => { a with freeing := none } } } : Dev).complete r
          ST_REFUSED_RESOURCE 4
      else
        let d := d.freeStep p.1
        if Tab.has d.fl.allocs p.1 then d else d.finish r ST_OK 0) d

/-- R397: an allocation takes a hint; its resident tiles follow it. -/
def Dev.applyHint (d : Dev) (h hint : Nat) : Dev :=
  let old := match Tab.find d.fl.allocs h with | some a => a.hint | none => hint
  let d : Dev := { d with fl := { d.fl with allocs := Tab.upd d.fl.allocs h fun a => { a with hint := hint } } }
  let d := (d.tilesOf h).foldl (fun d k =>
    if hint = 0 && (d.tile k).frame.isNone && !(d.tile k).onFlash then
      let (f, d) := d.takeFrame true
      d.updTile k fun t => { t with hint := 0, pinned := true, frame := some f }
    else d.updTile k fun t =>
      if hint = 0 then { t with hint := 0, pinned := true }
      else if old = 0 then
        { t with hint := hint, pinned := false, age := ageAtAccess hint, frame := if hint = 4 && t.holds = 0 then none else t.frame }
      else { t with hint := hint }) d
  if hint = 0 then d.shrinkCache else d

/-- R394, R397: the tiles that a SET_HINT brought together are held no more; one of NO_CACHE leaves with it. -/
def Dev.dropKeep (d : Dev) (ks : List Nat) : Dev :=
  ks.foldl (fun d k => d.updTile k fun t =>
    if t.hint = 4 && !t.pinned && t.reading.isNone && t.dirty.isNone && t.onFlash then { t with frame := none } else t) d

/-- A tier request ends where nothing of it is left. -/
def Dev.endJob (d : Dev) (r : Nat) : Dev :=
  match Tab.find d.fl.jobs r with
  | none => d
  | some j =>
    let reading := match Tab.find d.reqs r with | some q => decide (q.dmas > 0) | none => false
    let op := d.opOf r
    if !d.liveJob r || reading || j.flying > 0 || (j.left > 0 && (j.blocked = 0 || op != 0x52)) then d
    else
      let d : Dev := { d with fl := { d.fl with jobs := Tab.del d.fl.jobs r } }
      let d := if j.blocked = 1 then (d.bump .TIER_NVBLK_COUNT (if op = 0x52 then 1 else 0)).addFail r ST_NV_BLOCKED
        else if j.blocked = 2 then d.addFail r ST_REFUSED_RESOURCE else d
      let d :=
        match Tab.find d.reqs r with
        | none => d
        | some q =>
          let st := pickStatus q.fails ST_OK
          let d := if op != 0x54 then d else if st = ST_OK then d.applyHint j.handle 0 else d.dropKeep j.keep
          let res :=
            if st = ST_NV_BLOCKED then (if op = 0x59 then j.rewritten else j.done)
            else if st = ST_REFUSED_RESOURCE then 7
            else if st != ST_OK then 0
            else if op = 0x52 then j.done
            else if op = 0x53 then j.done + min 65535 j.misses * 2 ^ 32
            else if op = 0x55 then j.done + min 65535 j.resident * 2 ^ 32
            else if op = 0x59 then j.done + min 65535 j.rewritten * 2 ^ 32 + min 65535 j.uncorr * 2 ^ 48
            else 0
          d.complete r st res
      d.settle

/-- R395: the write of tile i of a request starts, or the request is held at the NV bar or for want of a target. -/
def Dev.startTileWrite (d : Dev) (r i : Nat) (b : Bytes) : Dev :=
  match Tab.find d.reqs r with
  | none => d
  | some q =>
    let (h, a, _) := tierArgs q.desc
    if d.rg .FTL_SUPPLY_NVLOW = 1 then (d.updJob r fun j => { j with blocked := 1 }).bump .FTL_NVBLK_COUNT
    else if (d.writables false).isEmpty then d.updJob r fun j => { j with blocked := 2 }
    else
      let d := d.updJob r fun j => { j with started := j.started + 1, flying := j.flying + 1 }
      d.program (.tileWrite r i) (some (allocTile h (a + i))) 1 b false

/-- R395: a tile of the allocation waits for room, and later tiles wait behind it. -/
def Dev.writeHeld (d : Dev) (h : Nat) : Bool :=
  d.fl.wait.any fun o => match o.why, o.tile with
    | some (.tileWrite _ _), some k => decide (allocTile h 0 ≤ k) && decide (k < allocTile h 0 + 2 ^ 23)
    | _, _ => false

/-- R395: the tiles of a TILE_WRITE whose data has arrived start in ascending order, once every earlier TILE_WRITE of
the allocation has ended; by fuel. -/
def Dev.pumpWrite : Nat → Dev → Nat → Dev
  | 0, d, _ => d
  | f + 1, d, r =>
    match Tab.find d.fl.jobs r with
    | none => d
    | some j =>
      if !d.liveJob r || j.blocked > 0 || d.writeHeld j.handle || ((d.jobsOn j.handle).any fun q => q.1 < r && d.opOf q.1 == 0x52) then d
      else
        match Tab.find j.data j.started with
        | none => d
        | some b => Dev.pumpWrite f (d.startTileWrite r j.started b) r

/-- Every TILE_WRITE that can go on does. -/
def Dev.pumpWrites (d : Dev) : Dev :=
  (d.fl.jobs.filter fun p => d.opOf p.1 == 0x52).foldl (fun d p => (Dev.pumpWrite 16385 d p.1).endJob p.1) d

/-- R124: a program of a request that has ended does not start. -/
def Dev.deadProgram (d : Dev) (w : Why) : Bool :=
  match w with
  | .tileWrite r _ => !d.liveJob r
  | .rewrite _ (some r) => !d.liveJob r
  | .spill b => !Tab.has d.pl.blocks b
  | _ => false

/-- A block is marked as being erased. -/
def Dev.markErasing (d : Dev) (target blk : Nat) : Dev :=
  { d with fl := { d.fl with targets := Tab.upd d.fl.targets target fun x =>
    { x with blks := Tab.ins x.blks blk { (Tab.get (Blk.mk 0 0 0 0 false false) x.blks blk) with erasing := true } } } }

/-- An erase starts, or waits for a tracker entry or for the NV bar (R32, R426). -/
def Dev.startErase (d : Dev) (o : FOp) : Dev :=
  let wait : Dev := { d with fl := { d.fl with wait := d.fl.wait ++ [o] } }
  if !Tab.has d.fl.targets o.target then d
  else if d.trackerFull then wait.stall
  else if !d.mayProgram || !d.writable o.target false then wait
  else ((d.bump .FLC_ERASES_COUNT 1 (chanOf o.target)).issue o).2

/-- A block that holds nothing valid any more is erased (R414, R415), on a sled that takes erases (R407). -/
def Dev.eraseBlock (d : Dev) (target blk : Nat) (reclaim : Bool := false) : Dev :=
  if !d.mayProgram || !d.writable target false then d
  else (d.markErasing target blk).startErase { kind := 2, target := target, blk := blk, raw := reclaim }

/-- Waiting programs and erases are tried again, in order. A TILE_WRITE's that finds room below the NV bar is not written. -/
def Dev.kick (d : Dev) : Dev :=
  let l := d.fl.wait
  let d : Dev := { d with fl := { d.fl with wait := [] } }
  let d := l.foldl (fun d o =>
    match o.why with
    | none => if o.kind = 2 then d.startErase o else d
    | some w =>
      let keep (d : Dev) : Dev := { d with fl := { d.fl with wait := d.fl.wait ++ [o] } }
      if d.rg .FTL_SUPPLY_FLUSH = 1 || d.deadProgram w then d
      else if (!o.native && !d.bufRoom w o.tiles) || d.segWaits o.tile then keep d
      else if d.rg .FTL_SUPPLY_NVLOW = 1 then
        match w with
        | .tileWrite r _ => (d.updJob r fun j => { j with blocked := 1, flying := j.flying - 1 }).bump .FTL_NVBLK_COUNT
        | .rewrite _ (some r) => ((d.updJob r fun j => { j with blocked := 1, flying := j.flying - 1 }).bump .FTL_NVBLK_COUNT).endJob r
        | _ => keep d
      else match d.launch o false with
        | some d => d
        | none => keep d) d
  d.pumpWrites.settle

/-- R32: stalled reads enter the tracker as entries free; the stall ends with the last of them. -/
def Dev.unstall : Nat → Dev → Dev
  | 0, d => d
  | f + 1, d =>
    match d.fl.stalled with
    | [] => if d.trackerFull then d else d.stallEnds
    | o :: r =>
      if d.trackerFull then d
      else
        let d : Dev := { d with fl := { d.fl with stalled := r } }
        let ws := o.waiters.filter fun w => match w with | .req r _ => d.liveJob r | _ => true
        match o.tile with
        | some k => Dev.unstall f (if ws.isEmpty then d else if o.raw then d.rawRead k ws else d.beginRead k o.hint ws)
        | none => Dev.unstall f d

/-! ## The ends of operations -/

/-- An entry of the media error log (R424): class as in ERRORS of Table 17.6. The widths of its fields are a DESIGN
CHOICE (log 42). -/
def Dev.mediaEvent (d : Dev) (o : FOp) (cls : Nat) (bib : Option Nat) : Dev :=
  let (lun, blk) := match Tab.find d.fl.targets o.target with | some x => (x.lunOf o.blk, x.inLun o.blk) | none => (0, o.blk)
  let x := le 8 d.now ++ le 8 (o.tile.getD 0) ++ le 2 o.target ++ le 1 lun ++ le 1 cls ++ le 4 blk ++ le 2 o.page
    ++ le 2 (bib.getD 0xFFFF) ++ le 4 0
  { d with fl := { d.fl with events := (d.fl.events ++ [x]).drop (d.fl.events.length - 63) } }

/-- A health class of a sled counts. -/
def Dev.healthErr (d : Dev) (sled cls n : Nat) : Dev :=
  d.updHealth sled fun h => { h with errors := updAt h.errors cls fun v => min (2 ^ 64 - 1) (v + n) }

/-- R418: the codewords that hold len bytes from an offset of a tile. -/
def codewords (off len : Nat) : List Nat := (List.range 16).filter fun i => off < (i + 1) * 4096 && i * 4096 < off + len

/-- R418: the misses that who needs these bytes counts: one for each retry level of each codeword. -/
def ReadOut.misses (x : ReadOut) (off len : Nat) : Nat := sum ((codewords off len).map fun i => x.levels.getD i 0)

/-- R419: whether these bytes can be had. -/
def ReadOut.ok (x : ReadOut) (off len : Nat) : Bool := !((codewords off len).any x.bad.contains)

/-- The same, for a whole tile. -/
def ReadOut.allMisses (x : ReadOut) : Nat := x.misses 0 65536
def ReadOut.allOk (x : ReadOut) : Bool := x.ok 0 65536

/-- Codewords corrected after a retry. -/
def ReadOut.late (x : ReadOut) : Nat :=
  ((List.range 16).filter fun i => 0 < x.levels.getD i 0 && !x.bad.contains i).length

/-- R419: the codewords of a read's unit that are known to be uncorrectable, until the tile is written again. -/
def Dev.knownBad (d : Dev) (o : FOp) : List Nat :=
  match o.tile with
  | none => []
  | some k => let t := d.tile k; if t.target = o.target && t.blk = o.blk && t.page = o.page then t.bad else []

/-- R418, R419: what a read brings: 8 levels at most, and the codewords that fail them all. -/
def Dev.readOut (d : Dev) (o : FOp) (x : FlashRead) : ReadOut :=
  let bad := (List.range 16).filter fun i => 8 < x.levels.getD i 0 || (d.knownBad o).contains i
  { levels := (List.range 16).map fun i => if bad.contains i then 8 else x.levels.getD i 0, bad := bad }

/-- R416 to R419: counters of a read that has ended. -/
def Dev.countReadEnd (d : Dev) (o : FOp) (x : ReadOut) (corrected crcFails : Nat) : Dev :=
  let s := sledOf o.target
  let c := chanOf o.target
  let late := x.late
  let d := (d.bump .SLED_CORR_COUNT (corrected + late) s).bump .SLED_RETRY_COUNT (sum x.levels) s
  let d := d.bump .FLC_RETRY_COUNT (sum x.levels) c
  let d := (d.bump .SLED_UNCORR_COUNT x.bad.length s).bump .FLC_UNCORR_COUNT x.bad.length c
  (((d.healthErr s 0 corrected).healthErr s 1 late).healthErr s 2 x.bad.length).healthErr s 6 crcFails

/-- A read ends: its frame is filled, or stays empty where a codeword is uncorrectable (R419). A NO_CACHE frame is left to its
readers, which release it at once, but for a SET_HINT to PIN_DRAM. -/
def Dev.endRead (d : Dev) (n : Nat) (o : FOp) (ok : Bool) : Dev :=
  let d := d.dropOp n
  match o.tile with
  | none => d
  | some k =>
    if (d.tile k).reading != some n then d
    else
      let kept := (Tab.vals d.fl.jobs).any fun j => j.keep.contains k
      d.updTile k fun t => { t with reading := none, frame := if ok && (t.hint != 4 || kept) then t.frame else none }

/-- R419: codewords of a unit are uncorrectable. -/
def Dev.markBad (d : Dev) (o : FOp) (bad : List Nat) : Dev :=
  match o.tile with
  | none => d
  | some k =>
    let t := d.tile k
    if t.onFlash && t.target = o.target && t.blk = o.blk && t.page = o.page then
      d.updTile k fun t => { t with bad := (t.bad ++ bad).eraseDups }
    else d

/-- A program that has ended places its tile (R414, R395). -/
def Dev.place (d : Dev) (k : Nat) (o : FOp) : Dev :=
  let q := d.fl.seq
  let d : Dev := { d with fl := { d.fl with seq := q + 1 } }
  (d.updTile k fun t => { t with
    st := if o.native then 2 else 1, target := o.target, blk := o.blk, page := o.page, seq := q, bad := [] }).dirtySeg k

/-! ## The flush bound (R429) -/

/-- Used targets of the sleds ONLINE. -/
def Dev.onlineTargets (d : Dev) : List (Nat × Target) := d.fl.targets.filter fun p => d.sledState (sledOf p.1) == 2

/-- The 4-plane SLC program time of the media, ns. -/
def Dev.slcTime (d : Dev) : Nat := maxOf (d.onlineTargets.map fun p => (d.mediaOf p.2).tProgSlc)

/-- R429: W_f, in bytes per SLC program time. -/
def Dev.flushRate (d : Dev) : Nat :=
  sum ((List.range 32).map fun c =>
    min (d.rg .FLC_STAT_MTS c * d.slcTime / 1000) ((d.onlineTargets.filter fun p => chanOf p.1 == c).length * 65536))

/-- R429: T_bound for a journal of so many bytes, ns rounded up. -/
def Dev.tBound (d : Dev) (bytes : Nat) : Nat :=
  1000000 + maxOf (d.onlineTargets.map fun p => (d.mediaOf p.2).tProg)
    + ceilDiv ((bytes + 65536 * (d.onlineTargets.length + 2)) * d.slcTime) (max 1 d.flushRate)

/-- R429: the largest whole MiB, at most a given one, whose T_bound is at most 120 ms; by fuel. -/
def Dev.effBound (d : Dev) : Nat → Nat
  | 0 => 0
  | m + 1 => if d.tBound ((m + 1) * 1048576) ≤ 120000000 then m + 1 else Dev.effBound d m

/-- R429, R412: the journal bound in force after a sled has left ONLINE. -/
def Dev.rebound (d : Dev) : Dev := d.setRg .FTL_JOURNAL_BOUND_MIB (d.effBound (d.rg .FTL_JOURNAL_BOUND_MIB))

/-! ## Blocks -/

/-- R420: a block is retired; below 1% of the spare at discovery its sled becomes READ_ONLY (Table 17.2). -/
def Dev.retire (d : Dev) (target blk : Nat) : Dev :=
  let s := sledOf target
  let d : Dev := { d with fl := { d.fl with targets := Tab.upd d.fl.targets target fun x =>
    { x with blks := Tab.ins x.blks blk { (Tab.get (Blk.mk 0 0 0 0 false false) x.blks blk) with retired := true } } } }
  let d := (d.updHealth s fun h => { h with retired := min (2 ^ 32 - 1) (h.retired + 1) }).bump .SLED_RETIRED_BLOCKS 1 s
  let h := Tab.get ({} : Health) d.fl.health s
  if (h.spare0 - h.retired) * 100 < h.spare0 && d.sledState s = 2 then (d.setRg .SLED_STAT_STATE 3 s).rebound else d

/-- Valid tiles of a block. -/
def Dev.validIn (d : Dev) (target blk : Nat) : List Nat :=
  (d.fl.map.filter fun p => p.2.onFlash && p.2.target == target && p.2.blk == blk).map (·.1)

/-- Whether a block holds journal records, map segments or the target of an operation. -/
def Dev.blockBusy (d : Dev) (target blk : Nat) : Bool :=
  ((Tab.vals d.fl.ops ++ d.fl.stalled).any fun o => o.target == target && o.blk == blk)
    || (d.fl.journal.any fun j => j.target == target && j.blk == blk) || (d.fl.steps.any fun j => j.target == target && j.blk == blk)
    || d.fl.segHome.any fun x => x.2.1 == target && x.2.2 == blk

/-- A block of a mode that is full. -/
def Target.full (x : Target) (b : Blk) : Bool :=
  !b.retired && !b.erasing && ((b.mode == 2 && decide (x.perBlock ≤ b.pages)) || (b.mode == 1 && decide (x.slcTiles ≤ b.pages)))

/-- Full buffer blocks without valid tiles or journal records are freed by erases, above the NV bar. -/
def Dev.sweepBlocks (d : Dev) : Dev :=
  if !d.mayProgram then d
  else d.fl.targets.foldl (fun d p =>
    (p.2.blks.filter fun b => b.2.mode == 1 && p.2.full b.2).foldl
      (fun d b => if (d.validIn p.1 b.1).isEmpty && !d.blockBusy p.1 b.1 then d.eraseBlock p.1 b.1 else d) d) d

/-- FLASH_ERASE_DONE (R420). -/
def Dev.eraseEnd (d : Dev) (n : Nat) (o : FOp) (ok : Bool) : Dev :=
  let d := d.dropOp n
  let s := sledOf o.target
  let d : Dev := { d with fl := { d.fl with targets := Tab.upd d.fl.targets o.target fun x =>
    let y := Tab.get (Blk.mk 0 0 0 0 false false) x.blks o.blk
    { x with blks := Tab.ins x.blks o.blk { y with mode := 0, pages := 0, erasing := false, erases := y.erases + 1 } } } }
  if ok then d.bump .FTL_RECLAIM_BLOCKS (ofBool o.raw)
  else (((d.bump .SLED_EFAIL_COUNT 1 s).healthErr s 4 1).mediaEvent o 4 none).retire o.target o.blk

end Sys2Proof.Machine
end

