-- ==== Sys2Proof/Machine/Measure.lean ====
section
/-!
DEFINITION. Identity, the measurement log, QUOTE and KEY_ADMIN (spec file 22, R546 to R549).
-/
namespace Sys2Proof.Machine

/-- An ASCII string of 4 bytes as its little-endian number. -/
def ascii4 (a b c e : Nat) : Nat := a + b * 256 + c * 65536 + e * 16777216

def magicYJQT : Nat := ascii4 0x59 0x4A 0x51 0x54
def magicYJKA : Nat := ascii4 0x59 0x4A 0x4B 0x41
def magicYJCI : Nat := ascii4 0x59 0x4A 0x43 0x49
def magicYJSG : Nat := ascii4 0x59 0x4A 0x53 0x47
def magicYJFW : Nat := ascii4 0x59 0x4A 0x46 0x57
def magicYJAR : Nat := ascii4 0x59 0x4A 0x41 0x52
def magicYJSL : Nat := ascii4 0x59 0x4A 0x53 0x4C

/-- R546: the Ed25519 seed of the identity secret. -/
def Fuses.seed (f : Fuses) : Bytes := (sha512 (f.secret ++ [0x59#8, 0x4A#8, 0x49#8, 0x44#8])).take 32

/-- R60: the fingerprint of an identity public key. -/
def fingerprintOf (key : Bytes) : Bytes := (sha512 key).take 16

/-- R424, R547: the 524,288 bytes of log 0x40. -/
def Dev.measLogBytes (d : Dev) : Bytes := d.measLog.flatten ++ fill (524288 - 128 * d.measLog.length) 0

/-- Table 22.12: the quote of a command, signed by the signing engine. -/
def Dev.quoteBytes (d : Dev) (q : Req) : Bytes :=
  let b := le 4 magicYJQT ++ le 2 1 ++ le 2 (q.bib.getD 0xFFFF) ++ le 4 (d.rg .MEAS_COUNT_ENTRIES) ++ le 4 0 ++
    le 8 d.fuses.serial ++ le 8 d.now ++ sub q.desc 0x10 32 ++ d.measRun ++ fit 32 d.idKey ++
    le 4 (d.rg .MEAS_FWSECVER_SECVER) ++ le 4 (d.rg .CI_SECVER_ACTIVE) ++ le 4 d.fuses.fwFloor ++ le 4 d.fuses.ciFloor ++
    le 8 (d.rg .CI_SERIAL_SERIAL) ++ le 8 0
  b ++ edSign d.fuses.seed (sha512 b)

/-- QUOTE as admitted (R548): it waits its turn, at most 16 waiting behind the one being signed. -/
def Dev.quote (d : Dev) (r : Nat) (q : Req) : Dev :=
  d.checked r
    (failIf (!payloadOk [(0x10, 40)] q.desc || u64 q.desc 0x30 % 64 != 0) ST_BAD_DESC
      ++ failIf (d.quotes.length ≥ 17) ST_REFUSED_RESOURCE 1)
    fun d => { d with quotes := d.quotes ++ [r] }

/-- The oldest QUOTE is signed, written and completed; one that has ended is passed over. -/
def Dev.quoteSigned (d : Dev) : Dev :=
  match d.quotes with
  | [] => d
  | r :: rest =>
    let d : Dev := { d with quotes := rest }
    match Tab.find d.reqs r with
    | none => d
    | some q =>
      if q.ended then d
      else (d.dmaWrite r (u64 q.desc 0x30) (d.quoteBytes q)).finish r ST_OK (d.rg .MEAS_COUNT_ENTRIES)

/-! ## KEY_ADMIN (R549) -/

/-- How many owner slots are programmed and not revoked. -/
def Fuses.programmed (f : Fuses) : Nat := (f.slots.filter fun s => s.state == 1).length

/-- The fuses after an action of Table 22.13. Every action is one-way: a fuse, once written, stays. -/
def Fuses.act (f : Fuses) (rec : Bytes) : Fuses :=
  let slot := u8 rec 5
  let v := u32 rec 0x10
  match u8 rec 4 with
  | 0 => { f with slots := updAt f.slots slot fun s => if s.state = 0 then { state := 1, key := sub rec 0x20 32 } else s }
  | 1 => { f with slots := updAt f.slots slot fun s => { s with state := 2 } }
  | 2 => { f with ciFloor := max v f.ciFloor, ciRaises := f.ciRaises - 1 }
  | 3 => { f with fwFloor := max v f.fwFloor, fwRaises := f.fwRaises - 1 }
  | _ => { f with romRevoked := if bit f.romRevoked slot then f.romRevoked else f.romRevoked + 2 ^ slot }

/-- Table 22.14: the refusals of a record. -/
def Dev.keyRefusals (d : Dev) (rec : Bytes) : List (Nat × Nat) :=
  let f := d.fuses
  let a := u8 rec 4
  let slot := u8 rec 5
  let signer := u8 rec 6
  let v := u32 rec 0x10
  let s := f.slots.getD slot {}
  let bad := u32 rec 0 != magicYJKA || a > 4 || (a ≤ 1 && slot > 3) || (a = 4 && slot > 1) || u8 rec 7 != 0 || !zeros rec 0x14 12
  let badSig : Bool := if signer = 0xFF then decide (f.programmed > 0)
    else match f.slots[signer]? with
      | some o => o.state != 1 || !edVerify o.key (sha512 (rec.take 0x40)) (sub rec 0x40 64)
      | none => true
  let again := (a = 0 && s.state != 0) || (a = 1 && s.state = 2) || (a = 4 && bit f.romRevoked slot)
  let none3 := (a = 1 && (f.act rec).programmed = 0) || (a = 4 && (f.act rec).romRevoked = 3)
  let low := (a = 2 && v ≤ f.ciFloor) || (a = 3 && v ≤ f.fwFloor)
  let spent := (a = 2 && f.ciRaises = 0) || (a = 3 && f.fwRaises = 0)
  let running := (a = 3 && v > d.rg .MEAS_FWSECVER_SECVER) || (a = 4 && slot = d.rg .MEAS_KEYS_FWKEY)
  failIf bad ST_BAD_DESC ++ failIf (u64 rec 8 != f.serial || badSig) ST_SIGNATURE
    ++ failIf again ST_REFUSED_RESOURCE 2 ++ failIf none3 ST_REFUSED_RESOURCE 3 ++ failIf low ST_REFUSED_RESOURCE 4
    ++ failIf spent ST_REFUSED_RESOURCE 5 ++ failIf running ST_REFUSED_RESOURCE 6
    ++ failIf (d.rg .FTL_SUPPLY_NVLOW = 1) ST_NV_BLOCKED

/-- KEY_ADMIN as admitted: its record is read. -/
def Dev.keyAdmin (d : Dev) (r : Nat) (q : Req) : Dev :=
  d.checkedRead r
    (failIf (!payloadOk [(0x10, 8)] q.desc || u64 q.desc 0x10 % 64 != 0) ST_BAD_DESC
      ++ failIf (!winIsPf0 q.win) ST_NOT_OWNER)
    fun d => d.dmaRead r 0 (u64 q.desc 0x10) 128

/-- Cerone takes the next KEY_ADMIN record whose turn has come: it is refused, or its fuse write starts; by fuel. -/
def Dev.keyNext : Nat → Dev → Dev
  | 0, d => d
  | f + 1, d =>
    if d.fuseBusy then d
    else
      match d.keyJobs with
      | [] => d
      | (r, rec) :: rest =>
        let pre := match Tab.find d.reqs r with | some q => q.pre | none => []
        match pickFail (d.keyRefusals rec ++ pre) with
        | some (st, res) => Dev.keyNext f (({ d with keyJobs := rest } : Dev).bump .FTL_NVBLK_COUNT (ofBool (st == ST_NV_BLOCKED)) |>.complete r st res)
        | none => { d with fuseBusy := true }

/-- A KEY_ADMIN record has been read. -/
def Dev.keyRecord (d : Dev) (r : Nat) (rec : Bytes) : Dev :=
  Dev.keyNext (d.keyJobs.length + 1) { d with keyJobs := d.keyJobs ++ [(r, rec)] }

/-- FUSE_WRITE_DONE: the action is in the fuses, a KIND 5 entry is appended, the command completes. Of a write that a node reset
has overtaken (request 0), only the fuses remain. -/
def Dev.fuseDone (d : Dev) : Dev :=
  match d.keyJobs with
  | (r, rec) :: rest =>
    if !d.fuseBusy then d
    else
      let d : Dev := { d with fuses := d.fuses.act rec, keyJobs := rest, fuseBusy := false }
      let d := if r = 0 then d else (d.measure 5 none (sha512 rec)).complete r ST_OK
      Dev.keyNext (rest.length + 1) d
  | [] => d

/-- The fuses after the fuse write under way has ended: only its record's action writes them. -/
def Dev.burnt (d : Dev) : Fuses :=
  match d.keyJobs with
  | (_, rec) :: _ => if d.fuseBusy then d.fuses.act rec else d.fuses
  | [] => d.fuses

end Sys2Proof.Machine
end

