-- ==== Sys2Proof/Machine/Tiers.lean ====
section
/-!
DEFINITION. The tier and flash opcodes, the logs of the flash tier, sweeps, write-backs, folding, reclaim, patrol, the
supply states and the flush (spec files 16, 17).
-/
namespace Sys2Proof.Machine

/-! ## ALLOC to SCRUB (R391 to R398, R421 to R423) -/

/-- R398: a FREE of an allocation has landed and will be admitted; no later request finds the allocation. -/
def Dev.freeLanded (d : Dev) (a : Alloc) (h : Nat) : Bool :=
  a.named == 0 && d.reqs.any fun p => p.2.live && p.2.bib == some a.bib && u8 p.2.desc 0 == 0x51 && u64 p.2.desc 0x10 == h

/-- The allocation of a handle, if the requester owns it (R391). -/
def Dev.ownAlloc (d : Dev) (q : Req) (h : Nat) : Option Alloc :=
  match Tab.find d.fl.allocs h with
  | some a => if q.bib = some a.bib && a.freeing.isNone && (u8 q.desc 0 == 0x51 || !d.freeLanded a h) then some a else none
  | none => none

/-- R390: tiles of the allocation space in use; those of a partition. -/
def Dev.allocated (d : Dev) (part : Option Nat) : Nat :=
  sum ((Tab.vals d.fl.allocs).map fun a => if a.freeing != some 0 && (part.isNone || part == some a.part) then a.tiles else 0)

/-- Tiles that SET_HINTs in progress are about to pin, of a partition or of all (R397). -/
def Dev.comingPins (d : Dev) (part : Option Nat) : Nat :=
  sum (d.fl.jobs.map fun p => if d.opOf p.1 = 0x54 && d.liveJob p.1 then (match Tab.find d.fl.allocs p.2.handle with
    | some a => if part.isNone || part == some a.part then a.tiles else 0
    | none => 0) else 0)

/-- Table 16.5: pinning n more tiles of a partition exceeds its quota, or would reach into the floor. A quota of 0 sets
no limit (R401). -/
def Dev.pinDenied (d : Dev) (part n : Nat) : Bool :=
  let q := d.rg .TIER_PINQ_GIB 0 part * 16384
  let use := d.allocPins (some part) + d.comingPins (some part) + Tab.get 0 d.fl.packs part
  (q > 0 && use + n > q) || d.pinnedTiles + d.comingPins none + n + d.rg .TIER_WORK_TILES + d.rg .TIER_CFG_FLOOR_GIB * 16384 > d.rg .TIER_TOTAL_TILES

/-- ALLOC (0x50). -/
def Dev.tierAlloc (d : Dev) (r : Nat) (q : Req) : Dev :=
  let (h, first, n) := tierArgs q.desc
  let hint := u8 q.desc 0x28
  let fq := d.rg .TIER_FLQ_GIB 0 q.part * 16384
  let pin := hint = 0 && d.pinDenied q.part n
  let fails := failIf (!payloadOk [(0x10, 16), (0x28, 1)] q.desc || h != 0 || first != 0 || n < 1 || n > 4194304 || hint > 4) ST_BAD_DESC
      ++ failIf (d.fl.allocs.length ≥ 65536) ST_REFUSED_RESOURCE 2
      ++ failIf (d.allocated none + n > d.fl.allocSpace) ST_REFUSED_RESOURCE 3
      ++ failIf (fq > 0 && d.allocated (some q.part) + n > fq) ST_REFUSED_RESOURCE 5
      ++ failIf pin ST_REFUSED_RESOURCE 6
  let d := if pickFail fails = some (ST_REFUSED_RESOURCE, 6) then d.bump .TIER_PINDENY_COUNT else d
  d.checked r fails fun d =>
    let b := q.bib.getD 0
    let h := b * 2 ^ 54 + d.fl.serial
    let d : Dev := { d with fl := { d.fl with
      serial := d.fl.serial + 1, allocs := Tab.ins d.fl.allocs h { bib := b, part := q.part, tiles := n, hint := hint } } }
    (if hint = 0 then d.shrinkCache else d).complete r ST_OK h

/-- The rules that every request with a handle shares (R391, R393): the failures, given the largest COUNT (0 where the
request has no range) and whether it has an address. -/
def Dev.tierFails (d : Dev) (q : Req) (maxCount : Nat) (addr : Bool) : List (Nat × Nat) :=
  let (h, first, n) := tierArgs q.desc
  let own := d.ownAlloc q h
  let shape :=
    if maxCount = 0 then first != 0 || n != 0 || u64 q.desc 0x20 != 0
    else n < 1 || n > maxCount || (if addr then u64 q.desc 0x20 % 64 != 0 else u64 q.desc 0x20 != 0)
      || (match own with | some a => first + n > a.tiles | none => false)
  failIf shape ST_BAD_DESC ++ failIf own.isNone ST_REFUSED_RESOURCE 1

/-- FREE (0x51). -/
def Dev.tierFree (d : Dev) (r : Nat) (q : Req) : Dev :=
  let (h, _, _) := tierArgs q.desc
  let named := match Tab.find d.fl.allocs h with | some a => a.named > 0 | none => false
  d.checked r (failIf (!payloadOk [(0x10, 24)] q.desc) ST_BAD_DESC ++ d.tierFails q 0 false ++ failIf named ST_REFUSED_RESOURCE 4)
    fun d => ({ d with fl := { d.fl with allocs := Tab.upd d.fl.allocs h fun a => { a with freeing := some r } } } : Dev).settle

/-- TILE_WRITE (0x52): every tile's data is read from the host. -/
def Dev.tierWrite (d : Dev) (r : Nat) (q : Req) : Dev :=
  let (h, _, n) := tierArgs q.desc
  d.checked r (failIf (!payloadOk [(0x10, 24)] q.desc) ST_BAD_DESC ++ d.tierFails q 16384 true) fun d =>
    let d : Dev := { d with fl := { d.fl with jobs := Tab.ins d.fl.jobs r { handle := h, left := n } } }
    (List.range n).foldl (fun d i => d.dmaRead r i (u64 q.desc 0x20 + i * 65536) 65536) d

/-- The data of tile i of a TILE_WRITE has arrived. -/
def Dev.tierData (d : Dev) (r i : Nat) (b : Bytes) : Dev :=
  (d.updJob r fun j => { j with data := Tab.ins j.data i b }).pumpWrites

/-- A TILE_WRITE loses the data of a tile: what has not started does not start. -/
def Dev.tierNoData (d : Dev) (r : Nat) : Dev := (d.updJob r fun j => { j with left := 0, data := [] }).endJob r

/-- The bytes of a tile of an allocation. -/
def Dev.tileBytes (d : Dev) (k : Nat) : Bytes := Tab.getRun 0 d.fl.bytes (k * 65536) 65536

/-- Tile i of a TILE_READ is delivered. -/
def Dev.deliver (d : Dev) (r i : Nat) (b : Bytes) : Dev :=
  match Tab.find d.reqs r with
  | none => d
  | some q =>
    let d := (d.dmaWrite r (u64 q.desc 0x20 + i * 65536) b).useBib r 0 1 0
    d.updJob r fun j => { j with done := j.done + 1, left := j.left - 1 }

/-- R422: the bytes of a discarded tile are undefined. -/
def Dev.deliverUndef (d : Dev) (r i : Nat) : Dev :=
  let (b, d) := d.undefBytes 65536
  (((d.bump .FTL_UNDEF_COUNT).addFlag r FL_UNDEFINED)).deliver r i b

/-- One tile of a TILE_READ (R396, R386, R408, R422). -/
def Dev.readTile (d : Dev) (r h hint first i : Nat) : Dev :=
  let k := allocTile h (first + i)
  match d.look k with
  | .hit => (d.hitTile k).deliver r i (d.tileBytes k)
  | .zero => (d.bump .TIER_HITS_COUNT).deliver r i (fill 65536 0)
  | .discarded => d.deliverUndef r i
  | .lost =>
    let d := (d.reportLoss k).addFail r ST_MEDIA_ERROR
    d.updJob r fun j => { j with left := j.left - 1 }
  | .miss =>
    let d := (d.updJob r fun j => { j with misses := j.misses + 1 }).useBib r 0 0 1
    (d.addFlag r FL_FLASH).startRead k hint (.req r i)

/-- TILE_READ (0x53). -/
def Dev.tierRead (d : Dev) (r : Nat) (q : Req) : Dev :=
  let (h, a, n) := tierArgs q.desc
  let hint := match Tab.find d.fl.allocs h with | some x => x.hint | none => 1
  d.checked r (failIf (!payloadOk [(0x10, 24)] q.desc) ST_BAD_DESC ++ d.tierFails q 16384 true) fun d =>
    let d : Dev := { d with fl := { d.fl with jobs := Tab.ins d.fl.jobs r { handle := h, left := n } } }
    ((List.range n).foldl (fun d i => d.readTile r h hint a i) d).endJob r

/-- PREFETCH (0x55): tiles not resident are read, at age 0; NO_CACHE does nothing (R396). -/
def Dev.tierPrefetch (d : Dev) (r : Nat) (q : Req) : Dev :=
  let (h, a, n) := tierArgs q.desc
  let hint := match Tab.find d.fl.allocs h with | some x => x.hint | none => 1
  d.checked r (failIf (!payloadOk [(0x10, 16)] q.desc) ST_BAD_DESC ++ d.tierFails q 16384 false) fun d =>
    if hint = 4 then d.complete r ST_OK 0
    else
      let d : Dev := { d with fl := { d.fl with jobs := Tab.ins d.fl.jobs r { handle := h, left := n } } }
      ((List.range n).foldl (fun d i =>
        let k := allocTile h (a + i)
        match d.look k with
        | .miss => d.startRead k hint (.req r i)
        | .lost =>
          ((d.reportLoss k).addFail r ST_MEDIA_ERROR).updJob r fun j => { j with left := j.left - 1 }
        | .hit => d.updJob r fun j => { j with resident := j.resident + 1, left := j.left - 1 }
        | _ => d.updJob r fun j => { j with left := j.left - 1 }) d).endJob r

/-- SET_HINT (0x54). The tiles that PIN_DRAM brings together are held until all are there, and take the hint only then (R394,
R397); where one is lost, nothing is read. -/
def Dev.tierHint (d : Dev) (r : Nat) (q : Req) : Dev :=
  let (h, _, _) := tierArgs q.desc
  let hint := u8 q.desc 0x28
  let (tiles, named, old) := match Tab.find d.fl.allocs h with
    | some a => (a.tiles, decide (a.named > 0), a.hint)
    | none => (0, false, 1)
  let deny := hint = 0 && old != 0 && d.pinDenied q.part tiles
  let fails := failIf (!payloadOk [(0x10, 24), (0x28, 1)] q.desc || hint > 4) ST_BAD_DESC ++ d.tierFails q 0 false
    ++ failIf named ST_REFUSED_RESOURCE 4 ++ failIf deny ST_REFUSED_RESOURCE 6
  let d := if pickFail fails = some (ST_REFUSED_RESOURCE, 6) then d.bump .TIER_PINDENY_COUNT else d
  d.checked r fails fun d =>
    if hint != 0 then (d.applyHint h hint).complete r ST_OK 0
    else
      let lost := (d.tilesOf h).filter fun k => d.look k == .lost
      let d := lost.foldl (fun d k => (d.reportLoss k).addFail r ST_MEDIA_ERROR) d
      let miss := if lost.isEmpty then (d.tilesOf h).filter fun k => d.look k == .miss else []
      let d : Dev := { d with fl := { d.fl with jobs := Tab.ins d.fl.jobs r { handle := h, left := miss.length, keep := d.tilesOf h } } }
      (miss.foldl (fun d k => d.startRead k old (.req r 0)) d).endJob r

/-- DISCARD (0x58). -/
def Dev.tierDiscard (d : Dev) (r : Nat) (q : Req) : Dev :=
  let (h, _, _) := tierArgs q.desc
  let named := match Tab.find d.fl.allocs h with | some a => a.named > 0 | none => false
  d.checked r (failIf (!payloadOk [(0x10, 16)] q.desc) ST_BAD_DESC ++ d.tierFails q 16384 false ++ failIf named ST_REFUSED_RESOURCE 4)
    fun d => ({ d with fl := { d.fl with jobs := Tab.ins d.fl.jobs r { handle := h, left := 1 } } } : Dev).settle

/-- SCRUB (0x59): written tiles are read from the flash, whatever their residency; a tile that is lost fails it (R408; log
124). -/
def Dev.tierScrub (d : Dev) (r : Nat) (q : Req) : Dev :=
  let (h, a, n) := tierArgs q.desc
  d.checked r (failIf (!payloadOk [(0x10, 16)] q.desc) ST_BAD_DESC ++ d.tierFails q 16384 false) fun d =>
    let on := (List.range n).filter fun i => (d.tile (allocTile h (a + i))).onFlash
    let d : Dev := { d with fl := { d.fl with jobs := Tab.ins d.fl.jobs r { handle := h, left := on.length } } }
    (on.foldl (fun d i =>
      let k := allocTile h (a + i)
      if d.lostTile (d.tile k) then ((d.reportLoss k).addFail r ST_MEDIA_ERROR).updJob r fun j => { j with left := j.left - 1 }
      else d.rawRead k [.req r i]) d).endJob r

/-- R395, R421, R423: the rewrite of a tile by a SCRUB starts, or the request is held at the NV bar or for want of a target, after
which it rewrites nothing more. -/
def Dev.scrubRewrite (d : Dev) (r k src : Nat) (blocked : Nat) : Dev :=
  if blocked > 0 then d
  else if d.rg .FTL_SUPPLY_NVLOW = 1 then (d.updJob r fun j => { j with blocked := 1 }).bump .FTL_NVBLK_COUNT
  else if (d.writables false).isEmpty then d.updJob r fun j => { j with blocked := 2 }
  else
    (d.updJob r fun j => { j with flying := j.flying + 1 }).program (.rewrite k (some r)) (some k) 1 [] false src

/-- A flash read for a tier request has ended (R396, R397, R418, R419, R423). -/
def Dev.tierReadEnd (d : Dev) (r i : Nat) (o : FOp) (x : ReadOut) : Dev :=
  let levels := x.allMisses
  let ok := x.allOk
  match Tab.find d.reqs r, Tab.find d.fl.jobs r with
  | some q, some j =>
    let k := o.tile.getD 0
    let op := u8 q.desc 0
    if op = 0x53 then
      let d := (d.updJob r fun j => { j with misses := j.misses + levels }).useBib r 0 0 levels
      if (d.tile k).st = 3 then (d.deliverUndef r i).endJob r
      else if ok then (d.deliver r i (d.tileBytes k)).endJob r
      else
        let d := (d.reportMedia o.target k q.bib).addFail r ST_MEDIA_ERROR
        (d.updJob r fun j => { j with left := j.left - 1 }).endJob r
    else if op = 0x55 then
      let d := if ok then d.updTile k fun t => { t with age := 0 }
        else (d.reportMedia o.target k q.bib).addFail r ST_MEDIA_ERROR
      (d.updJob r fun j => { j with left := j.left - 1, done := j.done + ofBool ok }).endJob r
    else if op = 0x54 then
      let d := if ok then d
        else (d.reportMedia o.target k q.bib).addFail r ST_MEDIA_ERROR
      (d.updJob r fun j => { j with left := j.left - 1 }).endJob r
    else
      let (n, d) := d.draw
      let d := if ok && Config.heavyUnit n then d.scrubRewrite r k o.src j.blocked else d
      let d := if ok then d else (d.reportMedia o.target k q.bib).addFlag r FL_UNDEFINED
      (d.updJob r fun j => { j with left := j.left - 1, done := j.done + 1, uncorr := j.uncorr + ofBool (!ok) }).endJob r
  | _, _ => d

/-! ## Programs' ends -/

/-- A tile changed by an internal writer without its flash copy (R389): it keeps the place in the order of dirty tiles that it has,
and takes its hint. -/
def Dev.markDirty (d : Dev) (k hint : Nat) : Dev :=
  let t := d.tile k
  let n := t.dirty.getD d.fl.dirtied
  let d : Dev := { d with fl := { d.fl with dirtied := max d.fl.dirtied (n + 1) } }
  let (f, d) := match t.frame with
    | some f => (f, d)
    | none => d.takeFrame (hint = 0)
  d.updTile k fun t =>
    { t with dirty := some n, writing := false, frame := some f, hint := hint, pinned := hint = 0, age := ageAtAccess hint }

/-- R384: dirty tiles. -/
def Dev.dirtyTiles (d : Dev) : Nat := Tab.count d.fl.map fun t => t.dirty.isSome

/-- R384: room for the tiles that an internal writer would make dirty: 16,384 at once. A piece of work that dirties more by
itself waits until no other tile is dirty: DESIGN CHOICE (log 128). -/
def Dev.dirtyFits (d : Dev) (ks : List Nat) : Bool :=
  let n := (ks.filter fun k => (d.tile k).dirty.isNone).length
  n = 0 || d.dirtyTiles = 0 || d.dirtyTiles + n ≤ 16384

/-- Whether a tile still stands in the unit that a copy was read from. -/
def Dev.sameUnit (d : Dev) (k src : Nat) : Bool := (d.tile k).onFlash && (d.tile k).seq == src

/-- R414, R415, R420: the copy of a tile starts with the read of its source. -/
def Dev.copyTile (d : Dev) (k : Nat) (w : Why) : Dev := d.rawRead k [.copy w]

/-- The source of a copy has been read: its program starts, native for folding and reclaim (R414, R415), where the supply lets
it; a source that is not available is handled as uncorrectable (R419, R420). -/
def Dev.copyRead (d : Dev) (o : FOp) (w : Why) (ok : Bool) : Dev :=
  let k := o.tile.getD 0
  let native := match w with | .rewrite _ _ => false | _ => true
  if !ok then d.reportMedia o.target k none
  else if !d.mayProgram then d.bump .FTL_NVBLK_COUNT
  else d.program w (some k) 1 [] native o.src

/-- R413: map segments stand in the write buffer from now on; older copies of them are free. -/
def Dev.homeSegs (d : Dev) (l : List Nat) (o : FOp) : Dev :=
  let old := (d.fl.segHome.map fun x => (x.1.filter fun g => !l.contains g, x.2)).filter fun x => !x.1.isEmpty
  { d with fl := { d.fl with segHome := old ++ [(l, o.target, o.blk)] } }

/-- FLASH_PROGRAM_DONE with success, for the programs that concern the tiers alone (R395, R414, R415, R389, R412). -/
def Dev.programEnd (d : Dev) (w : Why) (o : FOp) : Dev :=
  match w with
  | .tileWrite r i =>
    let k := o.tile.getD 0
    let h := (k - 2 ^ 64) / 2 ^ 23
    let d := if Tab.has d.fl.allocs h then
        let d : Dev := { d with fl := { d.fl with bytes := Tab.putRun 0 d.fl.bytes (k * 65536) o.data } }
        let hint := match Tab.find d.fl.allocs h with | some a => a.hint | none => 1
        let d := if (d.tile k).st = 0 || (d.tile k).st = 3 then
            (let (f, d) := if hint = 0 && (d.tile k).frame.isNone then (let (f, d) := d.takeFrame true; (some f, d)) else ((d.tile k).frame, d)
             d.updTile k fun t => { t with hint := hint, pinned := hint = 0, frame := f })
          else d
        d.place k o
      else d
    let d := (d.updHealth (sledOf o.target) fun h => { h with hostBytes := h.hostBytes + 65536 }).useBib r 1 0 0
    let _ := i
    (d.updJob r fun j => { j with done := j.done + 1, left := j.left - 1, flying := j.flying - 1 }).endJob r
  | .fold k => if d.sameUnit k o.src then (d.place k o).bump .FTL_FOLDED_TILES else d
  | .move k target blk =>
    let d := if d.sameUnit k o.src then d.place k o else d
    if (d.validIn target blk).isEmpty && !d.blockBusy target blk then d.eraseBlock target blk true else d
  | .rewrite k r =>
    let d := if d.sameUnit k o.src then (d.place k o).healthErr (sledOf o.target) 5 1 else d
    match r with
    | some r => (d.updJob r fun j => { j with rewritten := j.rewritten + 1, flying := j.flying - 1 }).endJob r
    | none => d
  | .writeBack k =>
    let d := (d.place k o).bump .TIER_WB_COUNT
    d.updTile k fun t => { t with dirty := if t.writing then none else t.dirty, writing := false }
  | .spill b => if Tab.has d.pl.blocks b then d.place (o.tile.getD 0) o else d
  | .mapSegments l => d.homeSegs l o
  | .panelSegs _ l => d.homeSegs l o
  | .runRecord => { d with fl := { d.fl with runSeq := some (u32 o.data 4) } }
  | _ => d

/-- R420: the tile whose flash copy is the source of a program. -/
def Why.copyOf : Why → Option Nat
  | .fold k => some k
  | .move k _ _ => some k
  | .rewrite k _ => some k
  | _ => none

/-- R420: a failed program retires its block, and the data is programmed again elsewhere, where the supply lets a program
start (R426, R427). A copy whose source can no longer be read is handled as uncorrectable (R419); one whose source has been written
anew since is not needed. -/
def Dev.programFail (d : Dev) (o : FOp) : Dev :=
  let s := sledOf o.target
  let d := ((d.bump .SLED_PFAIL_COUNT 1 s).healthErr s 3 1).mediaEvent o 3 none
  let d := d.retire o.target o.blk
  let wait : Dev := { d with fl := { d.fl with wait := o :: d.fl.wait } }
  let gone := (o.why.bind Why.copyOf).any fun k => !d.sameUnit k o.src
  let lost := (o.why.bind Why.copyOf).any fun k => d.lostTile (d.tile k) || !(d.tile k).bad.isEmpty
  let done (d : Dev) : Dev := match o.why with
    | some (.rewrite _ (some r)) => (d.updJob r fun j => { j with flying := j.flying - 1 }).endJob r
    | _ => d
  match o.why with
  | none => d
  | some w =>
    if d.rg .FTL_SUPPLY_FLUSH = 1 then
      (if w.flush then { d with fl := { d.fl with flushTodo := (w, none) :: d.fl.flushTodo } } else d)
    else if gone then done d
    else if lost then done (d.reportMedia o.target (o.tile.getD 0) none)
    else if d.mayProgram then (d.launch o false).getD wait
    else wait

/-! ## Background work (R387, R389, R412, R414, R415, R420) -/

/-- R389: the tile that became dirty first and has no write-back under way. -/
def Dev.oldestDirty (d : Dev) : Option Nat :=
  let busy (k : Nat) : Bool := (Tab.vals d.fl.ops ++ d.fl.wait).any fun o => o.why == some (.writeBack k)
  match d.fl.map.filter fun p => p.2.dirty.isSome && !busy p.1 with
  | [] => none
  | a :: r => some (r.foldl (fun (b p : Nat × Tile) => if p.2.dirty.getD 0 < b.2.dirty.getD 0 then p else b) a).1

/-- The tiles whose copies are under way, their source being read, or programmed, or waiting for room. -/
def Dev.copying (d : Dev) : List Nat :=
  (Tab.vals d.fl.ops ++ d.fl.wait ++ d.fl.stalled).flatMap fun o =>
    (match o.why with
      | some w => w.copyOf.toList
      | none => []) ++ o.waiters.filterMap fun w => match w with | .copy _ => o.tile | _ => none

/-- Tiles of the buffer by write sequence, none of them being copied, all of them readable. -/
def Dev.foldable (d : Dev) : List Nat :=
  let busy := d.copying
  let l := d.fl.map.filter fun p => p.2.st == 1 && !busy.contains p.1 && p.2.dirty.isNone && p.2.bad.isEmpty && !d.lostTile p.2
  (sortBy (fun (a b : Nat × Tile) => a.2.seq < b.2.seq) l).map (·.1)

/-- R415: the block that reclaim takes on a target: of the full blocks, since one that is open is still being filled, and of those
that hold tiles alone (log 147). -/
def Dev.reclaimBlk (d : Dev) (n : Nat) (x : Target) : Option Nat :=
  let full := x.blks.filter fun p => x.full p.2 && !d.blockBusy n p.1
  let better (p b : Nat × Blk) : Bool :=
    let vp := (d.validIn n p.1).length
    let vb := (d.validIn n b.1).length
    vp < vb || (vp == vb && p.2.opened < b.2.opened)
  match full with
  | [] => none
  | a :: r => some (r.foldl (fun b p => if better p b then p else b) a).1

/-! ## Logs (R424) -/

/-- Mean erases over the rated endurance, in 1/1,000, and the highest count of a block. -/
def Dev.wear (d : Dev) (sled : Nat) : Nat × Nat :=
  let ts := (d.fl.targets.filter fun p => sledOf p.1 == sled).map (·.2)
  let es := ts.flatMap fun x => (Tab.vals x.blks).map (·.erases)
  let n := sum (ts.map (·.blocks)) * (Tab.get ({} : Health) d.fl.health sled).endurance
  (if n = 0 then 0 else min 65535 (sum es * 1000 / n), maxOf es)

/-- Spare blocks left, in 1/1,000 of the count at discovery. -/
def Health.spareMille (h : Health) : Nat := if h.spare0 = 0 then 0 else (h.spare0 - h.retired) * 1000 / h.spare0

/-- LOG 0x01 (Table 17.6). -/
def Dev.healthLog (d : Dev) (sled : Nat) : Bytes :=
  let h := Tab.get ({} : Health) d.fl.health sled
  let (w, m) := d.wear sled
  fit 512 (le 2 h.spareMille ++ le 2 w ++ le 4 h.endurance ++ le 4 m ++ le 4 h.retired ++ (h.errors.map (le 8)).flatten
    ++ (h.temp.map (le 4)).flatten ++ le 8 h.hostBytes ++ le 8 h.mediaBytes)

/-- LOG 0x02: the last 64 events. -/
def Dev.mediaLog (d : Dev) : Bytes := fit 2048 d.fl.events.flatten

/-- LOG 0x03: allocated tiles, tiles written, tiles read, misses of a bib (8 bytes each: DESIGN CHOICE, log 42). -/
def Dev.useLog (d : Dev) (b : Nat) : Bytes :=
  let (w, r, m) := Tab.get (0, 0, 0) d.fl.bibUse b
  fit 64 (le 8 (sum ((Tab.vals d.fl.allocs).map fun a => if a.bib == b then a.tiles else 0)) ++ le 8 w ++ le 8 r ++ le 8 m)

/-- LOG_READ as admitted (R424, R547). LOG 0x03 read from PF0 names no bib: its bytes are free (log 43). -/
def Dev.logRead (d : Dev) (r : Nat) (q : Req) : Dev :=
  let log := u8 q.desc 0x10
  let sled := u8 q.desc 0x11
  let off := u32 q.desc 0x14
  let len := u32 q.desc 0x18
  let addr := u64 q.desc 0x20
  let own := !winIsPf0 q.win
  let size := if log = 1 then 512 else if log = 2 then 2048 else if log = 3 then 64
    else if log = 0x40 then d.measLogBytes.length else 0
  let bad := !payloadOk [(0x10, 2), (0x14, 8), (0x20, 8)] q.desc || size = 0 || (if log = 1 then sled > 3 else sled != 0xFF)
    || off % 64 != 0 || len % 64 != 0 || off + len > size
  d.checked r (failIf bad ST_BAD_DESC ++ failIf (own && log != 3) ST_NOT_OWNER) fun d =>
    let (b, d) := if log = 1 then (d.healthLog sled, d) else if log = 2 then (d.mediaLog, d)
      else if log = 0x40 then (d.measLogBytes, d)
      else match q.bib with
        | some b => (d.useLog b, d)
        | none => d.undefBytes 64
    (d.dmaWrite r addr (sub b off len)).finish r ST_OK 0

/-! ## Supply states and the flush (R425 to R429) -/

/-- NV_BAR_EXIT (R425): waiting programs start. -/
def Dev.nvBarExit (d : Dev) (main : Nat) : Dev :=
  let d := d.setRg .PWR_SENSE_MAIN main
  if (d.rg .FTL_VTHR_NVBAR + 2) * 10 ≤ main && d.rg .FTL_SUPPLY_NVLOW = 1 then (d.setRg .FTL_SUPPLY_NVLOW 0).kick else d

def Dev.updFlush (d : Dev) (f : Flush → Flush) : Dev := { d with fl := { d.fl with flushes := d.fl.flushes.map f } }

/-- R428: the first 64 bytes of a flush record (Table 17.8); the rest of its 64 KiB is 0. -/
def flushRecord (magic seq te cause segs last : Nat) : Bytes :=
  let b := le 4 magic ++ le 4 seq ++ le 8 te ++ le 1 cause ++ fill 3 0 ++ le 4 segs ++ le 8 last ++ fill 28 0
  b ++ le 4 (crc32 b)

/-- "YJFS", "YJFE" and "YJRN" as little-endian words. -/
def magicStart : Nat := 0x53464A59
def magicEnd : Nat := 0x45464A59
def magicRun : Nat := 0x4E524A59

/-- The record that a program writes. The highest write sequence is that of the last unit programmed. -/
def Dev.recordData (d : Dev) (w : Why) : Bytes :=
  let x := d.fl.flushes.getD { seq := 0, te := 0, cause := 0 }
  match w with
  | .startRecord => flushRecord magicStart x.seq x.te x.cause 0 0
  | .endRecord => flushRecord magicEnd x.seq x.te x.cause x.segments (d.fl.seq - 1)
  | .runRecord => flushRecord magicRun x.seq 0 0 0 (d.fl.seq - 1)
  | _ => []

/-- Records, which are programmed twice (R428). -/
def Why.record : Why → Bool
  | .startRecord => true
  | .endRecord => true
  | .runRecord => true
  | _ => false

/-- R427, R428: the target on which a program that has still to start may start now: none with an operation in progress that is not a
read; for the second copy of a record, one of another sled where another sled is writable. -/
def Dev.todoTarget (d : Dev) (w : Why) (at_ : Option Nat) (flush : Bool) : Option Nat :=
  let free (n : Nat) : Bool := (d.opsOn n).all fun o => o.kind == 0
  match at_, d.fl.recAt with
  | some n, _ => if free n then some n else none
  | none, none => d.nextTarget false flush free
  | none, some m =>
    let apart (n : Nat) : Bool := !w.record || sledOf n != sledOf m
    let p : Nat → Bool := if (d.writables flush).any apart then apart else fun _ => true
    d.nextTarget false flush fun n => free n && p n

/-- Programs of the flush, or the run record, start where they can: each above the floor (R427), one to a target. -/
def Dev.startTodo (d : Dev) (flush : Bool) : Dev :=
  d.fl.flushTodo.foldl (fun d p =>
    let keep : Dev := { d with fl := { d.fl with flushTodo := d.fl.flushTodo ++ [p] } }
    if flush && d.rg .FTL_SUPPLY_HOLDLOW = 1 then keep
    else match d.todoTarget p.1 p.2 flush with
      | none => keep
      | some n =>
        match d.launchOn { kind := 1, why := some p.1, data := d.recordData p.1 } n flush with
        | none => if p.2.isSome && !d.trackerFull then d else keep
        | some d =>
          let d : Dev := { d with fl := { d.fl with recAt := if !p.1.record then d.fl.recAt else if d.fl.recAt.isNone then some n else none } }
          if p.1 = .startRecord then { d with fl := { d.fl with flushes := d.fl.flushes.map fun x => { x with startBegun := true } } } else d)
    { d with fl := { d.fl with flushTodo := [] } }

/-- R428: a record is to be programmed twice. -/
def Dev.twice (d : Dev) (w : Why) : Dev :=
  { d with fl := { d.fl with flushTodo := d.fl.flushTodo ++ [(w, none), (w, none)], recAt := none } }

/-- Whether a flush program is in progress, or has still to start. -/
def Dev.flushBusy (d : Dev) : Bool :=
  !d.fl.flushTodo.isEmpty || (Tab.vals d.fl.ops).any fun o => match o.why with | some w => w.flush | none => false

/-- Groups of at most n numbers. -/
def groups (n : Nat) : Nat → List Nat → List (List Nat)
  | 0, _ => []
  | f + 1, l => if l.isEmpty then [] else l.take n :: groups n f (l.drop n)

/-- Table 17.7: what can start does, and the next step of the flush begins once the programs of the step before have ended; by
fuel. -/
def Dev.flushPump : Nat → Dev → Dev
  | 0, d => d
  | f + 1, d =>
    let d := if (d.fl.flushes.map (·.floor)).getD false then d else d.startTodo true
    match d.fl.flushes with
    | none => d
    | some x =>
      let todo (d : Dev) (l : List (Why × Option Nat)) : Dev := { d with fl := { d.fl with flushTodo := d.fl.flushTodo ++ l } }
      let next (d : Dev) : Dev := Dev.flushPump f (d.updFlush fun x => { x with step := x.step + 1 })
      if d.flushBusy || x.floor || d.rg .FTL_SUPPLY_FLUSH = 0 || x.step ≥ 6 then d
      else if x.step = 1 then next (d.twice .startRecord)
      else if x.step = 2 then
        let open_ := d.fl.targets.filter fun p => d.writable p.1 true && (p.2.openBlk false).isSome
        next (todo d (open_.map fun p => (.openPages, some p.1)))
      else if x.step = 3 then
        let l := sortBy (· < ·) d.fl.dirtySegs
        next (todo d ((groups 16 (l.length + 1) l).map fun g => (.flushSegments g, none)))
      else if x.step = 4 then next (d.twice .endRecord)
      else d

/-- Flush mode begins (R427): no completion and no DMA any more, what has not started is abandoned. -/
def Dev.beginFlush (d : Dev) (cause : Nat) : Dev :=
  let seq := (match d.fl.flushes with | some x => x.seq | none => 0) + 1
  let d := ((d.cutNor.setRg .PWR_STATE_STATE 5).setRg .FTL_SUPPLY_FLUSH 1).dropLoad
  let d : Dev := { d with
    dmas := [], bufs := [], queues := []
    outlets := d.outlets.map fun x => { x with ctl := [], apt := [] }
    ports := d.ports.map fun x => { x with up := false }
    fl := { d.fl with
      ops := d.fl.ops.filter fun p => p.2.kind != 0
      wait := [], stalled := [], stallAt := none, jobs := [], flushTodo := []
      flushes := some { seq := seq % 2 ^ 32, te := d.now, cause := cause, floor := d.rg .FTL_SUPPLY_HOLDLOW = 1 } } }
  Dev.flushPump 8 ((d.setRg .ETH_LINK_UP 0 0).setRg .ETH_LINK_UP 0 1)

/-- A flush program has ended. -/
def Dev.flushEnd1 (d : Dev) (w : Why) (o : FOp) : Dev :=
  let d := d.updFlush fun x => { x with last := d.now }
  match w with
  | .startRecord => d.updFlush fun x => { x with startWhole := true }
  | .flushSegments l =>
    let d : Dev := { d with fl := { d.fl with dirtySegs := d.fl.dirtySegs.filter fun g => !l.contains g } }
    (d.homeSegs l o).updFlush fun x => { x with segments := x.segments + l.length }
  | .endRecord => d.updFlush fun x => { x with endWhole := true, step := 6 }
  | _ => d

/-- HOLD_FLOOR_REACHED (R425, R427). -/
def execHoldFloorReached (t hold : Nat) (s : State) : Host.Outcome State Fault Refusal :=
  s.runIf t Dev.mgmtOn fun d =>
    let d := d.setRg .PWR_SENSE_HOLD hold
    if hold < d.rg .FTL_VTHR_FLOOR * 10 then (d.setRg .FTL_SUPPLY_HOLDLOW 1).updFlush fun x =>
      { x with floor := x.floor || (d.rg .FTL_SUPPLY_FLUSH = 1 && !x.endWhole) }
    else d

/-- HOLD_FLOOR_RECOVERED (R425). -/
def execHoldFloorRecovered (t hold : Nat) (s : State) : Host.Outcome State Fault Refusal :=
  s.runIf t Dev.mgmtOn fun d =>
    let d := d.setRg .PWR_SENSE_HOLD hold
    if d.rg .FTL_VTHR_FLOOR * 10 ≤ hold then d.setRg .FTL_SUPPLY_HOLDLOW 0 else d

/-- Table 17.7: all but the MGMT domain is powered down, and no other PLL stays locked: DEDUCED (log 157). -/
def Dev.clocksOff (d : Dev) : Dev :=
  [Fld.PWR_CLK_CORE, .PWR_CLK_TRACK, .PWR_CLK_STRIDE, .PWR_CLK_FLASH, .PWR_CLK_PCIE, .PWR_CLK_ETH, .PWR_CLK_STK].foldl
    (fun d f => d.setRg f 0) d

/-- R427, R531, Table 23.6: in HALT only the MGMT domain runs, and every sled is unpowered. -/
def Dev.halt (d : Dev) : Dev :=
  (List.range 4).foldl (fun d n => d.setRg .PANEL_SLED_PWREN 0 0 n) (d.setRg .PWR_STATE_STATE 6).clocksOff

/-- FLUSH_END (R427): the end record's program ends, or after the floor the last programs have; the node enters HALT. -/
def execFlushEnd (t : Nat) (s : State) : Host.Outcome State Fault Refusal :=
  s.runIf t Dev.mgmtOn fun d =>
    if d.power != 5 then d
    else
      let ends := d.fl.ops.filter fun p => p.2.why == some .endRecord
      let d := Dev.flushPump 8 (ends.foldl (fun d p => (d.dropOp p.1).flushEnd1 .endRecord p.2) d)
      match d.fl.flushes with
      | some x => if (x.endWhole && !d.flushBusy) || (x.floor && d.fl.ops.isEmpty) then d.halt else d
      | none => d

/-- What a node reset leaves of the tiers (R538): the media; programs and erases in progress are lost with the node. -/
def Tiers.afterReset (x : Tiers) (heats : Tab Heat) : Tiers :=
  { x with
    heatHome := heats.foldl (fun t p => Tab.ins t p.2.number p.2.afterReset) x.heatHome
    targets := Tab.mapV x.targets fun _ y => { y with blks := Tab.mapV y.blks fun _ b => { b with erasing := false } }
    map := (Tab.mapV x.map fun _ t => { t with frame := none, age := 0, pinned := false, dirty := none, writing := false
                                               holds := 0, reading := none }).filter fun p =>
      p.2 != {} && !(2 ^ 60 ≤ p.1 && p.1 < 2 ^ 64)
    rows := x.rowHome
    ops := [], wait := [], stalled := [], stallAt := none, dirtySegs := [], jobs := [], packs := [], internalPins := 0, allocSpace := 0
    flushTodo := [], recAt := none, sweptAt := none }

/-- R430: what boot step 7 finds of the run that has just ended. -/
def Dev.recoverFlush (d : Dev) : Dev :=
  match d.fl.flushes with
  | none => d
  | some x =>
    let mine := x.startBegun && (match d.fl.runSeq with | none => true | some n => newer 32 x.seq n)
    let res := if !mine then 0 else if !x.startWhole then 4 else if x.endWhole then 1 else if x.floor then 2 else 3
    let us := if res = 0 || res = 4 then 0 else (x.last - x.te) / 1000
    (d.setRg .FTL_LASTFLUSH_RESULT res).setRg .FTL_LASTFLUSH_DURATION_US us

/-- R431: whether a start record belongs to the run that has just ended, and its T_E. -/
def Dev.flushOfRun (d : Dev) : Option Nat :=
  match d.fl.flushes with
  | none => none
  | some x =>
    if x.startWhole && (match d.fl.runSeq with | none => true | some n => newer 32 x.seq n) then some x.te else none

/-! ## Discovery and temperature (R405 to R408, R424) -/

/-- R406: the rates of Table 17.1. -/
def trainRate (m : Nat) : Bool := [3600, 3200, 2400, 1600, 800].contains m

/-- R403, R404: a target that the media table knows, with a geometry of Table 17.1. -/
def Dev.fits (d : Dev) (x : TargetInfo) : Bool :=
  Tab.has d.fl.media x.id && x.ce < 16 && x.planes == 4 && x.page == 16384 && 1600 ≤ x.spare && 1 ≤ x.luns && x.luns ≤ 4
    && x.blocks ≤ 262144

/-- The data bytes of a target, in the cells' native mode (R405). -/
def infoBytes (x : TargetInfo) : Nat := x.luns * x.blocks * x.pages * x.planes * x.page

/-- A target as discovery finds it. -/
def infoTarget (x : TargetInfo) (qlc : Bool) : Target :=
  { qlc := qlc, blocks := x.luns * x.blocks, perBlock := x.pages * x.planes * x.page / 65536, luns := x.luns, id := x.id }

/-- R405, R406: the channels of a sled, with their rates and used targets; a channel that trains at no rate is left unused. -/
def Dev.usedOf (d : Dev) (sled : Nat) (x : SledInfo) : List (Nat × Nat × List TargetInfo) :=
  (List.zip (List.range 8) x.chans).map fun p =>
    let c := sled * 8 + p.1
    if trainRate p.2.mts && p.2.mts ≤ d.rg .FLC_CFG_MAXMTS c then (c, p.2.mts, p.2.targets.filter d.fits) else (c, 0, [])

/-- A tile whose sled has left is lost for good (R408): its target is numbered among sleds that do not exist. -/
def goneTarget (sled target : Nat) : Nat := if sledOf target = sled then target + 512 else target

/-- R408: what a sled held is gone, and what its journal held. -/
def Dev.sledBlank (d : Dev) (sled : Nat) : Dev :=
  { d with fl := { d.fl with
    targets := Tab.keep d.fl.targets fun n _ => sledOf n != sled
    map := Tab.mapV d.fl.map fun _ t => if t.onFlash then { t with target := goneTarget sled t.target } else t
    journal := d.fl.journal.filter fun x => sledOf x.target != sled
    steps := d.fl.steps.filter fun x => sledOf x.target != sled
    segHome := d.fl.segHome.filter fun x => sledOf x.2.1 != sled } }

/-- SLED_DISCOVERY_END (R404 to R407): what was found on a sled that is DISCOVERING. At boot a target that the media still list
keeps its blocks; a sled inserted later adds blank capacity (R408). -/
def Dev.discovered (d : Dev) (sled : Nat) (x : SledInfo) : Dev :=
  let chans := d.usedOf sled x
  let part (y : TargetInfo) : MediaPart := d.mediaOf (infoTarget y false)
  let used := chans.flatMap fun p => p.2.2.map fun y => (p.1 * 16 + y.ce, infoTarget y (part y).qlc)
  let infos := chans.flatMap (·.2.2)
  let qlc := infos.any fun y => (part y).qlc
  let fails := (List.zip chans x.chans).any fun p => !p.1.2.2.isEmpty && p.2.trainFails ≥ 3
  let failed := used.isEmpty || (qlc && infos.any fun y => !(part y).qlc) || fails
  let d := chans.foldl (fun d p =>
    let ce := if failed then 0 else sum (((p.2.2.map (·.ce)).eraseDups).map fun c => 2 ^ c)
    let mts := if failed || p.2.2.isEmpty then 0 else p.2.1
    ((d.setRg .FLC_STAT_CE ce p.1).setRg .FLC_STAT_MTS mts p.1).setRg .FLC_STAT_TRAINED (ofBool (mts > 0)) p.1) d
  let d := d.healthErr sled 7 (sum (x.chans.map (·.trainFails)))
  if failed then d.setRg .SLED_STAT_STATE 5 sled
  else
    let d := if d.power ≥ 3 then d.sledBlank sled else d
    let d : Dev := { d with fl := { d.fl with targets := used.foldl (fun ts p =>
      if Tab.has ts p.1 then ts else Tab.ins ts p.1 p.2) d.fl.targets } }
    let d := d.updHealth sled fun h => { h with
      spare0 := sum (used.map (·.2.blocks)) * 70 / 1000, endurance := (infos.map fun y => (part y).endurance).headD 0, lostSaid := false }
    let d := ((d.setRg .SLED_STAT_STATE 2 sled).setRg .SLED_STAT_TARGETS used.length sled).setRg .SLED_STAT_MEDIA
      (if qlc then 2 else 1) sled
    (d.setRg .SLED_RAW_BYTES (sum (infos.map infoBytes)) sled).kick

/-- A sled leaves (R407, R408): its targets hold nothing that can be read, and what its journal held is gone. -/
def Dev.sledGone (d : Dev) (sled st : Nat) : Dev :=
  let d := d.setRg .SLED_STAT_STATE st sled
  let d := ((d.setRg .SLED_STAT_TARGETS 0 sled).setRg .SLED_STAT_MEDIA 0 sled).setRg .SLED_RAW_BYTES 0 sled
  let d := (List.range 8).foldl (fun d c =>
    ((d.setRg .FLC_STAT_CE 0 (sled * 8 + c)).setRg .FLC_STAT_MTS 0 (sled * 8 + c)).setRg .FLC_STAT_TRAINED 0 (sled * 8 + c)) d
  let d := d.sledBlank sled
  d.rebound

/-- The bin of a temperature (Table 17.6). -/
def tempBin (c : Int) : Nat := if c < 10 then 0 else if c ≥ 80 then 15 else (1 + (c - 10) / 5).toNat

/-- FLASH_TEMP_SAMPLE (R424). -/
def execFlashTempSample (t sled : Nat) (celsius : Int) (s : State) : Host.Outcome State Fault Refusal :=
  s.runIf t Dev.flashOn fun d =>
    let b := min 15 (tempBin celsius)
    let d := d.setRg .SLED_TEMP_CELSIUS (unsigned 8 celsius) sled
    d.updHealth sled fun h => { h with temp := updAt h.temp b fun v => min 4294967295 (v + 1) }

end Sys2Proof.Machine
end

