-- ==== Sys2Proof/Machine/RelayOut.lean ====
section
/-!
DEFINITION. Sending over Relay (spec file 19): paths, frames, the reliable sequence of a pair.
-/
namespace Sys2Proof.Machine

/-! ## Frame types (Table 19.4) -/

def K_HEARTBEAT : Nat := 0x01
def K_BEACON : Nat := 0x02
def K_MEMBERS : Nat := 0x03
def K_ROLES : Nat := 0x04
def K_LOST : Nat := 0x05
def K_TAKEOVER : Nat := 0x06
def K_BATON : Nat := 0x07
def K_RESTART : Nat := 0x08
def K_JOIN : Nat := 0x09
def K_REFILL : Nat := 0x0A
def K_ACK : Nat := 0x0F
def K_SHARD_QUERY : Nat := 0x10
def K_PARTIAL_LIST : Nat := 0x11
def K_SHARD_FAIL : Nat := 0x12
def K_SHARD_CANCEL : Nat := 0x13
def K_UPDATE : Nat := 0x20
def K_OUTCOME : Nat := 0x21
def K_GROUP : Nat := 0x22
def K_GROUP_ACK : Nat := 0x23
def K_COMMIT : Nat := 0x24
def K_EMBED : Nat := 0x30
def K_POOL : Nat := 0x40

/-- Table 19.4: the reliable types. -/
def reliable (kind : Nat) : Bool := !(kind = K_HEARTBEAT || kind = K_BEACON || kind = K_ACK || kind = K_GROUP_ACK)

/-- R471: the types that go in CONTROL. -/
def inControl (kind : Nat) : Bool :=
  kind = K_HEARTBEAT || kind = K_BEACON || kind = K_LOST || kind = K_TAKEOVER || kind = K_BATON

/-- Types that go to slots whatever their state (R472, R479, R489). -/
def toAll (kind : Nat) : Bool :=
  kind = K_BEACON || kind = K_MEMBERS || kind = K_BATON || kind = K_RESTART || kind = K_JOIN || kind = K_ACK || kind = K_HEARTBEAT

/-! ## Lookups -/

def Dev.member (d : Dev) (m : Nat) : Member := Tab.get ({} : Member) d.mt.members m
def Dev.peer (d : Dev) (m : Nat) : Peer := Tab.get ({} : Peer) d.mt.peers m
def Dev.setMt (d : Dev) (f : Meet → Meet) : Dev := { d with mt := f d.mt }
def Dev.updMember (d : Dev) (m : Nat) (f : Member → Member) : Dev := d.setMt fun x => { x with members := Tab.upd x.members m f }
def Dev.setPeer (d : Dev) (m : Nat) (p : Peer) : Dev := d.setMt fun x => { x with peers := Tab.ins x.peers m p }
def Dev.memberLive (d : Dev) (m : Nat) : Bool := Tab.has d.mt.members m && (d.member m).state = 0

/-- R492, R474: the node is part of its meet: admitted at the last restart and not fenced by itself. -/
def Dev.inMeet (d : Dev) : Bool := d.mt.on && d.mt.member && !d.mt.fenced

/-- R482: the clock has been disciplined since the last node reset. -/
def Dev.synced (d : Dev) : Bool := d.mt.synced || d.rg .PTP_STAT_LOCKED = 1 || d.rg .PTP_STAT_MASTER = 1

/-- A descriptor that needs the meet completes with ST_FENCED (R474, R482, R492). -/
def Dev.meetFenced (d : Dev) : Bool := d.mt.on && !(d.inMeet && d.synced)

def Dev.isHolder (d : Dev) : Bool := d.mt.on && d.mt.holder = some d.mt.slot

/-! ## Paths and frames (R467, R469 to R471) -/

/-- R471: the port and lane group of a frame to a member. -/
def Dev.relayPath (d : Dev) (m : Nat) : Option (Nat × Nat) :=
  let p := m % 2
  let g := m / 2 % 2
  let x := d.member m
  [(p, g), (p, 1 - g), (1 - p, 0), (1 - p, 1)].find? fun c =>
    bit (d.rg .ETH_LINK_UP c.1) c.2 && bit x.links (2 * c.1 + c.2) && x.addrs.getD (2 * c.1 + c.2) 0 != 0

/-- Bytes of a Relay frame on the wire beside its payload: Ethernet with one tag 18, IPv6 40, UDP 8, Relay 32, FCS 4.
PRESUMED from the published standards (log 35). -/
def relayOverhead : Nat := 102

/-- The header of a frame to a member. -/
def Dev.relayHdr (d : Dev) (m seq : Nat) (retx more : Bool) : RHdr :=
  { src := d.mt.slot, dst := m, restart := d.mt.restart, baton := d.mt.baton, seq := seq, ack := (d.peer m).rx - 1
    retx := retx, more := more }

/-- A frame enters CONTROL or the node's Relay queue; without a path it is lost. -/
def Dev.relayFrame (d : Dev) (m kind seq : Nat) (retx more : Bool) (body : Bytes) : Dev :=
  match d.relayPath m with
  | none => d
  | some (p, g) =>
    let o := d.outlet p
    let len := o.counted (max 64 (body.length + relayOverhead)) 1
    let e := Emit.relay kind m (d.relayHdr m seq retx more) body
    let lane := if o.mode = 1 then g else 0
    if inControl kind then
      d.updOutlet p fun x => { x with ctl := x.ctl ++ [{ len := len, charge := len, lane := lane, emits := [e], since := d.now }] }
    else d.pushFrame p 1024 6 { len := len, charge := len, lane := lane, emits := [e] }

/-- Payload bytes that a frame to a member carries. -/
def Dev.relayRoom (d : Dev) (m : Nat) : Nat :=
  match d.relayPath m with
  | some (p, _) => max 64 ((d.outlet p).maxFrame - relayOverhead)
  | none => max 64 ((d.outlet (m % 2)).maxFrame - relayOverhead)

/-- The reliable frames of a message (R469, R470); by fuel. -/
def Dev.relayReliable (d : Dev) (m kind : Nat) : Nat → Bytes → Dev
  | 0, _ => d
  | f + 1, body =>
    let room := d.relayRoom m
    let x := body.take room
    let rest := body.drop room
    let more := !rest.isEmpty
    let p := d.peer m
    let d := d.setPeer m { p with
      next := p.next + 1
      unacked := p.unacked ++ [{ seq := p.next, kind := kind, more := more, body := x, sentAt := d.now, tries := 0 }] }
    let d := d.relayFrame m kind p.next false more x
    if more then Dev.relayReliable d m kind f rest else d

/-- A Relay message to a member (R473: none to a LOST slot, but those of the membership). -/
def Dev.relaySend (d : Dev) (m kind : Nat) (body : Bytes) : Dev :=
  if !d.mt.on || m = d.mt.slot || !(Tab.has d.mt.members m) then d
  else if (d.member m).state = 1 && !toAll kind then d
  else if reliable kind then d.relayReliable m kind (body.length + 1) body
  else d.relayFrame m kind 0 false false body

/-- R469: a message is at most 16 MiB. -/
def relayMax : Nat := 16777216

/-- R469: an EMBED or POOL payload whose message would be longer than 16 MiB: its data goes in messages of KIND 2 with the same
descriptor, bib and GEN, the last of it in the message itself: DESIGN CHOICE (log 155). -/
def Dev.relayLong (d : Dev) (m kind : Nat) (head data : Bytes) : Dev :=
  let room := relayMax - 96
  if data.length ≤ room then d.relaySend m kind (head ++ data)
  else
    let n := (data.length - 1) / room
    let d := (chunks room n data).foldl (fun d c => d.relaySend m kind (head.take 0x44 ++ le 1 2 ++ fill 27 0 ++ c)) d
    d.relaySend m kind (head ++ data.drop (n * room))

/-- R469: what a payload of EMBED or POOL makes of a long message: none while more of it is to come. -/
def Dev.takeLong (d : Dev) (src kind : Nat) (b : Bytes) : Option Bytes × Dev :=
  let p := d.peer src
  let head := le 1 kind ++ b.take 0x44
  let have_ := if p.long.1 = head then p.long.2 else []
  if u8 b 0x44 = 2 && u8 b 0 != 0 then (none, d.setPeer src { p with long := (head, have_ ++ b.drop 0x60) })
  else if have_.isEmpty then (some b, d)
  else (some (b.take 0x60 ++ have_ ++ b.drop 0x60), d.setPeer src { p with long := ([], []) })

/-- An answer to a request frame goes to its sender whatever the sender's state (R467, R473). -/
def Dev.relayAnswer (d : Dev) (m kind : Nat) (body : Bytes) : Dev :=
  if Tab.has d.mt.members m && m != d.mt.slot then d.relayReliable m kind (body.length + 1) body else d

/-- A message to every other member of the section that satisfies a test. -/
def Dev.relayAll (d : Dev) (kind : Nat) (body : Bytes) (f : Member → Bool) : Dev :=
  (d.mt.members.filter fun p => p.1 != d.mt.slot && f p.2).foldl (fun d p => d.relaySend p.1 kind body) d

end Sys2Proof.Machine
end

