-- ==== Sys2Proof/Machine/Podium.lean ====
section
/-!
DEFINITION. Podium (spec file 11): keys and their order, lists and selectors, offers, ties, partial lists, merges.
-/
namespace Sys2Proof.Machine

/-! ## Keys (R260, R261) -/

/-- Whether an FP32 word is a NaN. -/
def fp32Nan (x : Nat) : Bool := bits x 30 23 = 255 && bits x 22 0 != 0

/-- An FP32 word as a number that orders as its value does; the two zeros are equal. -/
def fp32Order (x : Nat) : Int := if bit x 31 then -((x % 2 ^ 31 : Nat) : Int) else ((x % 2 ^ 31 : Nat) : Int)

/-- R260, R261: the place of a key: smaller is better. A NaN stands after every number. -/
def keyRank (mode x : Nat) : Int :=
  match mode with
  | 2 => signed 32 x
  | 3 => -signed 32 x
  | 4 => if fp32Nan x then 2 ^ 40 else fp32Order x
  | 5 => if fp32Nan x then 2 ^ 40 else -fp32Order x
  | _ => (x : Int)

/-- R259: an entry stands before another. -/
def PEnt.before (mode : Nat) (a b : PEnt) : Bool :=
  keyRank mode a.key < keyRank mode b.key || (keyRank mode a.key == keyRank mode b.key && a.idx < b.idx)

/-! ## Lists (R258, R263 to R266) -/

/-- The k-th entry of a full list. -/
def PList.kth (l : PList) : Option PEnt := if l.ents.length < l.k then none else l.ents.getLast?

/-- R265: an element cut with a key. Once more than 128 distinct elements have been cut at the key, every further cut
counts. -/
def PList.cut (l : PList) (e : PEnt) : PList :=
  match l.kth with
  | none => l
  | some z =>
    if keyRank l.mode e.key != keyRank l.mode z.key then l
    else
      let l := if l.tieCnt > 0 && keyRank l.mode l.tieKey == keyRank l.mode z.key then l
        else { l with tieCnt := 0, tieTab := [], tieKey := z.key }
      if l.tieCnt > 128 then { l with tieCnt := l.tieCnt + 1 }
      else if l.tieTab.contains e.idx then l
      else if l.tieTab.length < 128 then { l with tieCnt := l.tieCnt + 1, tieTab := e.idx :: l.tieTab, tieKey := z.key }
      else { l with tieCnt := l.tieCnt + 1, ovf := true, tieKey := z.key }

/-- The tie count falls to 0 where the k-th key has changed (R265). -/
def PList.rekey (l : PList) : PList :=
  match l.kth with
  | none => { l with tieCnt := 0, tieTab := [] }
  | some z => if keyRank l.mode l.tieKey == keyRank l.mode z.key then l else { l with tieCnt := 0, tieTab := [], tieKey := z.key }

/-- R270: an element that was cut and now enters with a better key is cut no more. -/
def PList.uncut (l : PList) (e : PEnt) : PList :=
  if l.tieTab.contains e.idx then { l with tieTab := l.tieTab.filter (· != e.idx), tieCnt := l.tieCnt - 1 } else l

/-- An entry enters a list at its place, and what falls beyond the k-th place is cut. -/
def PList.enter (l : PList) (e : PEnt) : PList :=
  let l := l.uncut e
  let es := insertBy (PEnt.before l.mode) e l.ents
  match es.drop l.k with
  | [] => { l with ents := es }.rekey
  | x :: _ => ({ l with ents := es.take l.k }.rekey).cut x

/-- What became of an offer (R263). -/
inductive Offered where
  | kept | dup | cut
deriving DecidableEq, Repr

/-- R263 steps 2 and 3: an offer is a duplicate, enters, or is cut. -/
def PList.offer (l : PList) (e : PEnt) : PList × Offered :=
  match l.ents.find? fun x => x.idx == e.idx with
  | some h =>
    if keyRank l.mode e.key < keyRank l.mode h.key then
      ({ l with ents := insertBy (PEnt.before l.mode) e (l.ents.filter fun x => x.idx != e.idx) }.rekey, .dup)
    else if keyRank l.mode e.key == keyRank l.mode h.key && l.merge && e.src < h.src then
      ({ l with ents := l.ents.map fun x => if x.idx == e.idx then { x with src := e.src, rflags := e.rflags } else x }, .dup)
    else (l, .dup)
  | none =>
    match l.kth with
    | none => (l.enter e, .kept)
    | some z => if e.before l.mode z then (l.enter e, .kept) else (l.cut e, .cut)

def Dev.plist (d : Dev) (n : Nat) : Option PList := Tab.find d.ix.lists n
def Dev.setIx (d : Dev) (f : Index → Index) : Dev := { d with ix := f d.ix }
def Dev.setList (d : Dev) (n : Nat) (l : PList) : Dev := d.setIx fun x => { x with lists := Tab.ins x.lists n l }

/-- Free slots of a selector (R258). -/
def Dev.selFree (d : Dev) (s : Nat) : Nat :=
  32768 - sum ((Tab.vals d.ix.lists).map fun l => if l.sel == some s then l.k else 0)

def Dev.part (d : Dev) (p : Nat) : Option Part := d.parts.find? fun x => x.num == p

/-- The selectors of a partition. -/
def Dev.selsOf (d : Dev) (p : Nat) : List Nat :=
  match d.part p with
  | some x => (List.range 64).filter fun s => bit x.podium s
  | none => []

/-- R258: the selector with the most free slots, the lowest number first, if it has k. -/
def Dev.pickSel (d : Dev) (p k : Nat) : Option Nat :=
  match (d.selsOf p).filter fun s => !d.isFenced 0x22 s with
  | [] => none
  | a :: r =>
    let s := r.foldl (fun b s => if d.selFree b < d.selFree s then s else b) a
    if k ≤ d.selFree s then some s else none

/-- R258: lists of a partition that wait for slots. -/
def Dev.listsWait (d : Dev) (p : Nat) : Bool := (Tab.vals d.ix.lists).any fun l => l.part == p && l.sel.isNone

/-- R258: a new list, placed, or waiting behind those that wait already. -/
def Dev.newList (d : Dev) (o : PodOwner) (part k mode : Nat) (merge : Bool) : Nat × Dev :=
  let (n, d) := d.newId
  let l : PList := { owner := o, part := part, k := k, mode := mode, merge := merge
                     sel := if d.listsWait part then none else d.pickSel part k }
  let d := if l.sel.isNone then (match (d.selsOf part).head? with
      | some s => d.bump .POD_SLOTWAIT_COUNT 1 s
      | none => d) else d
  (n, d.setList n l)

/-- Table 11.5: the selector whose counters take what concerns a list: its own. Where no open list is concerned, the
partition's lowest selector counts: DESIGN CHOICE (log 111). -/
def Dev.selOf (d : Dev) (l : Option PList) (part : Nat) : Nat :=
  (l.bind (·.sel)).getD ((d.selsOf part).headD 0)

/-- An offer is presented to a list that has its slots (Table 11.5): one that reaches a closed list is discarded (R266). -/
def Dev.present (d : Dev) (l : PList) (f : Dev → Dev) : Dev :=
  let s := d.selOf (some l) l.part
  let d := d.bump .POD_OFFERS_COUNT 1 s
  if l.closed then d.bump .POD_LATE_COUNT 1 s else f d

/-- R263 steps 2 and 3, R265: a presented offer is compared. -/
def Dev.compare (d : Dev) (n : Nat) (e : PEnt) : Dev :=
  match d.plist n with
  | none => d
  | some l =>
      let s := d.selOf (some l) l.part
      let d := if (l.mode = 4 || l.mode = 5) && fp32Nan e.key then d.bump .POD_NAN_COUNT 1 s else d
      let (m, what) := l.offer e
      let d := match what with
        | .kept => d.bump .POD_KEPT_COUNT 1 s
        | .dup => d.bump .POD_DUP_COUNT 1 s
        | .cut => d
      let d := if m.ovf && !l.ovf then d.bump .POD_TIEOVF_COUNT 1 s else d
      d.setList n m

/-- R266: n offers come after their list has closed, or has gone. -/
def Dev.lateOffers (d : Dev) (l : Option Nat) (part n : Nat) : Dev :=
  let s := d.selOf (l.bind d.plist) part
  (d.bump .POD_OFFERS_COUNT n s).bump .POD_LATE_COUNT n s

/-- An offer to a list that needs no visibility test. -/
def Dev.offer (d : Dev) (n : Nat) (e : PEnt) : Dev :=
  match d.plist n with
  | none => d
  | some l => d.present l fun d => d.compare n e

/-- R266: a list closes; its delivery follows. -/
def Dev.closeList (d : Dev) (n extra : Nat) : Dev :=
  match d.plist n with
  | none => d
  | some l =>
    if l.closed then d
    else
      let s := d.selOf (some l) l.part
      let d := if l.tieCnt + extra > 0 then d.bump .POD_TIECUT_COUNT 1 s else d
      let d := if l.ents.length < l.k then d.bump .POD_SHORT_COUNT 1 s else d
      let d := if l.merge then d.bump .POD_MERGES_COUNT 1 s else d
      d.setList n { l with closed := true }

/-- A list and its slots go. -/
def Dev.dropList (d : Dev) (n : Nat) : Dev := d.setIx fun x => { x with lists := Tab.del x.lists n }

/-- R266: a list closes whose query has ended otherwise, at CANCEL or at a teardown step; one that still waits for slots just
goes. -/
def Dev.endList (d : Dev) (n : Nat) : Dev :=
  match d.plist n with
  | none => d
  | some l => if l.sel.isNone then d.dropList n else d.closeList n 0

/-- R266, R208: a clear empties the list and keeps its slots. -/
def Dev.clearList (d : Dev) (n : Nat) : Dev :=
  d.setIx fun x => { x with lists := Tab.upd x.lists n fun l => { l with ents := [], tieCnt := 0, tieTab := [] } }

/-- R271: the cut count of a merge: its own ties, and those of the partial lists at its final k-th key. -/
def PList.cutCount (l : PList) (parts : List (Nat × Nat)) : Nat :=
  match l.kth with
  | none => 0
  | some z => min 65535 (l.tieCnt + sum (parts.map fun p => if keyRank l.mode p.1 == keyRank l.mode z.key then p.2 else 0))

/-! ## Partial lists (R268) -/

/-- Table 11.2: the header of a partial list. -/
structure PartHdr where
  tag : Nat
  gen : Nat
  source : Nat
  epoch : Nat
  count : Nat
  status : Nat
  lflags : Nat
  tieKey : Nat
  tieCnt : Nat
  misses : Nat
  mode : Nat
  bib : Nat
deriving DecidableEq, Repr

def partBytes (h : PartHdr) (es : List PEnt) : Bytes :=
  le 4 h.tag ++ le 2 h.gen ++ le 2 h.source ++ le 4 h.epoch ++ le 2 h.count ++ le 1 h.status ++ le 1 h.lflags
    ++ le 4 h.tieKey ++ le 2 h.tieCnt ++ le 2 h.misses ++ le 1 h.mode ++ le 1 0 ++ le 2 h.bib ++ le 4 0
    ++ (es.map fun e => le 5 e.idx ++ le 1 e.rflags ++ le 2 0 ++ le 4 e.key ++ le 4 0).flatten

def readPartHdr (b : Bytes) : PartHdr :=
  { tag := u32 b 0, gen := u16 b 4, source := u16 b 6, epoch := u32 b 8, count := u16 b 0xC, status := u8 b 0xE
    lflags := u8 b 0xF, tieKey := u32 b 0x10, tieCnt := u16 b 0x14, misses := u16 b 0x16, mode := u8 b 0x18, bib := u16 b 0x1A }

def readPartEnts (b : Bytes) (n src : Nat) : List PEnt :=
  (List.range n).map fun i =>
    let o := 32 + 16 * i
    { key := u32 b (o + 8), idx := un 5 b o, src := src, rflags := u8 b (o + 5) }

/-- R193, R264: the sentinel ID and distance. -/
def sentinelId : Nat := 0xFFFFFFFFFF
def sentinelDist : Nat := 0xFFFF

end Sys2Proof.Machine
end

