-- ==== Sys2Proof/Machine/Heats.lean ====
section
/-!
DEFINITION. Heats (spec files 07, 10): epochs, records and their places, filters, visibility, updates at the primary,
commit groups and replicas.
-/
namespace Sys2Proof.Machine

/-! ## Codes, filters (R162, R163, R174) -/

/-- Bytes of a code: CODE 0 to 3 of Table 07.4. -/
def codeBytes (c : Nat) : Nat := 32 * 2 ^ c

/-- The number whose bits are those of a code field. -/
def codeNat (b : Bytes) : Nat := leNat b

/-- R163: the distance between two codes of one width. -/
def hamming (n : Nat) (a b : Bytes) : Nat := popcount (8 * n) (codeNat a ^^^ codeNat b)

/-- R174: whether an attribute word passes a filter; the filter stands in bytes 0x00 to 0x4F of a query block. -/
def passes (f : Bytes) (attr : Nat) : Bool :=
  match u8 f 2 with
  | 0 => true
  | 1 => (List.range (u8 f 3)).any fun i => attr &&& u64 f (0x10 + 8 * i) == u64 f (0x30 + 8 * i)
  | _ => let v := attr / 2 ^ (16 * u8 f 3) % 65536; u16 f 4 ≤ v && v ≤ u16 f 6

/-- R175, Table 08.3: a filter whose fields are in range, unused ones 0. -/
def filterOk (f : Bytes) : Bool :=
  match u8 f 2 with
  | 0 => u8 f 3 = 0 && zeros f 4 4 && zeros f 0x10 64
  | 1 => 1 ≤ u8 f 3 && u8 f 3 ≤ 4 && zeros f 4 4 && zeros f (0x10 + 8 * u8 f 3) (32 - 8 * u8 f 3)
      && zeros f (0x30 + 8 * u8 f 3) (32 - 8 * u8 f 3)
  | 2 => u8 f 3 ≤ 3 && u16 f 4 ≤ u16 f 6 && zeros f 0x10 64
  | _ => false

/-! ## Epochs (R177, R178, R181). Inside the model an epoch is held whole, 2^32 added, so that it never falls below 0;
frames and registers carry it modulo 2^32. -/

def Dev.ivl (d : Dev) : Nat := max 1 (d.ix.pre.interval * 1000)
def Dev.pub (d : Dev) : Nat := d.ix.pre.publish * 1000

/-- R177: the index epoch current now. -/
def Dev.curEpoch (d : Dev) : Nat := (d.now + 4294967296 * d.ivl - d.pub) / d.ivl

/-- R178: the commit epoch of an update that arrives now. -/
def Dev.joinEpoch (d : Dev) : Nat := d.now / d.ivl + 4294967296 + 1

/-- R178: a group is named by the commit boundary at which it closes: the index of the last boundary. -/
def Dev.boundary (d : Dev) : Nat := d.now / d.ivl + 4294967296

/-- R11: the epoch that a 32-bit field names, placed against another: newer than it by at most 2^31 - 1, or else older. -/
def epochFrom (base e : Nat) : Nat := ((base : Int) + signed 32 ((e + 4294967296 - base % 4294967296) % 4294967296)).toNat

/-- The epoch that a 32-bit field names: the one nearest to the current. -/
def Dev.wholeEpoch (d : Dev) (e : Nat) : Nat := epochFrom d.curEpoch e

/-- R181, R183: a copy's floor. A copy that started empty shows the floor of the running epoch before its first commit boundary
too, not the reset value of HEAT_EPOCH.FLOOR: DESIGN CHOICE (log 138). -/
def Dev.floorOf (d : Dev) (h : Heat) : Nat := max h.floorMin (d.curEpoch + 1 - d.ix.pre.retain)

/-! ## Records and their places (R165 to R169, R200) -/

def Heat.recSize (h : Heat) : Nat := codeBytes h.code + 8 + 4 * h.degree
def Heat.perTile (h : Heat) : Nat := 65536 / h.recSize
def Heat.stackOf (h : Heat) (l : Nat) : Nat := (l + h.number) % 8
def Heat.tileOf (h : Heat) (l : Nat) : Nat := heatTile h.number (h.stackOf l) (l / 8 / h.perTile)
def Heat.tilesPerStack (h : Heat) : Nat := ceilDiv (h.cap / 8) h.perTile

/-- R200: the local IDs below U are pinned. -/
def Heat.upper (h : Heat) : Nat := 8 * h.perTile * (h.pinned / 524288)

/-- R165: a global ID. -/
def globalId (heat l : Nat) : Nat := heat * 2 ^ 30 + l

/-- A tile never written holds zeros (R386): its records have code 0, ATTR 0 and D references to local ID 0. -/
def Heat.blank (h : Heat) : LaneRec := { code := fill (codeBytes h.code) 0, attr := 0, adj := List.replicate h.degree 0 }

def Heat.lane (h : Heat) (l : Nat) : LaneRec := (Tab.find h.recs l).getD h.blank

/-- R168: a reference that the Walk engines follow. -/
def Heat.refOk (h : Heat) (r : Nat) : Bool := r < 2 ^ 30 && r < h.cap

/-- R168: the references up to the first empty slot or bad reference, and whether a bad one ended the list. -/
def Heat.refs (h : Heat) : List Nat → List Nat × Bool
  | [] => ([], false)
  | r :: rest =>
    if r = 0xFFFFFFFF then ([], false)
    else if !h.refOk r then ([], true)
    else let (l, b) := Heat.refs h rest; (r :: l, b)

/-- R247: tombstone bit l is 0 only while its slot holds a merged item that no applied delete has reached. -/
def Heat.tomb (h : Heat) (l : Nat) : Bool := !(Tab.get false h.merged l && !Tab.get false h.dead l)

/-- R245: the newest side-list slot of a local ID. -/
def Heat.slotOf (h : Heat) (l : Nat) : Option Nat := (h.side.filter fun p => p.2.lid == l).getLast?.map (·.1)

/-- Table 10.5; `side` is the slot that a side-list batch found. An index entry concerns the item that its slot names, so
that an item inserted anew is not hidden by the entry of the one before it (R179, R186). -/
def Heat.seen_ (h : Heat) (side : Option Nat) (l e : Nat) : Bool :=
  if side.isSome then
    !(h.rui.any fun x => x.lid == l && x.slot == side && x.kind == 0 && e < x.epoch)
      && !(h.rui.any fun x => x.lid == l && x.slot == side && x.kind == 1 && x.epoch ≤ e)
  else if !h.tomb l then true
  else h.rui.any fun x => x.lid == l && x.kind == 1 && x.merged && e < x.epoch

/-! ## Lookups -/

/-- The entry index of a heat hosted here. -/
def Dev.heatIdx (d : Dev) (n : Nat) : Option Nat := (d.ix.heats.find? fun p => p.2.number == n).map (·.1)
def Dev.heat (d : Dev) (i : Nat) : Option Heat := Tab.find d.ix.heats i
def Dev.updHeat (d : Dev) (i : Nat) (f : Heat → Heat) : Dev := d.setIx fun x => { x with heats := Tab.upd x.heats i f }

/-- The roles of the meet's heats; on a node without a meet each hosted heat has its primary here. -/
def Dev.roleOf (d : Dev) (n : Nat) : Option Role :=
  if d.mt.on then Tab.find d.mt.roles n
  else (d.heatIdx n).map fun _ => { primary := some d.mt.slot, busy := false, serving := [d.mt.slot] }

/-- R245, R248: a side-list batch of a copy that closed under an earlier pause number and is still under way. -/
def Dev.batchBefore (d : Dev) (i pauseNo : Nat) : Bool :=
  d.ix.batches.any fun p => p.2.side && p.2.heat == i && p.2.closed && newer 32 pauseNo p.2.pauseNo

/-- R245: the head advances over retired entries that no batch needs; by fuel. -/
def Dev.advanceHead : Nat → Dev → Nat → Dev
  | 0, d, _ => d
  | f + 1, d, i =>
    match d.heat i with
    | none => d
    | some h =>
      let gone := match Tab.find h.side h.head with
        | some x => x.retired != 0 && !d.batchBefore i x.retired
        | none => true
      if h.head < h.tail && gone then
        Dev.advanceHead f (d.updHeat i fun h => { h with side := Tab.del h.side h.head, head := h.head + 1 }) i
      else d

/-! ## Outcomes (R240, R470) -/

/-- What an OUTCOME frame carries. -/
def outcomeBytes (id status commit result : Nat) : Bytes :=
  le 8 id ++ le 1 status ++ le 3 0 ++ le 4 commit ++ le 8 result

/-- The admitting node completes an update. -/
def Dev.outcomeHere (d : Dev) (id status result : Nat) : Dev :=
  match Tab.find d.ix.sentUpd id with
  | none => d
  | some (r, _, _) =>
    let d := d.setIx fun x => { x with sentUpd := Tab.del x.sentUpd id }
    (d.updReq r fun q => { q with joined := false }).complete r status result

/-- The primary answers an update, and keeps its outcome for RETAIN epochs (R470). -/
def Dev.outcome (d : Dev) (i id status commit result : Nat) : Dev :=
  let d := d.updHeat i fun h =>
    { h with seen := (id, d.curEpoch, status, result) :: h.seen.filter fun x => x.1 != id && d.curEpoch < x.2.1 + d.ix.pre.retain }
  if id % 256 = d.mt.slot then d.outcomeHere id status result
  else d.relaySend (id % 256) K_OUTCOME (outcomeBytes id status (commit % 4294967296) result)

/-! ## Updates at the primary (R184, R185, R241, R246, R248) -/

/-- Every update that waits in a group of the primary, oldest first. -/
def Heat.pending (h : Heat) : List Upd := (h.closed.flatMap (·.upds)) ++ h.opens.flatMap (·.upds)

/-- R178, R241: updates join the open group of an epoch: behind its arrivals, or ahead of them where they come from the
group before. -/
def Heat.join (h : Heat) (e : Nat) (ahead : Bool) (us : List Upd) : Heat :=
  if h.opens.any fun g => g.epoch == e then
    { h with opens := h.opens.map fun g =>
        if g.epoch == e then { g with upds := if ahead then us ++ g.upds else g.upds ++ us } else g }
  else { h with opens := insertBy (fun a b => a.epoch < b.epoch) { epoch := e, upds := us } h.opens }

/-- Table 07.6: the state of a local ID with the pending updates. -/
def Heat.stateOf (h : Heat) (l : Nat) : Nat :=
  h.pending.foldl (fun s u => if u.lid = l then (if u.kind = 0 then 1 else 2) else s) (Tab.get 0 h.st l)

/-- R184, R246, R248: the judgement of an update: none where it joins the group. -/
def Heat.judge (h : Heat) (u : Upd) : Option (Nat × Nat) :=
  let s := h.stateOf u.lid
  let full := h.rui.length + h.pending.length ≥ 65536
  let sideFull := h.tail - h.head + (h.pending.filter fun x => x.kind == 0).length ≥ h.sideCap
  if u.lid ≥ h.cap then some (ST_BAD_DESC, 0)
  else if u.kind = 0 then
    if s != 0 then some (ST_REFUSED_RESOURCE, 5)
    else if full then some (ST_REFUSED_RESOURCE, 6)
    else if sideFull then some (ST_REFUSED_RESOURCE, 7)
    else none
  else if s != 1 then some (ST_OK, 1)
  else if full then some (ST_REFUSED_RESOURCE, 6)
  else none

/-- An update reaches the primary (R178, R241, R470): a repeated ID gets its first outcome. One that comes before the copy
starts waits for its first commit boundary (R183): DESIGN CHOICE (log 112). -/
def Dev.arrive (d : Dev) (i : Nat) (u : Upd) : Dev :=
  match d.heat i with
  | none => d
  | some h =>
    match h.seen.find? fun x => x.1 == u.id with
    | some (_, _, st, res) =>
      if u.id % 256 = d.mt.slot then d.outcomeHere u.id st res
      else d.relaySend (u.id % 256) K_OUTCOME (outcomeBytes u.id st 0 res)
    | none =>
      if ((h.early ++ h.pending).any fun x => x.id == u.id) || (h.dones.any fun g => g.upds.any fun x => x.id == u.id) then d
      else if u.req.any fun r => !d.liveJob r then d
      else if !h.started then d.updHeat i fun h => { h with early := h.early ++ [u] }
      else
        match h.judge u with
        | some (st, res) =>
          let d := if st = ST_REFUSED_RESOURCE && res = 5 then d.bump .HEAT_REFUSED_COUNT 1 i
            else if st = ST_REFUSED_RESOURCE && res = 6 then d.bump .SIDE_RUIFULL_COUNT 1 i
            else if st = ST_REFUSED_RESOURCE && res = 7 then d.bump .SIDE_FULL_COUNT 1 i
            else d
          d.outcome i u.id st 0 res
        | none =>
          let d := match u.req with
            | some r => d.updReq r fun q => { q with joined := true }
            | none => d
          d.updHeat i fun h => h.join d.joinEpoch false [u]

/-- A copy starts: its updates that waited arrive. -/
def Dev.openHeat (d : Dev) (i : Nat) (f : Heat → Heat) : Dev :=
  match d.heat i with
  | none => d
  | some h => h.early.foldl (fun d u => d.arrive i u) (d.updHeat i fun h => { f h with started := true, early := [], empty := false })

/-- R183: the first commit boundary after the APPLYING that started a copy empty. -/
def Dev.firstBoundary (d : Dev) (h : Heat) : Nat := (h.bornAt / d.ivl + 1) * d.ivl

/-- R183: an empty copy, primary or replica, takes the epoch of R177 at its first commit boundary, and its floor becomes that
epoch. -/
def Dev.startEmpty (d : Dev) (i : Nat) : Dev :=
  match d.heat i with
  | none => d
  | some h =>
    if h.started || !h.empty || d.now < d.firstBoundary h then d
    else
      let e := { d with now := d.firstBoundary h }.curEpoch
      d.openHeat i fun h => { h with applied := e, floorMin := e }

/-! ## The work reserve (R382, R383) -/

/-- Staged inserts, in slot order: slot, local ID, code, ATTR, list. -/
def Heat.stagedIns (h : Heat) : List (Nat × Nat × Bytes × Nat × List Nat) :=
  h.stage.lists.filterMap fun p => (Tab.find h.side p.1).map fun x => (p.1, x.lid, x.code, x.attr, p.2)

/-- The tiles that a pause writes. -/
def Heat.pauseTiles (h : Heat) : List Nat :=
  ((h.stagedIns.map fun p => h.tileOf p.2.1) ++ h.stage.links.map fun p => h.tileOf p.1).eraseDups

/-- Tiles of the work reserve that staging holds: those that the pause will write, and one for each item that has none yet: DESIGN
CHOICE (log 149). -/
def Heat.stageTiles (h : Heat) : Nat :=
  if h.stage.made then h.pauseTiles.length else h.stage.builds.length + h.stage.lists.length

/-- R347: tiles of the work reserve that step buffers hold. -/
def Dev.stepTiles (d : Dev) : Nat :=
  ceilDiv (sum ((Tab.vals d.em.tables).map fun t => sum (t.steps.map fun s => sum (s.changes.map fun c => c.data.length)))) 65536

/-- R382, R400: tiles of the work reserve in use: staging, step buffers, a tile for each migration in progress. -/
def Dev.workUsed (d : Dev) : Nat := sum ((Tab.vals d.ix.heats).map Heat.stageTiles) + d.stepTiles + (d.em.migs.filter fun p => !p.2.tail).length

/-- R383: whether the work reserve holds n tiles more. -/
def Dev.workRoom (d : Dev) (n : Nat) : Bool := d.workUsed + n ≤ d.rg .TIER_WORK_TILES

/-! ## Applying a group (R243) -/

/-- R248: an index entry stays while its commit epoch is newer than the floor; that of a delete also while the side-list
entry of its item is live, or was retired under a pause number that a live side-list batch has not reached. -/
def Heat.pruneRui (h : Heat) (floor : Nat) (before : Nat → Bool) : Heat :=
  let holds (x : Rui) : Bool := match x.slot with
    | some a => match Tab.find h.side a with
      | some y => y.lid == x.lid && (y.retired == 0 || before y.retired)
      | none => false
    | none => false
  { h with rui := h.rui.filter fun x => floor < x.epoch || (x.kind == 1 && holds x) }

/-- R248: the index entries of a copy that may go leave. -/
def Dev.pruneHeat (d : Dev) (i : Nat) : Dev := d.updHeat i fun h => h.pruneRui (d.floorOf h) (d.batchBefore i)

/-- An index entry of an update, and the slot that the next insert of the group takes. -/
def Heat.ruiOf (h : Heat) (epoch : Nat) (acc : List Rui × Nat) (u : Upd) : List Rui × Nat :=
  if u.kind = 0 then (acc.1 ++ [{ lid := u.lid, kind := 0, epoch := epoch, merged := false, slot := some acc.2 }], acc.2 + 1)
  else
    let now_ := (acc.1.filter fun x => x.lid == u.lid && x.kind == 0 && x.slot.isSome).getLast?.bind (·.slot)
    (acc.1 ++ [{ lid := u.lid, kind := 1, epoch := epoch, merged := now_.isNone && !h.tomb u.lid, slot := now_.or (h.slotOf u.lid) }], acc.2)

/-- A copy applies a group: index entries, tombstones, side list, applied epoch, in that order. -/
def Heat.apply (h : Heat) (epoch floor : Nat) (before : Nat → Bool) (upds : List Upd) : Heat :=
  let h := { h with rui := h.rui ++ (upds.foldl (h.ruiOf epoch) ([], h.tail)).1 }
  let h := upds.foldl (fun h u => { h with
    st := Tab.put 0 h.st u.lid (if u.kind = 0 then 1 else 2)
    dead := if u.kind != 0 && Tab.get false h.merged u.lid then Tab.ins h.dead u.lid true else h.dead }) h
  let h := upds.foldl (fun h u =>
    if u.kind = 0 then
      { h with side := Tab.ins h.side h.tail { lid := u.lid, retired := 0, code := u.code, attr := u.attr }, tail := h.tail + 1 }
    else h) h
  { h with applied := epoch, started := true }.pruneRui floor before

/-- Bytes of a group's journal record, as GROUP carries it (Table 19.9). -/
def groupBytes (heat epoch : Nat) (upds : List Upd) : Bytes :=
  le 2 heat ++ le 2 0 ++ le 4 epoch ++ le 4 upds.length ++ le 4 0 ++
  (upds.map fun u => le 8 u.id ++ le 1 u.kind ++ le 3 0 ++ le 4 u.lid ++ le 8 u.attr ++ (if u.kind = 0 then u.code else [])).flatten

/-- The updates of a GROUP payload; by the count it names. -/
def readUpds (cb : Nat) : Nat → Bytes → List Upd
  | 0, _ => []
  | n + 1, b =>
    let k := u8 b 8
    let len := 24 + (if k = 0 then cb else 0)
    { id := u64 b 0, kind := k, lid := u32 b 12, attr := u64 b 16, code := if k = 0 then sub b 24 cb else [], req := none }
      :: readUpds cb n (b.drop len)

/-- Reserved bytes and bits of the updates of a GROUP payload (Table 19.9). -/
def updsOk (cb : Nat) : Nat → Bytes → Bool
  | 0, _ => true
  | n + 1, b => u8 b 7 = 0 && u8 b 8 ≤ 1 && zeros b 9 3 && updsOk cb n (b.drop (24 + (if u8 b 8 = 0 then cb else 0)))

/-- R243: the journal record that a copy writes; tiles of 64 KiB. -/
def Dev.journalGroup (d : Dev) (h : Heat) (epoch : Nat) (upds : List Upd) : Dev :=
  let n := max 1 (ceilDiv (groupBytes h.number epoch upds).length 65536)
  d.program (.groupJournal h.number epoch) none n (groupBytes h.number (epoch % 4294967296) upds) false

/-- The journal program of a group has ended (R242): the record stands in the journal, where the group that it holds is
still to commit here or has been applied. -/
def Dev.groupDurable (d : Dev) (number epoch : Nat) (o : FOp) : Dev :=
  match d.heatIdx number with
  | none => d
  | some i =>
    match d.heat i with
    | none => d
    | some h =>
      let us := readUpds (codeBytes h.code) (u32 o.data 8) (o.data.drop 16)
      let j : JRec := { heat := number, epoch := epoch, upds := us.map fun u => (u.kind, u.lid, u.attr, u.code), tiles := o.tiles
                        target := o.target, blk := o.blk }
      let same (g : Group) : Bool := g.epoch == epoch && groupBytes number (epoch % 4294967296) g.upds == o.data
      let due := h.owed.contains epoch || h.closed.any same
      let d : Dev := if due then { d with fl := { d.fl with journal := d.fl.journal ++ [j] } } else d
      d.updHeat i fun h => { h with owed := h.owed.filter (· != epoch)
                                    closed := h.closed.map fun g => if same g then { g with durable := true } else g }

/-- R243: whether a copy's journal must still hold an update: an insert not yet merged or discarded with every tile that its
merge wrote home, a delete not yet reclaimed. -/
def Heat.needs (h : Heat) (kind lid : Nat) : Bool :=
  if kind = 0 then (h.side.any fun p => p.2.lid == lid && p.2.retired == 0)
      || (Tab.get false h.merged lid && !(Tab.get [] h.unhomed lid).isEmpty)
  else Tab.get 0 h.st lid = 2 || (Tab.get false h.merged lid && Tab.get false h.dead lid)

/-- R243: the updates of an applied record that are done with. -/
def JRec.settled (j : JRec) (h : Heat) : JRec :=
  let gone := (List.zip (List.range j.upds.length) j.upds).filter fun p => !(h.needs p.2.1 p.2.2.1)
  { j with done := (j.done ++ gone.map (·.1)).eraseDups }

/-- R243: journal records that nothing needs any more leave. -/
def Dev.trimJournal (d : Dev) (i : Nat) : Dev :=
  match d.heat i with
  | none => d
  | some h =>
    let mine (j : JRec) : Bool := j.heat == h.number && j.epoch ≤ h.applied
    let js := d.fl.journal.map fun j => if mine j then j.settled h else j
    { d with fl := { d.fl with journal := js.filter fun j => !mine j || decide (j.done.length < j.upds.length) } }

/-! ## Groups at the primary (R241, R242, R474, R475) -/

/-- Live replicas of a heat, other than this node (R474). A copy byte of 0xFF names no slot, not slot 255: DESIGN CHOICE (log
137). -/
def Dev.liveReplicas (d : Dev) (h : Heat) : List Nat :=
  if !d.mt.on then []
  else (h.copies.filter fun s => s != 0xFF && s != d.mt.slot && d.memberLive s).eraseDups

/-- R474: no beacon for 200 µs. -/
def Dev.silent (d : Dev) : Bool := d.mt.on && !d.isHolder && d.mt.beaconAt + 200000 ≤ d.now

/-- R475: outcomes of committed groups whose COMMITs every live replica has acknowledged. -/
def Dev.settleDones (d : Dev) (i : Nat) : Dev :=
  match d.heat i with
  | none => d
  | some h =>
    let open_ (g : Done) : Bool := g.acks.any fun a =>
      d.memberLive (a / 2 ^ 40) && (d.peer (a / 2 ^ 40)).unacked.any fun u => u.kind == K_COMMIT && u.seq == a % 2 ^ 40
    let ready := h.dones.filter fun g => !open_ g
    let d := d.updHeat i fun h => { h with dones := h.dones.filter open_ }
    ready.foldl (fun d g => g.upds.foldl (fun d u => d.outcome i u.id ST_OK g.epoch 0) d) d

/-- COMMIT to the replicas; the answers that are awaited. -/
def Dev.sendCommit (d : Dev) (h : Heat) (epoch : Nat) (empty : Bool) : List Nat × Dev :=
  (d.liveReplicas h).foldl (fun (acc : List Nat × Dev) s =>
    let seq := (acc.2.peer s).next
    (acc.1 ++ [s * 2 ^ 40 + seq],
     acc.2.relaySend s K_COMMIT (le 2 h.number ++ le 1 (ofBool empty) ++ le 1 0 ++ le 4 (epoch % 4294967296)))) ([], d)

/-- R483: whether the copy on this node orders the group of an epoch. -/
def Heat.orders (h : Heat) (slot e : Nat) : Bool :=
  match h.handoff with
  | some (k, s) => if s = slot then k < e else h.role = 0 && e ≤ k
  | none => h.role = 0

/-- R483: the slot to which this primary has handed a heat over, from its boundary on. -/
def Dev.handedTo (d : Dev) (h : Heat) : Option Nat :=
  match h.handoff with
  | some (k, s) => if s != d.mt.slot && k ≤ d.now / d.ivl + 4294967296 then some s else none
  | none => none

/-- R241: a group with updates is journalled and sent to every live replica. -/
def Dev.launchGroup (d : Dev) (i : Nat) (h : Heat) (k : Nat) (us : List Upd) : Dev :=
  let rs := if us.isEmpty then [] else d.liveReplicas h
  let g : Group := { epoch := k, closed := true, upds := us, durable := us.isEmpty, acks := rs }
  let d := d.updHeat i fun h => { h with closed := insertBy (fun a b => a.epoch < b.epoch) g (h.closed.filter fun x => x.epoch != k) }
  let d := if us.isEmpty then d else d.journalGroup h k us
  rs.foldl (fun d s => d.relaySend s K_GROUP (groupBytes h.number (k % 4294967296) us)) d

/-- R241: the updates of a group that closed below the NV bar complete. -/
def Dev.nvGroup (d : Dev) (i : Nat) (us : List Upd) : Dev :=
  ((us.foldl (fun d u => d.outcome i u.id ST_NV_BLOCKED 0 0) d).bump .SIDE_NVBLK_COUNT us.length i).bump .FTL_NVBLK_COUNT us.length

/-- COMMIT_GROUP_CLOSE at k × I (R178, R183, R241). Updates whose journal no target could take complete with RESULT 7 (R421). -/
def Dev.groupClose (d : Dev) (i : Nat) : Dev :=
  let d := d.startEmpty i
  match d.heat i with
  | none => d
  | some h =>
    let k := d.boundary
    if d.now % d.ivl != 0 || !h.orders d.mt.slot k || (d.mt.on && !(d.inMeet && d.synced)) then d
    else if !h.started then
      if h.empty then d else d.openHeat i fun h => { h with applied := d.curEpoch }
    else
      let us := (h.opens.filter fun g => g.epoch ≤ k).flatMap (·.upds)
      let d := d.updHeat i fun h => { h with opens := h.opens.filter fun g => k < g.epoch }
      if d.rg .FTL_SUPPLY_NVLOW = 1 then
        let d := (d.nvGroup i us).bump .SIDE_EMPTY_COUNT 1 i
        d.updHeat i fun h => { h with closed := h.closed ++ [{ epoch := k, closed := true, durable := true, nv := true }] }
      else if (d.writables false).isEmpty then
        (us.foldl (fun d u => d.outcome i u.id ST_REFUSED_RESOURCE 0 7) d).launchGroup i h k []
      else d.launchGroup i h k us

/-- R178, R241: the updates of a group that cannot commit join the next group, ahead of its arrivals. Where that one has
closed too (P not below I), it is journalled and sent anew with them; below the NV bar, where no program starts (R426), they end. -/
def Dev.groupMoves (d : Dev) (i : Nat) (g : Group) : Dev :=
  let d := if g.nv then d else d.bump .SIDE_EMPTY_COUNT 1 i
  match d.heat i with
  | none => d
  | some h =>
    if g.upds.isEmpty then d
    else match h.closed.find? fun x => x.epoch == g.epoch + 1 with
      | some c => if c.nv || d.rg .FTL_SUPPLY_NVLOW = 1 then d.nvGroup i g.upds else d.launchGroup i h c.epoch (g.upds ++ c.upds)
      | none => d.updHeat i fun h => h.join (g.epoch + 1) true g.upds

/-- One closed group is published: committed, or empty. -/
def Dev.publishOne (d : Dev) (i e : Nat) : Dev :=
  match d.heat i with
  | none => d
  | some h =>
    match h.closed.find? fun g => g.epoch == e with
    | none => d
    | some g =>
      let acked := g.acks.all fun s => !d.memberLive s
      let d := d.updHeat i fun h => { h with closed := h.closed.filter fun x => x.epoch != e }
      if g.durable && acked && !d.silent then
        let d := d.updHeat i fun h => h.apply e (d.floorOf h) (d.batchBefore i) g.upds
        let (acks, d) := d.sendCommit h e g.upds.isEmpty
        let d := if g.upds.isEmpty then d else d.updHeat i fun h => { h with dones := h.dones ++ [{ epoch := e, upds := g.upds, acks := acks }] }
        d.settleDones i
      else
        let d := d.groupMoves i g
        let d := d.updHeat i fun h => h.apply e (d.floorOf h) (d.batchBefore i) []
        let d : Dev := { d with fl := { d.fl with journal := d.fl.journal.filter fun j => !(j.heat == h.number && j.epoch == e) } }
        (d.sendCommit h e true).2

/-- COMMIT_GROUP_PUBLISH at k × I + P (R178, R241). -/
def Dev.groupPublish (d : Dev) (i : Nat) : Dev :=
  match d.heat i with
  | none => d
  | some h =>
    let k := (d.now - d.pub) / d.ivl + 4294967296
    let (top, ready, ends) := match h.handoff with
      | some (hk, s) => if s = d.mt.slot then (k, decide (hk ≤ h.applied), decide (hk ≤ h.applied)) else (min k hk, true, decide (hk ≤ k))
      | none => (k, true, false)
    if d.now < d.pub || (d.now - d.pub) % d.ivl != 0 || h.role != 0 || !h.started || !ready then d
    else
      let due := (h.closed.filter fun g => g.epoch ≤ top).map (·.epoch)
      let d := due.foldl (fun d e => d.publishOne i e) d
      let d := d.updHeat i fun h => if h.applied < top then h.apply top (d.floorOf h) (d.batchBefore i) [] else h
      let d := if ends then d.updHeat i fun h =>
          { h with role := if (h.handoff.map (·.2)) = some d.mt.slot then 0 else 1, handoff := none } else d
      d.trimJournal i

/-- BEACON_SILENCE_COMMIT (R474): every group of a primary commits empty; the updates stay for the next group. -/
def Dev.silenceCommit (d : Dev) (i : Nat) : Dev :=
  match d.heat i with
  | none => d
  | some h =>
    if h.role != 0 then d
    else (h.closed.map (·.epoch)).foldl (fun d e =>
      match (d.heat i).bind fun h => h.closed.find? fun g => g.epoch == e with
      | none => d
      | some g =>
        let d := d.updHeat i fun h => { h with closed := h.closed.filter fun x => x.epoch != e }
        let d := d.groupMoves i g
        d.updHeat i fun h => if h.applied < e then h.apply e (d.floorOf h) (d.batchBefore i) [] else h) d

/-! ## Replicas (R242, R475) -/

/-- GROUP at a replica: it is kept and acknowledged. -/
def Dev.onGroup (d : Dev) (src : Nat) (b : Bytes) : Dev :=
  match d.heatIdx (u16 b 0) with
  | none => d
  | some i =>
    match d.heat i with
    | none => d
    | some h =>
      let e := d.wholeEpoch (u32 b 4)
      let g : Group := { epoch := e, closed := true, upds := readUpds (codeBytes h.code) (u32 b 8) (b.drop 16) }
      let d := d.updHeat i fun h => { h with recv := h.recv.filter (fun x => x.epoch != e) ++ [g] }
      d.relaySend src K_GROUP_ACK (le 2 h.number ++ le 2 0 ++ le 4 (e % 4294967296))

/-- GROUP_ACK at the primary. -/
def Dev.onGroupAck (d : Dev) (src : Nat) (b : Bytes) : Dev :=
  match d.heatIdx (u16 b 0) with
  | none => d
  | some i =>
    let e := d.wholeEpoch (u32 b 4)
    d.updHeat i fun h => { h with closed := h.closed.map fun g =>
      if g.epoch == e then { g with acks := g.acks.filter (· != src) } else g }

/-- R242: a copy journals a group that it has applied. -/
def Dev.journalApplied (d : Dev) (i : Nat) (h : Heat) (epoch : Nat) (us : List Upd) : Dev :=
  if us.isEmpty then d
  else (d.updHeat i fun h => { h with owed := h.owed ++ [epoch] }).journalGroup h epoch us

/-- A replica commits an epoch: with the group it holds, or empty. -/
def Dev.replicaCommit (d : Dev) (i epoch : Nat) (empty : Bool) : Dev :=
  match d.heat i with
  | none => d
  | some h =>
    let us := if empty then [] else match h.recv.find? fun g => g.epoch == epoch with
      | some g => g.upds
      | none => []
    let d := d.updHeat i fun h => { (h.apply epoch (d.floorOf h) (d.batchBefore i) us) with recv := h.recv.filter fun g => epoch < g.epoch }
    d.journalApplied i h epoch us

/-- COMMIT at a replica; it is acknowledged as every reliable frame is. -/
def Dev.onCommit (d : Dev) (b : Bytes) : Dev :=
  match d.heatIdx (u16 b 0) with
  | none => d
  | some i =>
    let e := d.wholeEpoch (u32 b 4)
    match d.heat i with
    | some h =>
      let follows := h.role = 1 || (match h.handoff with | some (k, s) => s == d.mt.slot && e ≤ k | none => false)
      if follows && h.applied < e then d.replicaCommit i e (u8 b 2 = 1) else d
    | none => d

/-! ## Forwarding (R240, R477) -/

/-- An UPDATE payload (Table 19.9). -/
def updateBytes (id bib gen : Nat) (desc code : Bytes) : Bytes :=
  le 8 id ++ le 2 bib ++ le 2 gen ++ le 1 (u8 desc 0) ++ le 3 0 ++ sub desc 0x10 48 ++ code

/-- The update of a descriptor or of an UPDATE payload. -/
def readUpd (id op : Nat) (pay code : Bytes) (req : Option Nat) : Upd :=
  { id := id, kind := if op = 0x18 then 0 else 1, lid := u32 pay 4, attr := if op = 0x18 then u64 pay 8 else 0
    code := code, req := req }

/-- R240, R477: an admitted update goes to the heat's primary; from its sending over Relay on it counts as one that has
joined a group, since nothing recalls it: DESIGN CHOICE (log 113); during a takeover it is held; without a primary it
completes with ST_FENCED. -/
def Dev.forwardUpd (d : Dev) (r : Nat) : Dev :=
  match Tab.find d.reqs r with
  | none => d
  | some q =>
    let heat := u16 q.desc 0x10
    match d.roleOf heat with
    | none => d.complete r ST_REFUSED_RESOURCE 8
    | some role =>
      if role.busy then d.setIx fun x => { x with held := x.held ++ [(heat, r)] }
      else
        let here := ((d.heatIdx heat).bind d.heat).bind d.handedTo
        match (if role.primary = some d.mt.slot then here.or role.primary else role.primary) with
        | none => d.complete r ST_FENCED
        | some s =>
          let id := d.mt.slot + d.ix.updSeq * 256
          let d := d.setIx fun x => { x with updSeq := x.updSeq + 1, sentUpd := Tab.ins x.sentUpd id (r, heat, s) }
          let op := u8 q.desc 0
          if s = d.mt.slot then
            match d.heatIdx heat with
            | none => d.outcomeHere id ST_REFUSED_RESOURCE 8
            | some i =>
              let cb := match d.heat i with | some h => codeBytes h.code | none => 0
              d.arrive i (readUpd id op (sub q.desc 0x10 48) (q.buf.take cb) (some r))
          else (d.updReq r fun q => { q with joined := true }).relaySend s K_UPDATE
            (updateBytes id (q.bib.getD 0) q.gen q.desc (if op = 0x18 then q.buf else []))

/-- UPDATE at the primary; a node that is not the primary any more forwards it (R483). -/
def Dev.onUpdate (d : Dev) (b : Bytes) : Dev :=
  let heat := u16 b 0x10
  match d.heatIdx heat with
  | none => d
  | some i =>
    match d.heat i with
    | none => d
    | some h =>
      if h.role = 0 && (d.handedTo h).isNone then
        d.arrive i (readUpd (u64 b 0) (u8 b 0xC) (sub b 0x10 48) (sub b 0x40 (codeBytes h.code)) none)
      else
        match (d.handedTo h).or ((d.roleOf heat).bind (·.primary)) with
        | some s => if s = d.mt.slot then d else d.relaySend s K_UPDATE b
        | none => d

/-- OUTCOME at the admitting node. -/
def Dev.onOutcome (d : Dev) (b : Bytes) : Dev := d.outcomeHere (u64 b 0) (u8 b 8) (u64 b 0x10)

/-- R477: ROLES is installed: updates forwarded to a lost primary end with ST_TIMEOUT, held ones go on. -/
def Dev.afterRoles (d : Dev) : Dev :=
  let lost := d.ix.sentUpd.filter fun p => (match Tab.find d.mt.members p.2.2.2 with | some m => m.state == 1 | none => false)
    && match d.roleOf p.2.2.1 with | some x => !x.busy && x.primary != some p.2.2.2 | none => true
  let d := lost.foldl (fun d p => d.outcomeHere p.1 ST_TIMEOUT 0) d
  let l := d.ix.held.filter fun p => match d.roleOf p.1 with | some x => !x.busy | none => true
  let d := d.setIx fun x => { x with held := x.held.filter fun p => !l.contains p }
  l.foldl (fun d p => d.forwardUpd p.2) d

/-! ## INSERT and DELETE as admitted (R239, R240) -/

/-- Bytes of a code to read: the heat's width where it is hosted here, else the widest; the primary takes what its heat
has (DESIGN CHOICE, log 46). -/
def Dev.updCodeLen (d : Dev) (heat : Nat) : Nat :=
  match (d.heatIdx heat).bind d.heat with
  | some h => codeBytes h.code
  | none => 256

/-- INSERT or DELETE is admitted: its checks, then the code is read, or the update goes on. -/
def Dev.updateAdmit (d : Dev) (r : Nat) (q : Req) : Dev :=
  let ins := u8 q.desc 0 = 0x18
  let heat := u16 q.desc 0x10
  let high := match (d.heatIdx heat).bind d.heat with | some h => decide (h.cap ≤ u32 q.desc 0x14) | none => false
  let bad := !payloadOk (if ins then [(0x10, 2), (0x14, 20)] else [(0x10, 2), (0x14, 4)]) q.desc || heat > 1023 || high
    || (ins && u64 q.desc 0x20 % 64 != 0)
  let kind0 := match d.part q.part with | some p => p.kind == 0 | none => false
  d.checked r (failIf bad ST_BAD_DESC ++ failIf d.meetFenced ST_FENCED
      ++ failIf (!kind0 || (d.roleOf heat).isNone) ST_REFUSED_RESOURCE 8) fun d =>
    if ins then d.dmaRead r 0 (u64 q.desc 0x20) (d.updCodeLen heat) else d.forwardUpd r

end Sys2Proof.Machine
end

