-- ==== Sys2Proof/Machine/Walk.lean ====
section
/-!
DEFINITION. Shard queries on their Walk engines, the Pack coalescer, and the Stride engines that serve walk groups and
scan batches (spec files 08, 09; the side-list batches of file 10).
-/
namespace Sys2Proof.Machine

/-! ## Lookups -/

def Dev.sq (d : Dev) (n : Nat) : Option SQ := Tab.find d.ix.sqs n
def Dev.updSq (d : Dev) (n : Nat) (f : SQ → SQ) : Dev := d.setIx fun x => { x with sqs := Tab.upd x.sqs n f }
def Dev.batch (d : Dev) (n : Nat) : Option Batch := Tab.find d.ix.batches n
def Dev.updBatch (d : Dev) (n : Nat) (f : Batch → Batch) : Dev := d.setIx fun x => { x with batches := Tab.upd x.batches n f }
def Dev.engine (d : Dev) (e : Nat) : Engine := Tab.get ({} : Engine) d.ix.engines e
def Dev.setEngine (d : Dev) (e : Nat) (v : Engine) : Dev := d.setIx fun x => { x with engines := Tab.ins x.engines e v }
def Dev.engFenced (d : Dev) (e : Nat) : Bool := d.isFenced 0x31 e || d.isFenced 0x30 (e / 16)

/-- R214: the Walk engines of a partition; its lowest one gives the values in force. -/
def Dev.walksOf (d : Dev) (p : Nat) : List Nat :=
  match d.part p with
  | some x => (List.range 32).filter fun w => bit x.walk w
  | none => []

def Dev.wlkInst (d : Dev) (p : Nat) : Nat := (d.walksOf p).headD 0

/-- A shard query ends without a list: its copy has failed (R180, R198, R235). Stage 5 tells the search so. -/
def Dev.failSq (d : Dev) (n st : Nat) : Dev :=
  match d.sq n with
  | none => d
  | some s =>
    if s.stage ≥ 4 then d
    else
      let d := match s.list with | some l => d.dropList l | none => d
      d.updSq n fun s => { s with stage := 5, status := st, list := none, flying := [] }

/-! ## Batches: joining and closing (R225, R250) -/

/-- Tiles, or slots, that an engine scans for a batch (R226, R250). -/
def Batch.units (b : Batch) (h : Heat) (e : Nat) : List Nat :=
  if b.side then
    ((List.range (b.tail - b.head)).map (b.head + ·)).filter fun a => let j := a % h.sideCap; 16 * (j % 8) + j / 8 % 16 = e
  else (List.range h.tilesPerStack).filter fun t => t % 16 = e % 16

/-- The number of a unit of an engine. -/
def unitKey (e u : Nat) : Nat := e * 2 ^ 32 + u

/-- Units of an engine's share that it has not come to, in order. -/
def Batch.openUnits (b : Batch) (h : Heat) (e : Nat) : List Nat :=
  let done := Tab.get [] b.done e
  (b.units h e).filter fun u => !done.contains u && !b.sent.contains (unitKey e u) && !Tab.has b.noticed (unitKey e u)

/-- The local bib of a shard query, if it came from a request here. -/
def Dev.sqBib (d : Dev) (n : Nat) : Option Nat :=
  match d.sq n with
  | some s => match s.origin with
    | .here r _ => (Tab.find d.reqs r).bind (·.bib)
    | _ => none
  | none => none

/-- The bibs for which an engine works, as they join. -/
def addBib (b : Option Nat) (l : List Nat) : List Nat :=
  match b with
  | some x => if l.contains x then l else x :: l
  | none => l

/-- R221: the register file entry of a shard query. -/
def Dev.qent (d : Dev) (n : Nat) : QEnt :=
  match d.sq n with
  | some s => { code := s.code, filter := s.filter, ctx := n }
  | none => { code := [], filter := fill 80 0, ctx := n }

/-- R217, R230: an engine sends a return entry; KINDs 6 to 15 are reserved. -/
def Dev.sendRet (d : Dev) (e : Nat) (r : Ret) : Dev := d.bump .STR_RETURNS_COUNT (ofBool (r.kind < 6)) e

/-- The partition of a batch. -/
def Dev.batchPart (d : Dev) (n : Nat) : Option Nat := (d.batch n).map (·.part)

/-- R233: the partitions that the slice map names for an engine. -/
def Dev.namedAt (d : Dev) (e : Nat) : List Nat :=
  (((d.sliceMap.drop (e * 64)).take 64).map (·.toNat)).eraseDups.filter (· != 255)

/-- R233: a batch of a partition finds a place on an engine: a partition that the slice map names always does, a borrower only
beyond the places of those that it names. -/
def Dev.placeFree (d : Dev) (e part : Nat) : Bool :=
  let x := d.engine e
  let held := (x.live.toList ++ x.saved).filterMap d.batchPart
  let named := d.namedAt e
  named.contains part || held.length + (named.filter fun p => !held.contains p).length < 4

/-- R226: whether an engine comes to a tile that is not resident. -/
def Dev.absentTile (d : Dev) (h : Heat) (e t : Nat) : Bool :=
  let k := heatTile h.number (e / 16) t
  let first := 8 * (t * h.perTile) + (e / 16 + 8 - h.number % 8) % 8
  !(first < h.upper) && (match d.look k with | .miss => true | .lost => true | _ => false)

/-- R226: the tile that an engine has started, or that has arrived for it, stays resident until it has finished it. -/
def Dev.holdUnit (d : Dev) (n : Nat) (h : Heat) (e u : Nat) : Dev :=
  let k := heatTile h.number (e / 16) u
  if d.look k = .hit then
    (d.updTile k fun t => { t with holds := t.holds + 1 }).updBatch n fun b => { b with held := unitKey e u :: b.held }
  else d

def Dev.freeUnit (d : Dev) (n : Nat) (b : Batch) (h : Heat) (key : Nat) : Dev :=
  if b.held.contains key then
    (d.updTile (heatTile h.number (key / 2 ^ 32 / 16) (key % 2 ^ 32)) fun t => { t with holds := t.holds - 1 }).updBatch n fun b =>
      { b with held := b.held.filter (· != key) }
  else d

/-- R227: the lowest unit of an engine whose tile has been read for it. -/
def Batch.arrivedUnit (b : Batch) (e : Nat) : Option Nat :=
  (sortBy (· < ·) ((b.arrived.filter fun k => k / 2 ^ 32 == e).map (· % 2 ^ 32))).head?

/-- R226, R227: an engine comes to the next units of its live batch: first one that has arrived for it from the flash. It
starts one that is resident; one that is not it passes over with a miss notice. By fuel. -/
def Dev.come : Nat → Dev → Nat → Nat → Dev
  | 0, d, _, _ => d
  | f + 1, d, n, e =>
    match d.batch n with
    | none => d
    | some b =>
      match d.heat b.heat with
      | none => d
      | some h =>
        if Tab.has b.cur e then d
        else match b.arrivedUnit e, (b.openUnits h e).head? with
          | some u, _ => d.updBatch n fun b => { b with cur := Tab.ins b.cur e u }
          | none, none => d
          | none, some u =>
            if !b.side && d.absentTile h e u then
              Dev.come f ((d.sendRet e { kind := 3, slot := 0, lid := u }).updBatch n fun b => { b with sent := unitKey e u :: b.sent }) n e
            else
              let d := d.updBatch n fun b => { b with cur := Tab.ins b.cur e u }
              if b.side then d else d.holdUnit n h e u

/-- The engine goes on with its live batch, in a slice of its partition. -/
def Dev.engineOn (d : Dev) (e : Nat) : Dev :=
  let x := d.engine e
  match x.live with
  | none => d
  | some n =>
    match d.batch n with
    | none => d
    | some b =>
      if b.part != x.owner || x.guard || d.engFenced e then d
      else match d.heat b.heat with
        | some h => Dev.come ((b.units h e).length + 1) d n e
        | none => d

/-- R236: an engine holds work that it can do in the slice that it serves. -/
def Dev.busyAt (d : Dev) (e : Nat) : Bool :=
  let x := d.engine e
  let batch := match x.live.bind d.batch with
    | some b => b.part == x.owner && (Tab.has b.cur e || (b.arrivedUnit e).isSome)
    | none => false
  batch || (Tab.vals d.ix.groups).any fun g => g.running && g.engine == some e

/-- An engine has finished a record: its watchdog begins anew. -/
def Engine.fed (x : Engine) (now : Nat) : Engine := { x with since := now, acc := 0 }

/-- R236: an engine takes up work in its slice. What has gathered without a record is kept while it held other work. -/
def Dev.takesUp (d : Dev) (e : Nat) (x : Engine) : Engine :=
  let holds := x.live.isSome || !x.saved.isEmpty || (Tab.vals d.ix.groups).any fun g => g.running && g.engine == some e
  if d.busyAt e then x else if holds then { x with since := d.now } else x.fed d.now

/-- The next batch of its partition becomes live on an engine in a slice of that partition; a live batch of another one is
saved for it (R43, R225, R233). A batch that closes in mid-slice while a foreign one stands in the batch half has it saved at
once, outside any guard: DESIGN CHOICE (log 142). -/
def Dev.startBatch (d : Dev) (e : Nat) : Dev :=
  let x := d.engine e
  let mine (n : Nat) : Bool := d.batchPart n == some x.owner
  if x.guard || d.engFenced e then d
  else if x.live.any mine then d.engineOn e
  else
    let next := (x.saved.find? mine).or ((x.waiting.find? mine).filter fun _ => d.placeFree e x.owner)
    match next with
    | none => d
    | some n =>
      let d := if x.live.isSome then d.bump .STR_SUSPEND_COUNT 1 e else d
      let y := d.takesUp e x
      (d.setEngine e { y with live := some n, saved := x.saved.filter (· != n) ++ x.live.toList
                              waiting := x.waiting.filter (· != n) }).engineOn e

/-- A query of a batch: its scan part or its side-list part is done. -/
def Dev.partDone (d : Dev) (n : Nat) (side : Bool) : Dev :=
  d.updSq n fun s => if side then { s with sideDone := true } else { s with walkDone := true }

/-! ## The end of a shard query -/

def SQ.isBuild (s : SQ) : Bool := match s.origin with | .build _ => true | _ => false

/-- R181, R198: the floor of the copy has passed the query's epoch. A build walk is the one exception (R252). -/
def Dev.passed (d : Dev) (s : SQ) : Bool :=
  match d.heat s.heat with
  | some h => !s.isBuild && h.started && s.epoch < d.floorOf h
  | none => false

def Dev.staleSq (d : Dev) (n : Nat) (s : SQ) : Dev := (d.bump .HEAT_STALE_COUNT 1 s.heat).failSq n ST_STALE_EPOCH

/-- R205, R229: a shard query whose walk or scan and whose side-list scan have ended closes its list. -/
def Dev.settleSq (d : Dev) (n : Nat) : Dev :=
  match d.sq n with
  | none => d
  | some s =>
    if !(2 ≤ s.stage && s.stage ≤ 3) then d
    else if s.walkDone && s.sideDone then
      match s.list with
      | none => d
      | some l =>
        if d.passed s then d.staleSq n s
        else
          let gone := s.exhausted || s.missOut
          let d := if gone then d.bump .WLK_EXHAUST_COUNT 1 s.engine else d
          (d.closeList l 0).updSq n fun s => { s with stage := 4, status := if gone then ST_BUDGET_EXHAUSTED else ST_OK, exhausted := gone }
    else d

/-- R229: whether every engine has finished or skipped its units for a query of a batch. -/
def Batch.endedFor (b : Batch) (h : Heat) (q : Nat) : Bool :=
  let gone := b.ents.any fun y => y.ctx == q && y.missOut
  (List.range 128).all fun e => b.finished.contains e || (b.units h e).all fun u =>
    (Tab.get [] b.done e).contains u || match Tab.find b.noticed (unitKey e u) with
      | some l => !l.contains q
      | none => gone && b.sent.contains (unitKey e u)

/-- R229: the queries of a batch whose share has ended go on; a batch that every engine has left is over. -/
def Dev.settleBatch (d : Dev) (n : Nat) : Dev :=
  match d.batch n with
  | none => d
  | some b =>
    match d.heat b.heat with
    | none => d
    | some h =>
      if !b.closed then d
      else
        let ready := b.qs.filter fun q => (b.endedFor h q) && match d.sq q with
          | some s => if b.side then !s.sideDone else !s.walkDone
          | none => false
        let d := ready.foldl (fun d q => d.partDone q b.side) d
        let d := if b.finished.length < 128 then d
          else (Dev.advanceHead (b.tail - b.head) (d.setIx fun x => { x with batches := Tab.del x.batches n }) b.heat).pruneHeat b.heat
        ready.foldl Dev.settleSq d

/-- A batch goes, with the tiles that it kept resident and its places on the engines. -/
def Dev.dropBatch (d : Dev) (n : Nat) : Dev :=
  match d.batch n with
  | none => d
  | some b =>
    let d := match d.heat b.heat with
      | some h => b.held.foldl (fun (d : Dev) k => d.freeUnit n b h k) d
      | none => d
    let keep (m : Nat) : Bool := m != n
    d.setIx fun x => { x with
      batches := Tab.del x.batches n
      engines := Tab.mapV x.engines fun _ y => { y with live := y.live.filter keep, saved := y.saved.filter keep, waiting := y.waiting.filter keep } }

/-- R225, R236: a batch closes, takes its entries, and waits at every engine; a fenced engine cannot serve its share, so the
shard queries end with ST_INTERNAL. -/
def Dev.closeBatch (d : Dev) (n : Nat) : Dev :=
  match d.batch n with
  | none => d
  | some b =>
    if b.closed then d
    else
      match d.heat b.heat with
      | none => d
      | some h =>
        let b := { b with closed := true, head := h.head, tail := h.tail, pauseNo := h.pauseNo, ents := b.qs.map d.qent }
        let d := d.setIx fun x => { x with batches := Tab.ins x.batches n b }
        let all := List.range 128
        let dead := all.any fun e => d.engFenced e && !(b.units h e).isEmpty
        if dead then (b.qs.foldl (fun d q => d.failSq q ST_INTERNAL) d).dropBatch n
        else
          let (none_, some_) := all.partition fun e => (b.units h e).isEmpty
          let d := d.updBatch n fun b => { b with finished := none_ }
          let d := some_.foldl (fun d e =>
            let x := d.engine e
            (d.setEngine e { x with waiting := x.waiting ++ [n] }).startBatch e) d
          d.settleBatch n

/-- A shard query joins the open batch of its heat and partition, or opens one. SCANWIN is that of STK0 (log 47). -/
def Dev.joinBatch (d : Dev) (q heat part : Nat) (side : Bool) : Dev :=
  let win := if side then d.rg .SIDE_CFG2_WIN heat else d.rg .STK_CFG_SCANWIN 0
  let (n, d) := match d.ix.batches.find? fun p => p.2.side == side && p.2.heat == heat && p.2.part == part && !p.2.closed with
    | some p => (p.1, d)
    | none =>
      let (n, d) := d.newId
      (n, d.setIx fun x => { x with batches := Tab.ins x.batches n { side := side, heat := heat, part := part, qs := [], opened := d.now } })
  let d := d.updBatch n fun b => { b with qs := b.qs ++ [q], bibs := addBib (d.sqBib q) b.bibs }
  let full := match d.batch n with | some b => decide (b.qs.length ≥ 256) | none => false
  if win = 0 || full then d.closeBatch n else d

/-! ## The Pack coalescer (R210, R223) -/

/-- R223: a closed group runs on the lowest engine of its stack that serves its partition now, once its walk half has room
for the codes and filters that the group brings (R221). -/
def Dev.dispatch (d : Dev) (g : Nat) : Dev :=
  match Tab.find d.ix.groups g with
  | none => d
  | some x =>
    match d.heat x.heat with
    | none => d
    | some h =>
      if !x.closed || x.tileWait || x.running || h.pausing then d
      else
        let s := h.stackOf x.lid
        match ((List.range 16).map (16 * s + ·)).find? fun e =>
            let y := d.engine e; y.owner == x.part && !y.guard && !d.engFenced e with
        | none => d
        | some e =>
          let y := d.engine e
          let ents := ((List.zip (List.range x.reqs.length) x.reqs).filter fun p => !p.2.2.2).map fun p => (g, p.1, d.qent p.2.1)
          if y.walk.length + ents.length > 256 then d
          else
            let d := (d.bump .PACK_GROUPS_COUNT).bump .PACK_MERGED_COUNT x.reqs.length
            let y := d.takesUp e y
            (d.setEngine e { y with walk := y.walk ++ ents }).setIx fun z => { z with groups := Tab.upd z.groups g fun x => { x with engine := some e, running := true } }

/-- The entries that a group has brought to an engine are free again (R221). -/
def Dev.freeWalk (d : Dev) (e g : Nat) : Dev :=
  let y := d.engine e
  d.setEngine e { y with walk := y.walk.filter fun p => p.1 != g }

/-- Groups that wait are looked at. -/
def Dev.dispatchAll (d : Dev) : Dev := (Tab.keys d.ix.groups).foldl Dev.dispatch d

def Dev.closeGroup (d : Dev) (g : Nat) : Dev :=
  (d.setIx fun z => { z with groups := Tab.upd z.groups g fun x => { x with closed := true } }).dispatch g

/-- R210: a request joins the open group of its partition and record, or opens one. The group waits once for its tile,
whatever the number of its requests. -/
def Dev.pack (d : Dev) (part heat lid q exp : Nat) (expand miss : Bool) : Dev :=
  let (g, d) := match d.ix.groups.find? fun p => p.2.part == part && p.2.heat == heat && p.2.lid == lid && !p.2.closed with
    | some p => (p.1, d)
    | none =>
      let (n, d) := d.newId
      let tile := (d.heat heat).bind fun h => if lid < h.upper then none else some (h.tileOf lid)
      let x : PackGroup := { part := part, heat := heat, lid := lid, reqs := [], opened := d.now, tile := tile }
      (n, d.setIx fun z => { z with groups := Tab.ins z.groups n x })
  let waits := match Tab.find d.ix.groups g with | some x => x.tileWait | none => false
  let d := d.setIx fun z => { z with groups := Tab.upd z.groups g fun x =>
    { x with reqs := x.reqs ++ [(q, exp, expand)], bibs := addBib (d.sqBib q) x.bibs, tileWait := x.tileWait || miss, flash := x.flash || miss } }
  let d := if miss && !waits then match d.heat heat with
      | some h => d.startRead (h.tileOf lid) 1 (.group g)
      | none => d
    else d
  let full := match Tab.find d.ix.groups g with | some x => decide (x.reqs.length ≥ d.rg .PACK_CFG_MAXQ) | none => false
  if full then (d.bump .PACK_FULL_COUNT).closeGroup g
  else if d.rg .PACK_CFG_WINDOW = 0 then d.closeGroup g
  else d

/-! ## Fetches and budgets (R200, R206, R212) -/

/-- A walk fetches a record: `none` where the flash read that it needs would exceed MAX_MISS, which exhausts the budget,
or its tile is lost. -/
def Dev.fetch (d : Dev) (n lid exp : Nat) (expand : Bool) : Option Dev :=
  match d.sq n with
  | none => none
  | some s =>
    match d.heat s.heat with
    | none => none
    | some h =>
      let k := h.tileOf lid
      let f := if lid < h.upper then Found.zero else d.look k
      match f with
      | .lost => some ((d.reportLoss k).failSq n ST_MEDIA_ERROR)
      | .miss =>
        if s.misses + 1 > s.maxMiss then none
        else
          let d := d.updSq n fun s => { s with misses := s.misses + 1, flash := true }
          some (d.pack s.part s.heat lid n exp expand true)
      | .hit => some ((d.hitTile k).pack s.part s.heat lid n exp expand false)
      | _ => some (d.pack s.part s.heat lid n exp expand false)

/-- R201: the bit of the visited filter of a local ID. -/
def visitBit (l : Nat) : Nat := l * 0x9E3779B1 % 2 ^ 32 / 2 ^ 13

def SQ.seen (s : SQ) (l : Nat) : Bool := Tab.has s.visited (visitBit l)
def SQ.mark (s : SQ) (l : Nat) : SQ := { s with visited := Tab.ins s.visited (visitBit l) true }

/-- The expansions with one changed. -/
def SQ.updExp (s : SQ) (num : Nat) (f : Expn → Expn) : SQ :=
  { s with flying := s.flying.map fun x => if x.num = num then f x else x }

/-- The evaluation of a neighbour is issued: marked, counted, fetched (R203). After exhaustion nothing is issued. -/
def Dev.evalOne (d : Dev) (n exp l : Nat) : Dev :=
  match d.sq n with
  | none => d
  | some s =>
    if s.stage != 2 || s.exhausted || s.seen l then d
    else
      let d := d.updSq n fun s => s.mark l
      if s.evals ≥ s.maxEvals then d.updSq n fun s => { s with exhausted := true }
      else match d.fetch n l exp false with
        | none => d.updSq n fun s => { s with exhausted := true }
        | some d =>
          let d := d.bump .WLK_EVALS_COUNT 1 s.engine
          d.updSq n fun s => ({ s with evals := s.evals + 1 }.updExp exp fun x => { x with wait := x.wait ++ [l] })

/-! ## The candidate queue (R202) -/

def Cand.before (a b : Cand) : Bool := a.dist < b.dist || (a.dist == b.dist && a.lid < b.lid)

/-- The last expanded entry removed, where there is one. -/
def dropLastExpanded (q : List Cand) : Option (List Cand) :=
  match (q.reverse.find? fun c => c.expanded) with
  | none => none
  | some c => some (q.filter fun x => x != c)

/-- R202: a result enters the queue. -/
def SQ.insert (s : SQ) (c : Cand) : SQ :=
  let put (q : List Cand) : SQ := { s with queue := insertBy Cand.before c q }
  if s.queue.length < s.beam then put s.queue
  else match s.queue.getLast? with
    | none => s
    | some z =>
      if !c.before z then s
      else if s.passing < s.localK then
        match dropLastExpanded s.queue with
        | some q => put q
        | none => put s.queue.dropLast
      else put s.queue.dropLast

/-! ## From a walk to a scan (R191, R208) -/

/-- A shard query leaves the side-list batches that it is in. -/
def Dev.leaveSide (d : Dev) (n : Nat) : Dev :=
  d.setIx fun x => { x with batches := Tab.mapV x.batches fun _ b => if b.side then { b with qs := b.qs.filter (· != n) } else b }

/-- Passing results that expansions in flight have brought and that have not been offered. -/
def SQ.gotPassing (s : SQ) : Nat := sum (s.flying.map fun x => (x.got.filter fun r => r.2.2.1).length)

/-- R208, R209: the shard query is handed to the Stride engines at the same epoch: its list is emptied, and the region and the
side list are scanned for it. A walk that a budget has ended and whose results then fall back goes on as a scan and is
exhausted no more: DESIGN CHOICE (log 115). What its walk still brings reaches a list that the clear has closed, and comes late
(R266). -/
def Dev.toScan (d : Dev) (n : Nat) : Dev :=
  match d.sq n with
  | none => d
  | some s =>
    let d := match s.list with | some l => d.clearList l | none => d
    let d := (d.lateOffers s.list s.part s.gotPassing).leaveSide n
    let d := d.updSq n fun s => { s with
      stage := 3, scanned := true, walkDone := false, sideDone := false, flying := [], queue := [], exhausted := false }
    (d.joinBatch n s.heat s.part true).joinBatch n s.heat s.part false

/-- R208: what SCAN_FRAC makes of a share of passing results. -/
def Dev.fallsBack (d : Dev) (s : SQ) : Bool :=
  match d.heat s.heat with
  | none => false
  | some h => s.mode % 4 = 0 && u8 s.filter 2 != 0 && h.scanFrac > 0 && 128 * s.passing < h.scanFrac

/-- R228: the selector sends a query's LOCAL_K-th distance to every engine that holds the query; an engine takes only a
lower one. -/
def Dev.sendThresh (d : Dev) (n l : Nat) : Dev :=
  match (d.plist l).bind PList.kth with
  | none => d
  | some z => d.setIx fun x => { x with batches := Tab.mapV x.batches fun _ b =>
      if (b.ents.any fun y => y.ctx == n) then
        { b with ents := b.ents.map fun y => if y.ctx = n then { y with thresh := min y.thresh z.key } else y }
      else b }

/-- The visibility test of R249 and the offer of a result to the query's selector; `side` the slot of a side-list hit. One for a
query that is over comes late (R266). -/
def Dev.offerSq (d : Dev) (n part lid dist : Nat) (side : Option Nat) (flash : Bool) : Dev :=
  match d.sq n with
  | none => d.lateOffers none part 1
  | some s =>
    match d.heat s.heat, s.list, s.list.bind d.plist with
    | some h, some l, some p =>
      d.present p fun d =>
        if !h.seen_ side lid s.epoch then d.bump .POD_INVIS_COUNT 1 (d.selOf (some p) p.part)
        else (d.compare l { key := dist, idx := lid, src := 0, rflags := (if side.isSome then 2 else 0) + (if flash then 4 else 0) }).sendThresh n l
    | _, _, _ => d.lateOffers none part 1

/-- One result of an expansion is taken (R203); the second part says whether the walk falls back to a scan. -/
def Dev.takeResult (d : Dev) (n : Nat) (x : Nat × Nat × Bool × Bool) : Dev :=
  match d.sq n with
  | none => d
  | some s =>
    let (lid, dist, pass, flash) := x
    if s.stage != 2 then (if pass then d.lateOffers s.list s.part 1 else d)
    else
      let d := if pass then d.offerSq n s.part lid dist none flash else d
      let d := d.updSq n fun s => { s with results := s.results + 1, passing := s.passing + ofBool pass }.insert
        { dist := dist, lid := lid, expanded := false }
      match d.sq n with
      | none => d
      | some s =>
        if s.results = 512 && d.fallsBack s then
          if s.denied then (if s.counted then d else (d.bump .WLK_SCANDENY_COUNT 1 s.engine).updSq n fun s => { s with counted := true })
          else (d.bump .WLK_FALLBACK_COUNT 1 s.engine).toScan n
        else d

/-! ## The walk (R198, R203, R206, R207) -/

/-- The walk of a shard query has ended by itself or by a budget. -/
def Dev.walkEnd (d : Dev) (n : Nat) : Dev := (d.updSq n fun s => { s with walkDone := true }).settleSq n

/-- R203: expansions start until WIDTH are in flight; by fuel. -/
def Dev.walkOn : Nat → Dev → Nat → Dev
  | 0, d, _ => d
  | f + 1, d, n =>
    match d.sq n with
    | none => d
    | some s =>
      if s.stage != 2 || s.walkDone then d
      else
        match d.heat s.heat with
        | none => d
        | some _ =>
          if s.exhausted || s.hops ≥ s.maxHops || s.evals ≥ s.maxEvals then
            if s.flying.isEmpty then (d.updSq n fun z => { z with exhausted := true }).walkEnd n else d
          else
            match s.queue.find? fun c => !c.expanded with
            | none =>
              if !s.flying.isEmpty then d
              else if s.passing < s.localK && bit s.mode 2 && !s.escalated then
                ((d.bump .WLK_ESCALATE_COUNT 1 s.engine).updSq n fun s => { s with escalated := true }).toScan n
              else d.walkEnd n
            | some c =>
              if (s.flying.filter fun x => x.num != 0).length ≥ d.rg .WLK_CFG_WIDTH (d.wlkInst s.part)
                || (s.flying.any fun x => x.num == 0) then d
              else if d.passed s then d.staleSq n s
              else
                let num := s.hops + 1
                let d := (d.bump .WLK_HOPS_COUNT 1 s.engine).updSq n fun s => { s with
                  hops := num, queue := s.queue.map fun x => if x.lid = c.lid then { x with expanded := true } else x }
                match d.fetch n c.lid num true with
                | none => Dev.walkOn f (d.updSq n fun s => { s with exhausted := true }) n
                | some d =>
                  Dev.walkOn f (d.updSq n fun s => { s with
                    flying := s.flying ++ [{ num := num, refs := true, wait := [], got := [] }] }) n

/-- Enough fuel for a walk: every hop takes at most three rounds. -/
def walkFuel (s : SQ) : Nat := 3 * s.maxHops + 8

def Dev.walk (d : Dev) (n : Nat) : Dev :=
  match d.sq n with
  | none => d
  | some s => Dev.walkOn (walkFuel s) d n

/-- An expansion whose fetches have all returned is taken, results in ascending local ID order. -/
def Dev.settleExp (d : Dev) (n num : Nat) : Dev :=
  match d.sq n with
  | none => d
  | some s =>
    match s.flying.find? fun x => x.num == num with
    | none => d
    | some x =>
      if x.refs || !x.wait.isEmpty then d
      else
        let d := d.updSq n fun s => { s with flying := s.flying.filter fun y => y.num != num }
        let d := (sortBy (fun (a b : Nat × Nat × Bool × Bool) => a.1 < b.1) x.got).foldl (fun d r => d.takeResult n r) d
        d.walk n

/-- The seed round (R199, R203). -/
def Dev.seedRound (d : Dev) (n : Nat) : Dev :=
  match d.sq n with
  | none => d
  | some s =>
    match d.heat s.heat with
    | none => d
    | some h =>
      let d := d.updSq n fun s => { s with flying := [{ num := 0, refs := true, wait := [], got := [] }] }
      let d := (List.range (min s.seeds h.cap)).foldl (fun d l => d.evalOne n 0 l) d
      let d := d.updSq n fun s => s.updExp 0 fun x => { x with refs := false }
      d.settleExp n 0

/-! ## Placement (R197, R208, R258) -/

/-- Walking queries on an engine. -/
def Dev.walkingOn (d : Dev) (w : Nat) : Nat := Tab.count d.ix.sqs fun s => s.stage == 2 && !s.walkDone && s.engine == w

/-- R197: the Walk engine with the fewest walking queries, if one of the partition has room. -/
def Dev.pickWalk (d : Dev) (p : Nat) : Option Nat :=
  match (d.walksOf p).filter fun w => !d.isFenced 0x20 w with
  | [] => none
  | a :: r =>
    let w := r.foldl (fun b w => if d.walkingOn w < d.walkingOn b then w else b) a
    if d.walkingOn w < 512 then some w else none

/-- R208: whether a shard query starts as a scan, and whether R191 holds it to walking instead. -/
def Dev.declaredScan (d : Dev) (s : SQ) : Bool :=
  match d.heat s.heat with
  | none => false
  | some h => s.mode % 4 = 0 && u8 s.filter 2 != 0 && s.est > 0 && s.est < h.scanFrac

/-- R197: an earlier shard query of the partition waits for a Walk engine. -/
def Dev.walkWaits (d : Dev) (n : Nat) (s : SQ) : Bool :=
  d.ix.sqs.any fun p => p.1 < n && p.2.stage == 1 && p.2.part == s.part && p.2.mode % 4 != 2
    && !(d.declaredScan p.2 && !p.2.denied) && (match p.2.list.bind d.plist with | some l => l.sel.isSome | none => false)

/-- A shard query whose list has its slots starts, if a Walk engine has room and no earlier one waits for it, or it scans. A
scan that no engine ever walked counts on the partition's lowest Walk engine: DESIGN CHOICE (log 116). A declared scan that R191
holds to walking counts in WLK_SCANDENY as it starts: DESIGN CHOICE (log 140). -/
def Dev.beginSq (d : Dev) (n : Nat) : Dev :=
  match d.sq n with
  | none => d
  | some s =>
    let placed := match s.list.bind d.plist with | some p => p.sel.isSome | none => false
    if s.stage != 1 || !placed then d
    else if d.passed s then d.staleSq n s
    else
      let low := d.wlkInst s.part
      let decl := d.declaredScan s
      if s.mode % 4 = 2 then (d.updSq n fun s => { s with engine := low }).toScan n
      else if decl && !s.denied then ((d.bump .WLK_FALLBACK_COUNT 1 low).updSq n fun s => { s with engine := low }).toScan n
      else if d.walkWaits n s then d
      else
        match d.pickWalk s.part with
        | none => d
        | some w =>
          let d := if decl then d.bump .WLK_SCANDENY_COUNT 1 w else d
          ((d.updSq n fun s => { s with stage := 2, engine := w, counted := decl }).joinBatch n s.heat s.part true).seedRound n

/-- A shard query reaches its copy, or the copy has applied a newer epoch (R180, R181, R183). -/
def Dev.enterSq (d : Dev) (n : Nat) : Dev :=
  match d.sq n with
  | none => d
  | some s =>
    match d.heat s.heat with
    | none => d.failSq n ST_REFUSED_RESOURCE
    | some h =>
      if s.stage != 0 then d
      else if d.passed s then d.staleSq n s
      else if !h.started || h.applied < s.epoch then d
      else
        let (l, d) := d.newList (.shard n) s.part s.localK 0 false
        (d.updSq n fun s => { s with stage := 1, list := some l }).beginSq n

/-- A new shard query. -/
def Dev.newSq (d : Dev) (s : SQ) : Nat × Dev :=
  let (n, d) := d.newId
  let d := d.setIx fun x => { x with sqs := Tab.ins x.sqs n { s with held := d.now, arrived := d.now } }
  (n, d.enterSq n)

/-- Shard queries held for their epoch go on (R180). -/
def Dev.releaseHeld (d : Dev) (heat : Nat) : Dev :=
  (d.ix.sqs.filter fun p => p.2.stage == 0 && p.2.heat == heat).foldl (fun d p => d.enterSq p.1) d

/-- LAGHOLD_EXPIRY (R180). -/
def Dev.lagExpiry (d : Dev) (n : Nat) : Dev :=
  match d.sq n with
  | none => d
  | some s =>
    if s.stage = 0 && s.held + d.ix.pre.hold * 1000 ≤ d.now then (d.bump .HEAT_LAGHOLD_COUNT 1 s.heat).failSq n ST_TIMEOUT else d

/-- Waiting shard queries of a partition, by arrival, are placed (R197). -/
def Dev.placeWaiting (d : Dev) (p : Nat) : Dev :=
  (d.ix.sqs.filter fun x => x.2.stage == 1 && x.2.part == p).foldl (fun d x => d.beginSq x.1) d

/-- POD_SLOTS_FREE (R258): waiting lists of a partition, in arrival order, each only when no earlier one still waits. -/
def Dev.placeLists (d : Dev) (p : Nat) : Dev :=
  ((d.ix.lists.filter fun x => x.2.part == p && x.2.sel.isNone).foldl (fun (acc : Dev × Bool) x =>
    if acc.2 then acc
    else match acc.1.pickSel p x.2.k with
      | none => (acc.1, true)
      | some s => (acc.1.setList x.1 { x.2 with sel := some s }, false)) (d, false)).1.placeWaiting p

/-! ## Errors of a Stride read (R222, R234, R235) -/

/-- Errors that were corrected are counted. -/
def Dev.countEcc (d : Dev) (e : Nat) (x : EccOutcome) : Dev :=
  let d := ((d.bump .STK_ODECC_COUNT x.onDie (e / 16)).bump .STK_SECDED_COUNT x.secded (e / 16)).bump .STR_QRFECC_COUNT x.qrf e
  let d := if x.onDie + x.secded > 0 then d.reportData SRC_DATA_CORR 0x30 (e / 16) none 5 else d
  if x.qrf > 0 then d.reportData SRC_DATA_CORR 0x31 e none 1 else d

/-- R498: an uncorrected error of a Stride read is held against the bib of each request that met it, and against the unit
where a shard query is not of a local request, or none needs the record any more. -/
def Dev.uncorrQueries (d : Dev) (ty inst : Nat) (qs : List Nat) : Dev :=
  let (a, d) := d.stackAddr (if ty = 0x30 then inst else 0)
  (if qs.isEmpty then [none] else (qs.map d.sqBib).eraseDups).foldl (fun d b => d.report SRC_DATA_UNCORR ty inst b a 5) d

/-- R235: a tile whose flash copy is current is dropped and read again. -/
def Dev.refetchable (d : Dev) (k : Nat) : Bool := let t := d.tile k; t.onFlash && t.dirty.isNone && !d.lostTile t

def Dev.uncorrSector (d : Dev) (e k : Nat) (qs : List Nat) : Dev :=
  let d := (d.bump .STK_UNCORR_COUNT 1 (e / 16)).uncorrQueries 0x30 (e / 16) qs
  if d.refetchable k then (d.updTile k fun t => { t with frame := none }).bump .STK_REFETCH_COUNT 1 (e / 16) else d

/-! ## Walk groups (R211, R224) -/

/-- What a group's return gives one request: an EVAL entry, or the references. `ent` is the request's register file entry. A
result for a query whose walk is over is an offer that comes late (R266). -/
def Dev.returnOne (d : Dev) (x : PackGroup) (h : Heat) (e : Nat) (q : Nat × (Nat × Nat × Bool)) (ent : Option QEnt) : Dev :=
  let (i, n, num, expand) := q
  let rec_ := h.lane x.lid
  let walking := match d.sq n with | some s => s.stage == 2 | none => false
  if expand then
    if !walking then d
    else
      let (refs, bad) := h.refs rec_.adj
      let d := if bad then d.bump .HEAT_BADREF_COUNT 1 x.heat else d
      let d := refs.foldl (fun d r => d.evalOne n num r) d
      (d.updSq n fun s => s.updExp num fun y => { y with refs := false }).settleExp n num
  else
    let y := ent.getD (d.qent n)
    let r : Ret := { kind := 0, slot := i, dist := hamming (codeBytes h.code) y.code rec_.code, pass := passes y.filter rec_.attr, lid := x.lid }
    let d := d.sendRet e r
    if walking then
      (d.updSq n fun s => s.updExp num fun y =>
        { y with wait := y.wait.filter (· != r.lid), got := y.got ++ [(r.lid, r.dist, r.pass, x.flash)] }).settleExp n num
    else if r.pass then d.lateOffers ((d.sq n).bind (·.list)) x.part 1
    else d

/-- R235: the requests of a group wait for the tile again, each at the price of a miss; who cannot pay ends by its
budget. -/
def Dev.regroup (d : Dev) (g : Nat) (x : PackGroup) (k : Nat) : Dev :=
  let (d, keep) := x.reqs.foldl (fun (acc : Dev × List (Nat × Nat × Bool)) q =>
    match acc.1.sq q.1 with
    | none => acc
    | some s =>
      if s.misses + 1 > s.maxMiss then
        (((acc.1.updSq q.1 fun s => { s with exhausted := true }.updExp q.2.1 fun y =>
          { y with refs := if q.2.2 then false else y.refs, wait := y.wait.filter (· != x.lid) }).settleExp q.1 q.2.1), acc.2)
      else (acc.1.updSq q.1 fun s => { s with misses := s.misses + 1, flash := true }, acc.2 ++ [q])) (d, [])
  if keep.isEmpty then d.setIx fun z => { z with groups := Tab.del z.groups g }
  else (d.setIx fun z => { z with groups := Tab.ins z.groups g { x with reqs := keep, running := false, engine := none, tileWait := true, flash := true } }).startRead
    k 1 (.group g)

/-- R235: an engine sends KIND 5 for each request or query that needed a bad sector of a record; `slots` their places. -/
def Dev.sendErrs (d : Dev) (e lid : Nat) (side : Bool) (slots : List Nat) : Dev :=
  slots.foldl (fun d i => d.sendRet e { kind := 5, slot := i, side := side, lid := lid }) d

/-- STRIDE_GROUP_RETURN. A bad entry ends its request (R222); a bad sector concerns the requests that needed it: every EXPAND
request, and an EVAL request unless the sector held references alone (R218, R235). -/
def Dev.groupReturn (d : Dev) (g : Nat) (ecc : EccOutcome) : Dev :=
  match Tab.find d.ix.groups g with
  | none => d
  | some x =>
    match d.heat x.heat, x.engine with
    | some h, some e =>
      if !x.running then d
      else
        let k := h.tileOf x.lid
        let ents := (d.engine e).walk.filter fun p => p.1 == g
        let entOf (i : Nat) : Option QEnt := (ents.find? fun p => p.2.1 == i).map (·.2.2)
        let reqs := List.zip (List.range x.reqs.length) x.reqs
        let d := ((d.freeWalk e g).setEngine e (((d.freeWalk e g).engine e).fed d.now)).countEcc e ecc
        let bad := ecc.badEntry.bind fun i => (reqs.find? fun p => p.1 == i && (entOf i).isSome).map fun p => (i, p.2.1)
        let rest := reqs.filter fun p => bad.map (·.1) != some p.1
        let (hit, well) := rest.partition fun p => ecc.sectorBad && (p.2.2.2 || !ecc.adjOnly)
        let d := ((d.bump .STR_GROUPS_COUNT 1 e).bump .STR_RECORDS_COUNT 1 e).bump .STR_PAIRS_COUNT
          (well.filter fun p => !p.2.2.2).length e
        let d := d.setIx fun z => { z with groups := Tab.del z.groups g }
        let d := match bad with
          | some (i, q) => (((d.sendRet e { kind := 5, slot := i, lid := x.lid }).uncorrQueries 0x31 e [q]).failSq q ST_INTERNAL)
          | none => d
        let d := if well.any fun p => p.2.2.2 then d.sendRet e { kind := 2, slot := 0, lid := x.lid } else d
        let d := well.foldl (fun d q => d.returnOne x h e q (entOf q.1)) d
        let d :=
          if !ecc.sectorBad || (ecc.adjOnly && hit.isEmpty) then d
          else
            let again := d.refetchable k
            let d := (d.sendErrs e x.lid false (hit.map (·.1))).uncorrSector e k (hit.map (·.2.1))
            if again then d.regroup g { x with reqs := hit.map (·.2) } k
            else hit.foldl (fun d p => d.failSq p.2.1 ST_INTERNAL) d
        d.dispatchAll
    | _, _ => d

/-- R416, R418: where the record of a group stands in its tile. -/
def Dev.groupSpan (d : Dev) (g : Nat) : Nat × Nat :=
  match (Tab.find d.ix.groups g).bind fun x => (d.heat x.heat).map fun h => (x.lid / 8 % max 1 h.perTile * h.recSize, h.recSize) with
  | some p => p
  | none => (0, 65536)

/-- A group's tile has arrived, or cannot be had (R212, R419). Each retry level is one more miss (R418). -/
def Dev.groupTile (d : Dev) (g levels : Nat) (ok : Bool) : Dev :=
  match Tab.find d.ix.groups g with
  | none => d
  | some x =>
    if ok then
      let d := x.reqs.foldl (fun d q => d.updSq q.1 fun s => { s with misses := s.misses + levels }) d
      (d.setIx fun z => { z with groups := Tab.upd z.groups g fun x => { x with tileWait := false } }).dispatch g
    else
      let d := x.reqs.foldl (fun d q => d.failSq q.1 ST_MEDIA_ERROR) d
      d.setIx fun z => { z with groups := Tab.del z.groups g }

/-- PACK_WINDOW_CLOSE (R210). -/
def Dev.packClose (d : Dev) (g : Nat) : Dev :=
  match Tab.find d.ix.groups g with
  | none => d
  | some x => if !x.closed && x.opened + d.rg .PACK_CFG_WINDOW ≤ d.now then d.closeGroup g else d

/-! ## Slices (R42, R43, R231 to R233) -/

/-- The owner of a slice of an engine in the slice map, 255 for none. -/
def Dev.sliceOwner (d : Dev) (e s : Nat) : Nat :=
  match d.sliceMap[e * 64 + s]? with
  | some b => b.toNat
  | none => 255

/-- R42: partitions with work pending at an engine. A batch that is live, saved or waiting there counts, whatever its tiles
wait for, and whether or not its heat is in a pause; a group counts once its tile is there: DESIGN CHOICE (log 117). -/
def Dev.pendingAt (d : Dev) (e : Nat) : List Nat :=
  let x := d.engine e
  let ofBatch := (x.live.toList ++ x.saved ++ x.waiting).filterMap fun n => (d.batch n).map (·.part)
  let ofGroup := (Tab.vals d.ix.groups).filterMap fun g =>
    match d.heat g.heat with
    | some h => if g.closed && !g.tileWait && !g.running && h.stackOf g.lid == e / 16 then some g.part else none
    | none => none
  ofBatch ++ ofGroup

/-- R42: the partition served in a slice, and whether it is lent: the lowest partition with work (DESIGN CHOICE,
log 48). -/
def Dev.served (d : Dev) (e s : Nat) : Nat × Bool :=
  let o := d.sliceOwner e s
  let work := d.pendingAt e
  if work.contains o then (o, false)
  else match work with
    | [] => (o, false)
    | a :: r => (r.foldl min a, true)

/-- R43, R233: a live batch is saved during the guard where the next slice's partition needs the batch half; where the save
area is full, the two change places at the boundary. STR_SUSPEND counts saves, not a batch that stays unsaved in the batch
half: DESIGN CHOICE (log 143). -/
def Dev.suspend (d : Dev) (e next : Nat) : Dev :=
  let x := d.engine e
  match x.live with
  | none => d
  | some n =>
    let mine (m : Nat) : Bool := d.batchPart m == some next
    let needs := x.saved.any mine || (x.waiting.any mine && d.placeFree e next)
    if mine n || !needs || 3 ≤ x.saved.length then d
    else (d.setEngine e { x with live := none, saved := x.saved ++ [n] }).bump .STR_SUSPEND_COUNT 1 e

/-- SLICE_GUARD (R232): engines whose next slice has another owner start no new work. Lending is foretold from the work pending
now and decided anew at the boundary, so that an owner can change with no guard: DESIGN CHOICE (log 141). -/
def Dev.sliceGuard (d : Dev) : Dev :=
  let s := (d.now / 2000 + 1) % 64
  (List.range 128).foldl (fun d e =>
    let (o, _) := d.served e s
    let x := d.engine e
    if d.engFenced e || o = x.owner then d
    else (d.setEngine e { x with guard := true }).suspend e o) d

/-- SLICE_BOUNDARY (R231). The watchdog's time goes on only through slices in which the engine held work (R236). -/
def Dev.sliceStart (d : Dev) : Dev :=
  let s := d.now / 2000 % 64
  let d := (List.range 128).foldl (fun d e =>
    let (o, lent) := d.served e s
    let x := d.engine e
    let acc := if d.busyAt e then x.acc + (d.now - x.since) else x.acc
    (d.setEngine e { x with owner := o, lent := lent, guard := false, since := d.now, acc := acc }).startBatch e) d
  d.dispatchAll

/-! ## Scan batches on an engine (R226 to R230) -/

/-- An engine has finished or skipped a unit; with its last one its share ends (KIND 4). -/
def Dev.unitDone (d : Dev) (n e u : Nat) : Dev :=
  match d.batch n with
  | none => d
  | some b =>
    match d.heat b.heat with
    | none => d
    | some h =>
      let key := unitKey e u
      let d := (d.freeUnit n b h key).updBatch n fun b => { b with
        done := Tab.ins b.done e (u :: Tab.get [] b.done e), cur := if Tab.find b.cur e = some u then Tab.del b.cur e else b.cur
        sent := b.sent.filter (· != key), arrived := b.arrived.filter (· != key) }
      let all := match d.batch n with | some b => decide ((b.units h e).length ≤ (Tab.get [] b.done e).length) | none => false
      let d :=
        if all then
          let d := (d.sendRet e { kind := 4, slot := 0 }).updBatch n fun b => { b with finished := e :: b.finished.filter (· != e) }
          let x := d.engine e
          (d.setEngine e { x with live := if x.live = some n then none else x.live, saved := x.saved.filter (· != n)
                                  waiting := x.waiting.filter (· != n) }).startBatch e
        else d.engineOn e
      d.settleBatch n

/-- One record of a unit against one entry of the batch half (R228). -/
def Dev.scanOne (d : Dev) (n part e i lid : Nat) (code : Bytes) (attr cb : Nat) (side : Option Nat) (flash : Bool) : Dev :=
  match (d.batch n).bind fun b => b.ents[i]? with
  | none => d
  | some y =>
    let dist := hamming cb y.code code
    let d := d.bump .STR_PAIRS_COUNT 1 e
    if passes y.filter attr && dist ≤ y.thresh then
      let r : Ret := { kind := 1, slot := i, dist := dist, side := side.isSome, pass := true, lid := lid }
      (d.sendRet e r).offerSq y.ctx part r.lid r.dist side flash
    else d

/-- The records of a tile of a region: (local ID, record). -/
def Heat.tileRecs (h : Heat) (stack t : Nat) : List (Nat × LaneRec) :=
  ((List.range h.perTile).map fun i =>
    let slot := t * h.perTile + i
    8 * slot + (stack + 8 - h.number % 8) % 8).filterMap fun l => if l < h.cap then some (l, h.lane l) else none

/-- The entries of a batch, by their places, that a set of queries has. -/
def Batch.entsOf (b : Batch) (qs : List Nat) : List Nat :=
  (List.range b.ents.length).filter fun i => match b.ents[i]? with | some y => b.qs.contains y.ctx && qs.contains y.ctx | none => false

/-- R222: an uncorrected error in an entry of the batch half ends that entry's shard query. -/
def Dev.badEntry (d : Dev) (e : Nat) (b : Batch) (i : Option Nat) : Dev :=
  match i.bind fun i => b.ents[i]? with
  | some y => (d.uncorrQueries 0x31 e [y.ctx]).failSq y.ctx ST_INTERNAL
  | none => d

/-- R227: queries are marked miss-exhausted in every engine. -/
def Dev.markMissOut (d : Dev) (n : Nat) (qs : List Nat) : Dev :=
  (qs.foldl (fun d q => d.updSq q fun s => { s with missOut := true }) d).updBatch n fun b =>
    { b with ents := b.ents.map fun y => if qs.contains y.ctx then { y with missOut := true } else y }

/-- R227: the queries of some that may pay one more miss pay it; the others are miss-exhausted. -/
def Dev.grantTile (d : Dev) (n : Nat) (qs : List Nat) : List Nat × Dev :=
  let (grant, out) := qs.partition fun q => match d.sq q with | some s => s.misses + 1 ≤ s.maxMiss | none => false
  (grant, grant.foldl (fun d q => d.updSq q fun s => { s with misses := s.misses + 1, flash := true }) (d.markMissOut n out))

/-- STRIDE_BATCH_RETURN: an engine has evaluated the unit of its live batch that it had started, in a slice of its partition. A
bad sector ends the unit at its record (R235); the references that a scan does not read cannot fail it (R218). -/
def Dev.batchReturn (d : Dev) (n e u : Nat) (ecc : EccOutcome) : Dev :=
  match d.batch n with
  | none => d
  | some b =>
    match d.heat b.heat with
    | none => d
    | some h =>
      let x := d.engine e
      let key := unitKey e u
      let came := b.arrived.contains key
      let ok := e < 128 && x.live = some n && x.owner = b.part && !d.engFenced e && Tab.find b.cur e == some u
      if !ok || (b.side && h.pausing) then d
      else
        let k := heatTile h.number (e / 16) u
        let d := ((d.setEngine e (x.fed d.now)).countEcc e ecc).badEntry e b ecc.badEntry
        let live (q : Nat) : Bool := match d.sq q with | some s => s.stage != 5 | none => false
        let all := if came then Tab.get [] b.noticed key else b.qs
        let qs := all.filter live
        let is := (b.entsOf all).filter fun i => ecc.badEntry != some i
        let cb := codeBytes h.code
        let recs := if b.side then [] else h.tileRecs (e / 16) u
        let bad := ecc.sectorBad && !ecc.adjOnly
        let again := bad && !b.side && d.refetchable k
        let scan (d : Dev) (rs : List (Nat × LaneRec)) : Dev := rs.foldl (fun d r =>
          (is.foldl (fun d i => d.scanOne n b.part e i r.1 r.2.code r.2.attr cb none came) d).bump .STR_RECORDS_COUNT 1 e) d
        if bad then
          let d := scan d (recs.take ecc.badRec)
          let lid := match Tab.find h.side u with | some y => y.lid | none => 0
          let d := (d.sendErrs e (if b.side then lid else ((recs[ecc.badRec]?).map (·.1)).getD 0) b.side (b.entsOf qs)).bump .STR_RECORDS_COUNT 1 e
          let d := if b.side then (d.bump .STK_UNCORR_COUNT 1 (e / 16)).uncorrQueries 0x30 (e / 16) qs else d.uncorrSector e k qs
          if again then
            let (keep, d) := d.grantTile n qs
            if keep.isEmpty then d.unitDone n e u
            else
              let d := (d.freeUnit n b h key).updBatch n fun b => { b with
                noticed := Tab.ins b.noticed key keep, arrived := b.arrived.filter (· != key)
                cur := if Tab.find b.cur e = some u then Tab.del b.cur e else b.cur }
              ((d.startRead k 1 (.scan n e u)).engineOn e).settleBatch n
          else (qs.foldl (fun d q => d.failSq q ST_INTERNAL) d).unitDone n e u
        else
          let d :=
            if b.side then
              match Tab.find h.side u with
              | some y =>
                if y.retired != 0 && !newer 32 y.retired b.pauseNo then d
                else (is.foldl (fun d i => d.scanOne n b.part e i y.lid y.code y.attr cb (some u) false) d).bump .STR_RECORDS_COUNT 1 e
              | none => d
            else
              scan (if d.look k = .hit then d.hitTile k else d) recs
          d.unitDone n e u

/-- A granted tile is there for its engine, which keeps it resident until it has scanned it (R226, R227). -/
def Dev.tileArrives (d : Dev) (n e u : Nat) (h : Heat) : Dev :=
  ((d.holdUnit n h e u).updBatch n fun b => { b with arrived := unitKey e u :: b.arrived.filter (· != unitKey e u) }).engineOn e

/-- MISS_NOTICE (R227): a miss notice reaches the Track die. -/
def Dev.missNotice (d : Dev) (n e u : Nat) : Dev :=
  match d.batch n with
  | none => d
  | some b =>
    match d.heat b.heat with
    | none => d
    | some h =>
      let key := unitKey e u
      if !b.sent.contains key then d
      else
        let k := heatTile h.number (e / 16) u
        let live := b.qs.filter fun q => match d.sq q with | some s => s.stage == 3 && !s.missOut | none => false
        let (grant, d) := d.grantTile n live
        if grant.isEmpty then d.unitDone n e u
        else
          let d := d.updBatch n fun b => { b with noticed := Tab.ins b.noticed key grant, sent := b.sent.filter (· != key) }
          if d.look k = .lost then ((grant.foldl (fun d q => d.failSq q ST_MEDIA_ERROR) (d.reportLoss k))).unitDone n e u
          else (if d.look k = .hit then d.tileArrives n e u h else d.startRead k 1 (.scan n e u)).settleBatch n

/-- A granted tile has arrived, or cannot be had. -/
def Dev.scanTile (d : Dev) (n e u levels : Nat) (ok : Bool) : Dev :=
  match d.batch n with
  | none => d
  | some b =>
    match d.heat b.heat with
    | none => d
    | some h =>
      let qs := Tab.get [] b.noticed (unitKey e u)
      if ok then (qs.foldl (fun d q => d.updSq q fun s => { s with misses := s.misses + levels }) d).tileArrives n e u h
      else (qs.foldl (fun d q => d.failSq q ST_MEDIA_ERROR) d).unitDone n e u

/-- R236: what a fenced engine held. Its walk groups go to another engine, and the queries of its batches end. -/
def Dev.quitEngine (d : Dev) (e : Nat) : Dev :=
  let x := d.engine e
  let gs := (d.ix.groups.filter fun g => g.2.running && g.2.engine == some e).map (·.1)
  let bs := x.live.toList ++ x.saved ++ x.waiting
  let d := d.setEngine e { x with walk := [] }
  let d := gs.foldl (fun d g => (d.setIx fun z =>
    { z with groups := Tab.upd z.groups g fun y => { y with running := false, engine := none } }).dispatch g) d
  bs.foldl (fun d n => match d.batch n with
    | some b => (b.qs.foldl (fun d q => d.failSq q ST_INTERNAL) d).dropBatch n
    | none => d) d

/-- The engines that are fenced give up what they held (R236). -/
def Dev.quitFenced (d : Dev) : Dev :=
  d.fenced.foldl (fun d u => if u.1 = 0x31 then d.quitEngine u.2 else d) d

/-- STR_WDOG (R236): an engine that holds work in a slice and has finished no record for WDOG µs is fenced; the time counts
through the slices in which it held work (log 118). -/
def Dev.strWdog (d : Dev) (e : Nat) : Dev :=
  let x := d.engine e
  if e ≥ 128 || d.engFenced e || !d.busyAt e || x.acc + (d.now - x.since) < d.rg .STK_CFG_WDOG (e / 16) * 1000 then d
  else ((d.report SRC_STR_WDOG 0x31 e none (d.now / 2000 % 64) 0).fenceUnit 0x31 e).quitEngine e

end Sys2Proof.Machine
end

