-- ==== Sys2Proof/Machine/Embed.lean ====
section
/-!
DEFINITION. Embedding tables (spec file 14): look-ups and pooling, steps, hot rows and their migrations.
-/
namespace Sys2Proof.Machine

/-! ## Rows and tiles (R335 to R337) -/

def Table.stride (t : Table) : Nat := ceilDiv (elemBytes t.fmt t.elems + scaleBytes t.sfmt) 8 * 8
def Table.perTile (t : Table) : Nat := 65536 / max 1 t.stride
def Table.tileOf (t : Table) (row : Nat) : Nat := row / max 1 t.perTile
def Table.outStride (t : Table) : Nat := ceilDiv t.stride 64 * 64

/-- R336: tiles of a whole table. -/
def Table.tiles (t : Table) : Nat := ceilDiv t.rows (max 1 t.perTile)

def rowKey (num row : Nat) : Nat := num * 2 ^ 40 + row

def Dev.setEm (d : Dev) (f : Embed → Embed) : Dev := { d with em := f d.em }
def Dev.table (d : Dev) (i : Nat) : Option Table := Tab.find d.em.tables i
def Dev.updTable (d : Dev) (i : Nat) (f : Table → Table) : Dev := d.setEm fun x => { x with tables := Tab.upd x.tables i f }
def Dev.tableIdx (d : Dev) (num : Nat) : Option Nat := (d.em.tables.find? fun p => p.2.num == num).map (·.1)

/-- A row as it stands here, in stored form (R340: never written, it is zeros). -/
def Dev.rowBytes (d : Dev) (t : Table) (row : Nat) : Bytes := fit t.stride (Tab.get [] d.fl.rows (rowKey t.num row))

/-- The member slots of the MEET section, ascending. -/
def Dev.slots (d : Dev) : List Nat := Tab.keys d.mt.members

/-- R337: the home of a table tile. -/
def homeOf (slots : List Nat) (num tile : Nat) : Nat :=
  let h := (tile + 2 ^ 40 * num) * 0x9E3779B97F4A7C15 % 2 ^ 64
  slots.getD (h / 2 ^ 32 * slots.length / 2 ^ 32) 0

/-- R355: the slot that owns a row at the current epoch: its home, unless a redirect is in force. -/
def Dev.rowOwner (d : Dev) (t : Table) (row : Nat) : Nat :=
  if !d.mt.on then d.mt.slot
  else
    let home := if t.repl then t.home else homeOf d.slots t.num (t.tileOf row)
    match Tab.find d.em.redirs (rowKey t.num row) with
    | some x => if x.k ≤ d.curEpoch then x.slot else x.prev
    | none => home

/-- R343: where a look-up of a row goes: a replicated table is read here. -/
def Dev.readOwner (d : Dev) (t : Table) (row : Nat) : Nat := if t.repl then d.mt.slot else d.rowOwner t row

/-! ## Arithmetic of rows (R345, R350) -/

/-- The row's elements widened to FP32 and multiplied by its scale. -/
def Table.widen (t : Table) (b : Bytes) : List Nat :=
  let s := scaleValue t.sfmt (un (scaleBytes t.sfmt) b (elemBytes t.fmt t.elems))
  (List.range t.elems).map fun i => toFp32 ((fp32Value (toFp32 (elemValue t.fmt (elemAt t.fmt b i)))).mul s)

/-- R350 step 4: a row narrowed to its stored form. -/
def Table.narrowRow (t : Table) (xs : List Nat) : Bytes :=
  let b :=
    if t.sfmt = 0xFF then packElems t.fmt (xs.map fun x => (narrow t.fmt 0 (fp32Value x) none).1)
    else
      let m := measureSet t.fmt t.sfmt false xs
      packElems t.fmt (xs.map fun x => (convert t.fmt t.sfmt m x none).1) ++ le (scaleBytes t.sfmt) m.scale
  fit t.stride b

/-- An FP32 or BF16 word at a place of a string, as FP32. -/
def wordAt (f : Nat) (b : Bytes) (i : Nat) : Nat := if f = 10 then u16 b (2 * i) * 65536 else u32 b (4 * i)

/-- Bytes of a delta or weight. -/
def wordBytes (f : Nat) : Nat := if f = 10 then 2 else 4

/-- R350 steps 1 to 3: a row with a step's changes; they stand in the order of step 3. -/
def Table.formRow (t : Table) (now : Bytes) (cs : List Change) : Bytes :=
  let base := match (cs.filter fun c => c.set).getLast? with
    | some c => t.widen c.data
    | none => t.widen now
  t.narrowRow ((cs.filter fun c => !c.set).foldl (fun xs c =>
    (List.range t.elems).map fun i => fp32Add (xs.getD i 0) (wordAt c.fmt c.data i)) base)

/-- R345: one bag. `rows` its rows with their weights, in ascending position. -/
def Table.pool (t : Table) (ofmt : Nat) (rows : List (Bytes × Nat)) : Bytes :=
  let xs := rows.foldl (fun (acc : List Nat) r =>
    let v := t.widen r.1
    (List.range t.elems).map fun i => fp32Fma r.2 (v.getD i 0) (acc.getD i 0)) (List.replicate t.elems 0)
  packElems ofmt (xs.map fun x => if ofmt = 12 then x else (narrow ofmt 0 (fp32Value x) none).1)

/-! ## Frames (Table 19.9; the order of the parts of DATA is a DESIGN CHOICE, log 52) -/

def embFrame (desc : Bytes) (bib gen kind status epoch result : Nat) (data : Bytes) : Bytes :=
  fit 64 desc ++ le 2 bib ++ le 2 gen ++ le 1 kind ++ le 1 status ++ le 2 0 ++ le 8 epoch ++ le 16 result ++ data

/-- Descriptor bytes that name a table and a step alone, for frames that no descriptor caused. -/
def tableDesc (num step : Nat) : Bytes := fill 16 0 ++ le 2 num ++ fill 6 0 ++ le 4 step ++ fill 36 0

def Dev.embSend (d : Dev) (slot : Nat) (desc : Bytes) (bib gen kind status epoch result : Nat) (data : Bytes) : Dev :=
  d.relayLong slot K_EMBED (embFrame desc bib gen kind status epoch result []) data

/-! ## Reading rows at an owner (R343) -/

def Dev.gather (d : Dev) (g : Nat) : Option Gather := Tab.find d.em.gathers g
def Dev.updGather (d : Dev) (g : Nat) (f : Gather → Gather) : Dev := d.setEm fun x => { x with gathers := Tab.upd x.gathers g f }
def Dev.embJob (d : Dev) (r : Nat) : Option EmbJob := Tab.find d.em.jobs r
def Dev.updEmb (d : Dev) (r : Nat) (f : EmbJob → EmbJob) : Dev := d.setEm fun x => { x with jobs := Tab.upd x.jobs r f }

/-- Bytes of RESULT of a LOOKUP (Table 14.6). -/
def lookupResult (rows misses remote : Nat) : Nat := rows % 2 ^ 32 + min 0xFFFF misses * 2 ^ 32 + min 0xFFFF remote * 2 ^ 48

/-- R345, R344: the output of a LOOKUP whose rows are all here. -/
def Dev.lookupOut (d : Dev) (r : Nat) (j : EmbJob) (t : Table) : Dev :=
  match Tab.find d.reqs r with
  | none => d
  | some q =>
    let oaddr := u64 q.desc 0x38
    let d :=
      if u8 q.desc 0x12 = 0 then
        j.rows.foldl (fun d p => d.dmaWrite r (oaddr + p.1 * t.outStride) (fit t.outStride p.2)) d
      else
        let bags := u16 q.desc 0x18
        let ofmt := u8 q.desc 0x1A
        let wf := u8 q.desc 0x13
        let w (i : Nat) : Nat := if wf = 0 then 0x3F800000 else wordAt (if wf = 2 then 10 else 12) (Tab.get [] j.parts 1) i
        let start (b : Nat) : Nat := if b < bags then u32 (Tab.get [] j.parts 2) (4 * b) else j.idx.length
        let po := ceilDiv (elemBytes ofmt t.elems) 64 * 64
        (List.range bags).foldl (fun d b =>
          let rows := (List.range (start (b + 1) - start b)).map fun i => (Tab.get [] j.rows (start b + i), w (start b + i))
          d.dmaWrite r (oaddr + b * po) (fit po (t.pool ofmt rows))) d
    let d := d.updReq r fun q => { q with misses := q.misses + j.misses }
    let d := if j.misses > 0 then d.addFlag r FL_FLASH else d
    d.finish r ST_OK (lookupResult j.idx.length j.misses j.remote)

/-- R20: a failure that a request has met at an owner. A rerank's gathering keeps it for the search. -/
def Dev.embFail (d : Dev) (r st res : Nat) : Dev :=
  let d := d.updEmb r fun j => { j with fails := j.fails ++ [(st, res)] }
  match d.embJob r with
  | some j => if j.rerank then d else d.updReq r fun q => { q with fails := q.fails ++ [st], pre := q.pre ++ [(st, res)] }
  | none => d

/-- RESULT of STEP_END (R353). -/
def EmbJob.counts (j : EmbJob) : Nat := j.timeouts % 2 ^ 32 + min 0xFFFF j.dropped * 2 ^ 32

/-- An embedding request for which nothing is awaited any more ends. -/
def Dev.embEnd (d : Dev) (r : Nat) : Dev :=
  match d.embJob r, Tab.find d.reqs r with
  | some j, some q =>
    if q.ended || !j.sent || j.own || !j.out.isEmpty then d
    else if j.rerank then d.updEmb r fun j => { j with ready := true }
    else
      match pickFail (j.fails ++ failIf (j.op = 0x33 && j.dropped > 0) ST_NV_BLOCKED j.counts) with
      | some (st, res) => d.complete r st res
      | none =>
        match j.op with
        | 0x30 => match d.table j.table with
          | some t => d.lookupOut r j t
          | none => d.complete r ST_FENCED
        | 0x33 => d.finish r ST_OK j.counts
        | _ => d.finish r ST_OK
  | _, _ => d

/-- Table 14.7, DRAIN: migrations whose last request at the source has ended and whose destination has answered end. What the
freed copy reads as is not observable: no request is routed to it (log 131). -/
def Dev.endDrains (d : Dev) : Dev :=
  let busy (m : Mig) : Bool := d.em.gathers.any fun g => g.2.table == m.table && g.2.want.any fun w => w.2 == m.row
  d.setEm fun e => { e with migs := e.migs.filter fun p => !(p.2.state == 3 && p.2.unacked == 0 && !busy p.2) }

/-- A gathering that waits for nothing is handed over. -/
def Dev.gatherEnd (d : Dev) (g : Nat) : Dev :=
  match d.gather g with
  | none => d
  | some x =>
    if !x.wait.isEmpty then d
    else
      let d := (d.setEm fun e => { e with gathers := Tab.del e.gathers g }).endDrains
      match x.who with
      | .req r =>
        let d := d.updEmb r fun j => { j with
          own := false, rows := x.rows.foldl (fun t p => Tab.ins t p.1 p.2) j.rows, misses := j.misses + x.misses }
        (if x.lost then d.embFail r ST_MEDIA_ERROR 0 else d).embEnd r
      | .relay slot desc bib gen =>
        if x.lost then d.embSend slot desc bib gen 1 ST_MEDIA_ERROR 0 0 []
        else d.embSend slot desc bib gen 1 ST_OK 0 (lookupResult x.rows.length x.misses 0)
          (x.want.map fun w => Tab.get [] x.rows w.1).flatten

/-- The rows of a gathering that lie in a tile are read. -/
def Dev.takeRows (d : Dev) (g : Nat) (tile : Nat) : Dev :=
  match d.gather g with
  | none => d
  | some x =>
    match d.table x.table with
    | none => d
    | some t =>
      let mine := x.want.filter fun w => t.tileOf w.2 = tile
      let d := d.updGather g fun x => { x with
        rows := mine.foldl (fun rs w => Tab.ins rs w.1 (d.rowBytes t w.2)) x.rows, wait := x.wait.filter (· != tile) }
      let d := d.bump .EMB_LOOKUPS_COUNT mine.length 0 x.table
      d.updTable x.table fun t => { t with
        served := t.served + mine.length, hot := mine.foldl (fun h w => Tab.ins h w.2 (Tab.get 0 h w.2 + 1)) t.hot }

/-- R343: rows are read here, tile by tile. -/
def Dev.startGather (d : Dev) (who : GatherFor) (i : Nat) (want : List (Nat × Nat)) : Dev :=
  match d.table i with
  | none => d
  | some t =>
    let (g, d) := d.newId
    let d := d.setEm fun e => { e with gathers := Tab.ins e.gathers g { who := who, table := i, want := want } }
    let tiles := (want.map fun w => t.tileOf w.2).eraseDups
    let d := tiles.foldl (fun d k =>
      let key := tableTile t.num k
      match d.look key with
      | .hit => (d.hitTile key).takeRows g k
      | .miss => (d.updGather g fun x => { x with wait := x.wait ++ [k], misses := x.misses + 1 }).startRead key t.hint (.gather g)
      | .lost => (d.reportLoss key).updGather g fun x => { x with lost := true }
      | _ => (d.bump .TIER_HITS_COUNT).takeRows g k) d
    d.gatherEnd g

/-- A tile that a gathering awaits has come from the flash, or cannot be read: the codewords count that hold rows it wants (R416,
R418, R419). -/
def Dev.gatherTile (d : Dev) (g key : Nat) (out : ReadOut) (target : Nat) : Dev :=
  match d.gather g with
  | none => d
  | some x =>
    let k := key % 2 ^ 40
    let cws := match d.table x.table with
      | some t => ((x.want.filter fun (w : Nat × Nat) => t.tileOf w.2 == k).flatMap fun (w : Nat × Nat) =>
          codewords (w.2 % max 1 t.perTile * t.stride) t.stride).eraseDups
      | none => []
    let d := d.updGather g fun x => { x with misses := x.misses + sum (cws.map fun i => out.levels.getD i 0) }
    if !(cws.any out.bad.contains) then (d.takeRows g k).gatherEnd g
    else
      let bib := match x.who with | .req r => (Tab.find d.reqs r).bind (·.bib) | _ => none
      ((d.reportMedia target key bib).updGather g fun x =>
        { x with lost := true, wait := x.wait.filter (· != k) }).gatherEnd g

/-! ## Steps at an owner (R347 to R352) -/

/-- The refusals of a change or marker of a step (Table 14.5, R348: a closed step takes no more). -/
def Dev.stepFails (d : Dev) (t : Table) (slot step bytes : Nat) : List (Nat × Nat) :=
  let closed := !newer 32 step t.applied || t.steps.any fun s => s.step == step && s.state != 0
  failIf (!bit t.writers slot) ST_NOT_OWNER
  ++ failIf closed ST_STALE_EPOCH
  ++ failIf (newer 32 step t.applied && (step + 2 ^ 32 - t.applied) % 2 ^ 32 > 2) ST_REFUSED_RESOURCE 3
  ++ failIf (bytes > 0 && !d.workRoom (ceilDiv bytes 65536)) ST_REFUSED_RESOURCE 4

def Table.buf (t : Table) (step : Nat) : Option StepBuf := t.steps.find? fun s => s.step == step
def Dev.updStep (d : Dev) (i step : Nat) (f : StepBuf → StepBuf) : Dev :=
  d.updTable i fun t => { t with steps := t.steps.map fun s => if s.step = step then f s else s }

/-- The buffer of a step, opened where there is none. -/
def Dev.openStep (d : Dev) (i step : Nat) : Dev :=
  match d.table i with
  | none => d
  | some t => if (t.buf step).isSome then d else d.updTable i fun t => { t with steps := t.steps ++ [{ step := step, firstAt := d.now }] }

/-- The answer to one node's marker (R353): at the node itself, its request goes on. -/
def Dev.stepAnswer (d : Dev) (e : StepEnd) (timedOut dropped : Bool) : Dev :=
  if e.slot = d.mt.slot then
    match d.em.jobs.find? fun p => p.2.op == 0x33 && p.2.desc == e.desc && p.2.out.any fun o => o.1 == e.slot with
    | some p => (d.updEmb p.1 fun j => { j with
        out := j.out.filter fun o => o.1 != e.slot, timeouts := j.timeouts + ofBool timedOut
        dropped := j.dropped + ofBool dropped }) |> (fun d => if dropped then d.addFail p.1 ST_NV_BLOCKED else d) |>.embEnd p.1
    | none => d
  else d.embSend e.slot e.desc e.bib e.gen 1 (if dropped then ST_NV_BLOCKED else ST_OK) 0
    (ofBool timedOut + ofBool dropped * 2 ^ 32) []

/-- Markers of a step are answered, but those of a step that a migration of the table keeps waiting (R356). -/
def Dev.endMarkers (d : Dev) (i : Nat) (xs : List (Nat × Bool × Bool × StepEnd)) : Dev :=
  xs.foldl (fun d x =>
    match d.em.migs.find? fun p => p.2.table == i && p.2.steps.contains x.1 with
    | some p => d.setEm fun e => { e with migs := Tab.upd e.migs p.1 fun m => { m with late := m.late ++ [x] } }
    | none => d.stepAnswer x.2.2.2 x.2.1 x.2.2.1) d

/-- The answer of a migration's destination to forwarded changes (R356). -/
def Dev.lateAnswer (d : Dev) (slot num row : Nat) (dropped : Bool) : Dev :=
  d.embSend slot (tableDesc num 0) 0 0 1 (if dropped then ST_NV_BLOCKED else ST_OK) 0 0 (le 8 row)

/-- A step ends: its nodes are answered. -/
def Dev.stepOver (d : Dev) (i : Nat) (s : StepBuf) (dropped : Bool) : Dev :=
  let num := match d.table i with | some t => t.num | none => 0
  let d := d.updTable i fun t => { t with steps := t.steps.filter fun x => x.step != s.step }
  match s.late with
  | none => d.endMarkers i (s.ends.map fun x => (s.step, s.timedOut, dropped, x))
  | some (slot, xs) =>
    if slot = d.mt.slot then d.endMarkers i (xs.map fun x => (x.1, x.2.1, x.2.2.1 || dropped, x.2.2.2))
    else d.lateAnswer slot num ((s.formed.map (·.1)).headD 0) dropped

/-- The rows of a step cut into parts that each fit a message (R469). -/
def Table.rowParts (t : Table) (rows : List (Nat × Bytes)) : List (List (Nat × Bytes)) :=
  let n := (relayMax - 96) / (8 + t.stride)
  (List.range (ceilDiv rows.length n)).map fun i => (rows.drop (i * n)).take n

/-- R352: the rows that HOME has written go to every copy; then the step waits for them. -/
def Dev.spread (d : Dev) (i : Nat) (t : Table) (s : StepBuf) : Dev :=
  let others := d.slots.filter fun m => m != d.mt.slot && d.memberLive m
  if !t.repl || others.isEmpty || s.formed.isEmpty then d.stepOver i s false
  else
    let (acks, d) := others.foldl (fun (acc : List Nat × Dev) m =>
      let d := (t.rowParts s.formed).foldl (fun d rows => d.embSend m (tableDesc t.num s.step) 0 0 2 0 0 0
        ((rows.map fun p => le 8 p.1).flatten ++ (rows.map fun p => p.2).flatten)) acc.2
      (acc.1 ++ [m * 2 ^ 40 + ((d.peer m).next - 1)], d)) ([], d)
    d.updStep i s.step fun s => { s with state := 2, acks := acks }

/-- A row is written whole (R350 step 5). -/
def Dev.writeRow (d : Dev) (t : Table) (row : Nat) (b : Bytes) : Dev :=
  let d : Dev := { d with fl := { d.fl with rows := Tab.put [] d.fl.rows (rowKey t.num row) b } }
  d.markDirty (tableTile t.num (t.tileOf row)) t.hint

/-- Table 14.7: the log of a migration is sent. -/
def Dev.sendLog (d : Dev) (n : Nat) : Dev :=
  match Tab.find d.em.migs n with
  | none => d
  | some m =>
    let (num, applied) := match d.table m.table with | some t => (t.num, t.applied) | none => (0, 0)
    (d.setEm fun e => { e with migs := Tab.upd e.migs n fun m => { m with state := 1, log := [], idle := false } }).embSend m.dst
      (tableDesc num applied) 0 0 5 0 0 0 (le 8 m.row ++ m.log.flatten)

/-- The step's journal program has ended (R351): the rows are written once their tiles have room among the dirty ones (R384),
and the migrations of rows that changed log them (Table 14.7). -/
def Dev.stepApplied (d : Dev) (i step : Nat) : Dev :=
  match d.table i with
  | none => d
  | some t =>
    match t.buf step with
    | none => d
    | some s =>
     if !d.dirtyFits ((s.formed.map fun p => tableTile t.num (t.tileOf p.1)).eraseDups) then d.updStep i step fun s => { s with state := 3 }
     else
      let d := s.formed.foldl (fun d p => d.writeRow t p.1 p.2) d
      let d := d.bump .EMB_DELTAS_COUNT s.count 0 i
      let note (m : Mig) : Mig :=
        { m with log := m.log ++ (s.formed.filter fun p => m.table == i && m.row == p.1 && decide (m.state ≤ 1)).map (·.2) }
      let d := d.setEm fun e => { e with migs := Tab.mapV e.migs fun _ m => note m }
      let d := (d.em.migs.filter fun p => p.2.idle && !p.2.log.isEmpty).foldl (fun d p => d.sendLog p.1) d
      if s.late.isSome then d.stepOver i s false else (d.updTable i fun t => { t with applied := step }).spread i t s

/-- The markers that a step has are those of every writer (R349). -/
def Dev.allMarked (d : Dev) (t : Table) (s : StepBuf) : Bool :=
  !s.ends.isEmpty && ((if d.mt.on then d.slots else [d.mt.slot]).filter (bit t.writers ·)).all fun m => s.ends.any fun e => e.slot == m

/-- A row as it will stand once the buffers that are being journalled are written. -/
def Dev.rowSoon (d : Dev) (t : Table) (row : Nat) : Bytes :=
  match ((t.steps.filter fun s => s.state == 1 || s.state == 3).flatMap fun s => s.formed.filter fun p => p.1 == row).getLast? with
  | some p => p.2
  | none => d.rowBytes t row

/-- A held change as forwarded: step, slot, kind, format, data. -/
def heldBytes (t : Table) (h : Nat × Change) : Bytes :=
  le 4 h.1 ++ le 1 h.2.from_ ++ le 1 (ofBool h.2.set) ++ le 1 h.2.fmt ++ le 1 0
    ++ fit (if h.2.set then t.stride else t.elems * wordBytes h.2.fmt) h.2.data

/-- Changes of one row go to its new owner (Table 14.7). -/
def Dev.forwardRow (d : Dev) (t : Table) (slot row : Nat) (hs : List (Nat × Change)) : Dev :=
  d.embSend slot (tableDesc t.num 0) 0 0 2 0 0 0 (le 8 row ++ (hs.map (heldBytes t)).flatten)

/-- Table 14.7, R356: the changes of a step that belong to rows on their way, or gone, to another node: a migration in HOLD
keeps them, one in DRAIN forwards them, and those of a row that has left are forwarded to its owner, whose answer the step awaits too. -/
def Dev.holdRows (d : Dev) (i step : Nat) (t : Table) (hs : List Change) : Dev :=
  ((hs.map (·.row)).eraseDups).foldl (fun d row =>
    let mine := (hs.filter fun c => c.row == row).map fun c => (step, c)
    match d.em.migs.find? fun p => p.2.table == i && p.2.row == row && 2 ≤ p.2.state with
    | some (n, m) =>
      let d := d.setEm fun e => { e with migs := Tab.upd e.migs n fun m =>
        { m with held := m.held ++ mine, steps := m.steps ++ [step], unacked := m.unacked + m.state - 2 } }
      if m.state = 3 then d.forwardRow t m.dst row mine else d
    | none =>
      let dst := d.rowOwner t row
      let (n, d) := d.newId
      let m : Mig := { table := i, row := row, dst := dst, state := 3, started := d.now, held := mine, steps := [step], unacked := 1, tail := true }
      (d.setEm fun e => { e with migs := Tab.ins e.migs n m }).forwardRow t dst row mine) d

/-- R350 step 3: the order of a step's changes: by node slot; of one node, what the row's former owner forwarded first. -/
def changeOrder (cs : List Change) : List Change :=
  sortBy (fun (a b : Change) => a.from_ < b.from_ || (a.from_ == b.from_ && a.fwd && !b.fwd)) cs

/-- R421: a step whose journal no target could take is refused; its changes are discarded. -/
def Dev.refuseStep (d : Dev) (i : Nat) (s : StepBuf) : Dev :=
  let d := d.updTable i fun t => { t with applied := s.step, steps := t.steps.filter fun x => x.step != s.step }
  s.ends.foldl (fun d e =>
    if e.slot != d.mt.slot then d.embSend e.slot e.desc e.bib e.gen 1 ST_REFUSED_RESOURCE 0 7 []
    else match d.em.jobs.find? fun p => p.2.op == 0x33 && p.2.desc == e.desc && p.2.out.any fun o => o.1 == e.slot with
      | some p => ((d.embFail p.1 ST_REFUSED_RESOURCE 7).updEmb p.1 fun j => { j with out := j.out.filter fun o => o.1 != e.slot }).embEnd p.1
      | none => d) d

/-- R349 to R351: a step that may close does: with every marker, or once STEP_TO_US have passed. -/
def Dev.closeStep (d : Dev) (i step : Nat) : Dev :=
  match d.table i with
  | none => d
  | some t =>
    match t.buf step with
    | none => d
    | some s =>
      let timeout := s.firstAt + d.em.stepTo * 1000 ≤ d.now
      if s.state != 0 || step != (t.applied + 1) % 2 ^ 32 || !(timeout || d.allMarked t s) then d
      else
        let late := !d.allMarked t s
        let d := if late then d.bump .EMB_TOSTEP_COUNT 1 0 i else d
        let gone (c : Change) : Bool := (d.em.migs.any fun p => p.2.table == i && p.2.row == c.row && 2 ≤ p.2.state)
          || (!t.repl && d.rowOwner t c.row != d.mt.slot)
        let cs := changeOrder s.changes
        if !cs.isEmpty && d.rg .FTL_SUPPLY_NVLOW = 1 then
          let d := (d.bump .EMB_NVBLK_COUNT 1 0 i).bump .FTL_NVBLK_COUNT
          (d.updTable i fun t => { t with applied := step }).stepOver i { s with timedOut := late } true
        else if !(cs.filter fun c => !gone c).isEmpty && (d.writables false).isEmpty then d.refuseStep i s
        else
        let d := d.holdRows i step t (cs.filter gone)
        let cs := cs.filter fun c => !gone c
        if cs.isEmpty then
          let s := { s with timedOut := late }
          (d.updTable i fun t => { t with applied := step }).stepOver i s false
        else
          let rows := (cs.map (·.row)).eraseDups
          let formed := rows.map fun r => (r, t.formRow (d.rowSoon t r) (cs.filter fun c => c.row == r))
          let d := d.updStep i step fun s => { s with state := 1, timedOut := late, formed := formed, count := cs.length }
          let n := max 1 (ceilDiv (sum (formed.map fun p => 8 + p.2.length)) 65536)
          d.program (.stepJournal t.num step) none n (formed.map fun p => le 8 p.1 ++ p.2).flatten false

/-- Every step of a table that may close closes, in order; by fuel. -/
def Dev.closeSteps : Nat → Dev → Nat → Dev
  | 0, d, _ => d
  | f + 1, d, i =>
    match d.table i with
    | none => d
    | some t =>
      let n := (t.applied + 1) % 2 ^ 32
      let d1 := d.closeStep i n
      match d1.table i with
      | some t1 => if t1.applied = n then Dev.closeSteps f d1 i else d1
      | none => d1

/-- The journal program of a step has ended: its record stands in the journal. -/
def Dev.stepRecorded (d : Dev) (num step : Nat) (o : FOp) : Dev :=
  match ((d.tableIdx num).bind d.table).bind fun t => t.buf step with
  | none => d
  | some s =>
    let rec_ : SRec := { table := num, step := step, shares := s.formed.map fun p => (p.1, true, p.2), tiles := o.tiles
                         target := o.target, blk := o.blk }
    { d with fl := { d.fl with steps := d.fl.steps ++ [rec_] } }

/-- R384: a write-back has ended: the steps that waited for room are applied. -/
def Dev.stepsGo (d : Dev) : Dev :=
  (Tab.keys d.em.tables).foldl (fun d i =>
    let ws : List StepBuf := match d.table i with | some t => t.steps.filter fun s => s.state == 3 | none => []
    ws.foldl (fun d s => (d.stepApplied i s.step).closeSteps 4 i) d) d

/-- The step is then applied, and the next may close. -/
def Dev.stepDurable (d : Dev) (num step : Nat) (o : FOp) : Dev :=
  match d.tableIdx num with
  | none => d
  | some i =>
    if ((d.table i).bind fun t => t.buf step).isNone then d
    else ((d.stepRecorded num step o).stepApplied i step).closeSteps 4 i

/-- R352, R353: copies that have installed their rows, as their acknowledgements show, or are lost. -/
def Dev.settleSteps (d : Dev) : Dev :=
  d.em.tables.foldl (fun d p => p.2.steps.foldl (fun d s =>
    if s.state = 2 && !(s.acks.any fun a => d.memberLive (a / 2 ^ 40)
        && (d.peer (a / 2 ^ 40)).unacked.any fun u => u.kind == K_EMBED && u.seq ≤ a % 2 ^ 40) then d.stepOver p.1 s false
    else d) d) d

/-- Rows of journal records whose tiles the flash holds leave, and with its last row the record (R351). -/
def Dev.trimSteps (d : Dev) : Dev :=
  let trimmed := d.fl.steps.filterMap fun s =>
    match (d.tableIdx s.table).bind d.table with
    | some t => some { s with shares := s.shares.filter fun p => (d.tile (tableTile t.num (t.tileOf p.1))).dirty.isSome }
    | none => none
  { d with fl := { d.fl with steps := trimmed.filter fun s => !s.shares.isEmpty } }

/-- The flash copy of a table's tile is written (R389). -/
def Dev.homeRows (d : Dev) (key : Nat) : Dev :=
  if key < 2 ^ 50 || 2 ^ 59 ≤ key then d
  else
    let num := (key - 2 ^ 50) / 2 ^ 40
    match (d.tableIdx num).bind d.table with
    | none => d
    | some t =>
      let mine := d.fl.rows.filter fun p => p.1 / 2 ^ 40 == num && t.tileOf (p.1 % 2 ^ 40) == key % 2 ^ 40
      let d : Dev := { d with fl := { d.fl with rowHome := mine.foldl (fun h p => Tab.ins h p.1 p.2) d.fl.rowHome } }
      d.trimSteps

/-- Changes enter a step (R347). -/
def Dev.addChanges (d : Dev) (i step : Nat) (cs : List Change) : Dev :=
  (d.openStep i step).updStep i step fun s => { s with changes := s.changes ++ cs }

/-- The changes of an UPDATE or ROW_SET: row numbers and data. -/
def readChanges (t : Table) (slot op dfmt : Nat) (idx : List Nat) (data : Bytes) : List Change :=
  let n := if op = 0x32 then t.stride else t.elems * wordBytes dfmt
  (idx.foldl (fun (acc : List Change × Bytes) row =>
    (acc.1 ++ [{ from_ := slot, row := row, set := op = 0x32, fmt := dfmt, data := acc.2.take n }], acc.2.drop n)) ([], data)).1

/-- An owner takes changes, or refuses them all (Table 14.5). -/
def Dev.acceptChanges (d : Dev) (i slot step : Nat) (cs : List Change) : Option (Nat × Nat) × Dev :=
  match d.table i with
  | none => (some (ST_REFUSED_RESOURCE, 1), d)
  | some t =>
    match pickFail (d.stepFails t slot step (sum (cs.map fun c => c.data.length))) with
    | some (st, res) => (some (st, res), if st = ST_STALE_EPOCH then d.bump .EMB_STALE_COUNT 1 0 i else d)
    | none => (none, d.addChanges i step cs)

/-- A marker reaches an owner (R348). -/
def Dev.acceptEnd (d : Dev) (i step : Nat) (e : StepEnd) : Option (Nat × Nat) × Dev :=
  match d.table i with
  | none => (some (ST_REFUSED_RESOURCE, 1), d)
  | some t =>
    match pickFail (d.stepFails t e.slot step 0) with
    | some (st, res) => (some (st, res), d)
    | none =>
      let d := (d.openStep i step).updStep i step fun s => { s with ends := s.ends ++ [e] }
      (none, d.closeSteps 4 i)

/-! ## Requests at the admitting node (R341 to R348) -/

/-- The slot and positions of rows by owner, in order of first need. -/
def byOwner (own : Nat → Nat) (idx : List Nat) : List (Nat × List Nat) :=
  let ps := (List.range idx.length).map fun i => (own (idx.getD i 0), i)
  (ps.map (·.1)).eraseDups.map fun s => (s, (ps.filter fun p => p.1 == s).map (·.2))

/-- Row requests go to their owners (R343). -/
def Dev.sendLookup (d : Dev) (r : Nat) (j : EmbJob) (t : Table) : Dev :=
  match Tab.find d.reqs r with
  | none => d
  | some q =>
    let parts := byOwner (d.readOwner t) j.idx
    let mine := (parts.filter fun p => p.1 == d.mt.slot).flatMap (·.2)
    let rest := parts.filter fun p => p.1 != d.mt.slot
    let dead := rest.any fun p => !d.memberLive p.1
    let rest := rest.filter fun p => d.memberLive p.1
    let d := d.updEmb r fun j => { j with
      sent := true, own := !mine.isEmpty, out := rest, remote := sum (rest.map fun p => p.2.length) }
    let d := if dead then d.embFail r ST_TIMEOUT 0 else d
    let d := rest.foldl (fun d p =>
      d.embSend p.1 j.desc (q.bib.getD 0xFFFF) q.gen 0 0 0 0 (p.2.map fun i => le 8 (j.idx.getD i 0)).flatten) d
    let d := if mine.isEmpty then d else d.startGather (.req r) j.table (mine.map fun i => (i, j.idx.getD i 0))
    d.embEnd r

/-- Changes go to their owners (R347). -/
def Dev.sendChanges (d : Dev) (r : Nat) (j : EmbJob) (t : Table) : Dev :=
  match Tab.find d.reqs r with
  | none => d
  | some q =>
    let dfmt := u8 q.desc 0x12
    let step := u32 q.desc 0x18
    let data := Tab.get [] j.parts 1
    let n := if j.op = 0x32 then t.stride else t.elems * wordBytes dfmt
    let parts := byOwner (d.rowOwner t) j.idx
    let mine := (parts.filter fun p => p.1 == d.mt.slot).flatMap (·.2)
    let rest := parts.filter fun p => p.1 != d.mt.slot
    let dead := rest.any fun p => !d.memberLive p.1
    let rest := rest.filter fun p => d.memberLive p.1
    let piece (ps : List Nat) : Bytes := (ps.map fun i => sub data (i * n) n).flatten
    let d := d.updEmb r fun j => { j with
      sent := true, out := rest }
    let d := if dead then d.embFail r ST_TIMEOUT 0 else d
    let d := rest.foldl (fun d p => d.embSend p.1 j.desc (q.bib.getD 0xFFFF) q.gen 0 0 0 0
      ((p.2.map fun i => le 8 (j.idx.getD i 0)).flatten ++ piece p.2)) d
    let d :=
      if mine.isEmpty then d
      else
        let (bad, d) := d.acceptChanges j.table d.mt.slot step
          (readChanges t d.mt.slot j.op dfmt (mine.map fun i => j.idx.getD i 0) (piece mine))
        match bad with
        | some f => d.embFail r f.1 f.2
        | none => d
    d.embEnd r

/-- The buffers of a request are all here: index and bag refusals (Table 14.5), then the rows are asked for. Changes of
one table go in admission order (R350). -/
def Dev.embBuffers (d : Dev) (r : Nat) : Dev :=
  match d.embJob r, Tab.find d.reqs r with
  | some j, some q =>
    match d.table j.table with
    | none => d.complete r ST_REFUSED_RESOURCE 1
    | some t =>
      let nidx := u32 q.desc 0x14
      let idx := (List.range nidx).map fun i => u64 (Tab.get [] j.parts 0) (8 * i)
      let bad := findIdx? (fun x => t.rows ≤ x) idx
      let bags := u16 q.desc 0x18
      let starts := (List.range bags).map fun i => u32 (Tab.get [] j.parts 2) (4 * i)
      let badBags := j.op = 0x30 && u8 q.desc 0x12 = 1
        && (starts.headD 0 != 0 || (starts.zip (starts.drop 1)).any (fun p => p.2 < p.1) || starts.any (nidx < ·))
      d.checked r (q.pre ++ (match bad with | some p => [(ST_BAD_DESC, p)] | none => []) ++ failIf badBags ST_BAD_DESC) fun d =>
        let d := d.updEmb r fun j => { j with idx := idx }
        if j.op = 0x30 then d.sendLookup r { j with idx := idx } t else d
  | _, _ => d

/-- Changes of a table that may go, in admission order; by fuel. -/
def Dev.embPump : Nat → Dev → Dev
  | 0, d => d
  | f + 1, d =>
    let live (p : Nat × EmbJob) : Bool := (match Tab.find d.reqs p.1 with | some q => q.live | none => false)
    let cs := d.em.jobs.filter fun p => (p.2.op == 0x31 || p.2.op == 0x32) && !p.2.sent && live p
    let first (p : Nat × EmbJob) : Bool := cs.all fun x => x.2.table != p.2.table || p.2.order ≤ x.2.order
    match cs.find? fun p => first p && !p.2.idx.isEmpty with
    | none => d
    | some p =>
      match d.table p.2.table with
      | some t => Dev.embPump f (d.sendChanges p.1 p.2 t)
      | none => Dev.embPump f (d.complete p.1 ST_REFUSED_RESOURCE 1)

/-- A buffer of an embedding request has arrived. -/
def Dev.embData (d : Dev) (r slot : Nat) (b : Bytes) : Dev :=
  let d := d.updEmb r fun j => { j with parts := Tab.ins j.parts slot b }
  match Tab.find d.reqs r with
  | none => d
  | some q =>
    if q.dmas != 0 then d
    else if !q.fails.isEmpty then Dev.embPump (d.em.jobs.length + 1) (d.finish r ST_OK)
    else
      let d := d.embBuffers r
      Dev.embPump (d.em.jobs.length + 1) d

/-- R348: the nodes that own rows of a table: the homes of its tiles, and where redirects have taken rows. A sharded table of 4,096
tiles has one at every home of R337, since its hash spreads consecutive tiles evenly. -/
def Dev.ownersOf (d : Dev) (t : Table) : List Nat :=
  let homes := if 4096 ≤ t.tiles then d.slots else ((List.range t.tiles).map (homeOf d.slots t.num)).eraseDups
  d.slots.filter fun m => homes.contains m || d.em.redirs.any fun p => p.1 / 2 ^ 40 == t.num && (p.2.slot == m || p.2.prev == m)

/-- The marker of STEP_END goes to every owner of rows (R348). -/
def Dev.sendEnd (d : Dev) (r : Nat) (q : Req) (j : EmbJob) (t : Table) : Dev :=
  let owners := if !d.mt.on then [d.mt.slot] else if t.repl then [t.home] else d.ownersOf t
  let dead := owners.any fun m => m != d.mt.slot && !d.memberLive m
  let owners := owners.filter fun m => m = d.mt.slot || d.memberLive m
  let d := d.updEmb r fun j => { j with
    sent := true, out := owners.map fun m => (m, []) }
  let d := if dead then d.embFail r ST_TIMEOUT 0 else d
  let d := (owners.filter (· != d.mt.slot)).foldl (fun d m => d.embSend m j.desc (q.bib.getD 0xFFFF) q.gen 3 0 0 0 []) d
  let d :=
    if owners.contains d.mt.slot then
      let (bad, d) := d.acceptEnd j.table (u32 q.desc 0x18) { slot := d.mt.slot, desc := j.desc, bib := q.bib.getD 0xFFFF, gen := q.gen }
      match bad with
      | some f => (d.embFail r f.1 f.2).updEmb r fun j => { j with out := j.out.filter fun o => o.1 != d.mt.slot }
      | none => d
    else d
  d.embEnd r

/-- Payload bytes that a descriptor of the family uses (Table 14.4). -/
def embUsed (op : Nat) : List (Nat × Nat) :=
  match op with
  | 0x30 => [(0x10, 2), (0x12, 1), (0x13, 1), (0x14, 4), (0x18, 2), (0x1A, 1), (0x1C, 4), (0x20, 32)]
  | 0x33 => [(0x10, 2), (0x18, 4)]
  | _ => [(0x10, 2), (0x12, 1), (0x14, 4), (0x18, 4), (0x20, 16)]

/-- A field out of range, an unaligned address, a buffer too small (Table 14.5). -/
def embBad (x : Bytes) (t : Option Table) : Bool :=
  let op := u8 x 0
  let nidx := u32 x 0x14
  let n := 1 ≤ nidx && nidx ≤ 65536
  let al (o : Nat) : Bool := u64 x o % 64 = 0
  if op = 0x30 then
    let mode := u8 x 0x12
    let wf := u8 x 0x13
    let bags := u16 x 0x18
    let ofmt := u8 x 0x1A
    let need := match t with
      | some t => if mode = 0 then nidx * t.outStride else bags * (ceilDiv (elemBytes ofmt t.elems) 64 * 64)
      | none => 0
    !(n && mode ≤ 1 && wf ≤ 2 && al 0x20 && al 0x28 && al 0x30 && al 0x38 && (wf != 0 || u64 x 0x28 = 0)
      && (if mode = 0 then bags = 0 && ofmt = 0 && u64 x 0x30 = 0 else 1 ≤ bags && bags ≤ 4096 && (ofmt = 12 || ofmt = 10))
      && need ≤ u32 x 0x1C)
  else if op = 0x33 then false
  else !(n && (if op = 0x31 then u8 x 0x12 = 12 || u8 x 0x12 = 10 else u8 x 0x12 = 0) && al 0x20 && al 0x28)

/-- An embedding request is admitted (R341, R342). -/
def Dev.embAdmit (d : Dev) (r : Nat) (q : Req) : Dev :=
  let op := u8 q.desc 0
  let i := d.tableIdx (u16 q.desc 0x10)
  let t := i.bind d.table
  let kind2 := match d.part q.part with | some p => p.kind == 2 | none => false
  let writer := match t with | some t => bit t.writers d.mt.slot | none => true
  d.checkedRead r (failIf (!payloadOk (embUsed op) q.desc || embBad q.desc t) ST_BAD_DESC
      ++ failIf d.meetFenced ST_FENCED ++ failIf (op != 0x30 && !writer) ST_NOT_OWNER
      ++ failIf t.isNone ST_REFUSED_RESOURCE 1 ++ failIf (!kind2) ST_REFUSED_RESOURCE 8) fun d =>
    let fails := match Tab.find d.reqs r with | some q => q.pre | none => []
    match i, t with
    | some i, some t =>
     if op = 0x33 && !fails.isEmpty then d.checked r fails id
     else
      let j : EmbJob := { op := op, table := i, order := d.em.order, desc := q.desc }
      let d := d.setEm fun e => { e with order := e.order + 1, jobs := Tab.ins e.jobs r j }
      let nidx := u32 q.desc 0x14
      if op = 0x33 then d.sendEnd r q j t
      else
        let d := d.dmaRead r 0 (u64 q.desc 0x20) (nidx * 8)
        let d :=
          if op = 0x30 then
            let d := if u8 q.desc 0x13 = 0 then d else d.dmaRead r 1 (u64 q.desc 0x28) (nidx * (if u8 q.desc 0x13 = 2 then 2 else 4))
            if u8 q.desc 0x12 = 1 then d.dmaRead r 2 (u64 q.desc 0x30) (u16 q.desc 0x18 * 4) else d
          else d.dmaRead r 1 (u64 q.desc 0x28)
            (nidx * (if op = 0x32 then t.stride else t.elems * wordBytes (u8 q.desc 0x12)))
        match Tab.find d.reqs r with
        | some q => if q.dmas = 0 && !q.fails.isEmpty then d.finish r ST_OK else d
        | none => d
    | _, _ => d.checked r fails id

/-- The gathering of a reranker's feature rows (R303, R346): a look-up made on a search's behalf. -/
def Dev.rerankRows (d : Dev) (r num : Nat) (idx : List (Nat × Nat)) : Dev :=
  match d.tableIdx num, Tab.find d.reqs r with
  | some i, some q =>
    match d.table i with
    | none => d
    | some t =>
      let desc := [0x30#8] ++ sub q.desc 1 15 ++ le 2 num ++ fill 2 0 ++ le 4 idx.length ++ fill 40 0
      let j : EmbJob := { op := 0x30, table := i, order := d.em.order, desc := desc, rerank := true, idx := idx.map (·.2) }
      let d := d.setEm fun e => { e with order := e.order + 1, jobs := Tab.ins e.jobs r j }
      d.sendLookup r j t
  | _, _ => d

/-! ## Migrations (R354 to R356) -/

def Dev.updMig (d : Dev) (n : Nat) (f : Mig → Mig) : Dev := d.setEm fun e => { e with migs := Tab.upd e.migs n f }

/-- The home of a row, by its number in the redirect table. -/
def Dev.homeOfKey (d : Dev) (key : Nat) : Nat :=
  match (d.tableIdx (key / 2 ^ 40)).bind d.table with
  | some t => homeOf d.slots t.num (t.tileOf (key % 2 ^ 40))
  | none => 0

/-- R355: the redirects of the meet: one to the row's home goes once it is in force. -/
def Dev.liveRedirs (d : Dev) : Tab Redir :=
  d.em.redirs.filter fun p => !(p.2.k ≤ d.curEpoch && p.2.slot == d.homeOfKey p.1)

/-- Rows of the meet that stand at a slot by redirect. -/
def Dev.redirsTo (d : Dev) (slot : Nat) : Nat := Tab.count d.liveRedirs fun x => x.slot == slot

/-- A row on its way here has arrived once its redirect is in force. -/
def Dev.arrived (d : Dev) (key : Nat) : Bool :=
  match Tab.find d.em.redirs key with
  | some x => x.slot == d.mt.slot && x.k ≤ d.curEpoch
  | none => false

/-- Rows on their way here (EMB_MIG.DST). -/
def Dev.coming (d : Dev) : Nat := (d.em.coming.filter fun c => !d.arrived c.2).length

/-- EMB_MIGIN.COUNT: rows whose switch epoch has come count as migrated in. -/
def Dev.settleComing (d : Dev) : Dev :=
  let (got, rest) := d.em.coming.partition fun c => d.arrived c.2
  let d := got.foldl (fun d c => match d.tableIdx (c.2 / 2 ^ 40) with | some i => d.bump .EMB_MIGIN_COUNT 1 0 i | none => d) d
  d.setEm fun e => { e with coming := rest, redirs := d.liveRedirs }

/-- Migrations in flight here, as source and as destination. -/
def Dev.migLoad (d : Dev) : Nat := (d.em.migs.filter fun p => !p.2.tail).length + d.coming

/-- A migration is abandoned: the row stays (Table 14.7). The destination learns it by a cancellation (log 131). One that its
destination has not answered counts as started now (log 130). -/
def Dev.abortMig (d : Dev) (n : Nat) : Dev :=
  match Tab.find d.em.migs n with
  | none => d
  | some m =>
    let d := ((d.setEm fun e => { e with migs := Tab.del e.migs n }).bump .EMB_ABORTED_COUNT).bump .EMB_STARTED_COUNT (ofBool (m.state = 0))
    match d.table m.table with
    | some t => d.embSend m.dst (tableDesc t.num 0) 0 0 7 0 0 0 (le 8 m.row ++ le 8 m.dst)
    | none => d

/-- R354: a migration of a row starts, or is denied. It counts as started once the destination, whose own limit decides too, has taken
the row (log 130). A full work reserve keeps it from starting (R383). -/
def Dev.startMig (d : Dev) (i row : Nat) (t : Table) : Dev :=
  let high := d.rg .EMB_CFG_MIG_HIGH
  let ms := d.mt.members.filter fun p => p.1 != d.mt.slot && p.2.state == 0 && p.2.elevel + 4 ≤ high
  match ms with
  | [] => d.bump .EMB_MIGDENY_COUNT
  | a :: rest =>
    let m := (rest.foldl (fun (b p : Nat × Member) => if p.2.elevel < b.2.elevel then p else b) a).1
    if !d.workRoom 1 then d
    else if d.migLoad ≥ d.rg .EMB_CFG_MIG_MAX || d.redirsTo m ≥ 65536 || d.liveRedirs.length ≥ 1048576 then d.bump .EMB_MIGDENY_COUNT
    else
      let (n, d) := d.newId
      let d := d.setEm fun e => { e with migs := Tab.ins e.migs n { table := i, row := row, dst := m, started := d.now } }
      d.embSend m (tableDesc t.num t.applied) 0 0 4 0 0 0 (le 8 row ++ d.rowBytes t row)

/-- The load level of a 1 ms window in which the partition's busiest resource was occupied for `busy` ns ("Hot rows"). -/
def windowLevel (busy : Nat) : Nat := min 15 (16 * min 1000000 busy / 1000000)

/-- LOAD_WINDOW_END (R354): the counts of the window are closed, and hot rows may move. -/
def Dev.windowEnd (d : Dev) (busy : Nat) : Dev :=
  let level := windowLevel busy
  let d := d.setEm fun e => { e with level := level }
  d.em.tables.foldl (fun d p =>
    let t := p.2
    let d := (d.setRg .EMB_LOAD_ROWS t.served 0 p.1).setRg .EMB_LEVEL_LEVEL level 0 p.1
    let d := d.updTable p.1 fun t => { t with served := 0, hot := [] }
    if !t.migrate || !d.mt.on || level < d.rg .EMB_CFG_MIG_HIGH then d
    else
      match t.hot.filter fun h => d.rowOwner t h.1 == d.mt.slot && !(d.em.migs.any fun m => m.2.table == p.1 && m.2.row == h.1) with
      | [] => d
      | a :: rest =>
        let h := rest.foldl (fun (b x : Nat × Nat) => if b.2 < x.2 then x else b) a
        if h.2 < d.rg .EMB_CFG2_MIG_MIN then d else d.startMig p.1 h.1 t) d

/-- Forwarded changes read back; by fuel. -/
def readHeld (t : Table) (row : Nat) : Nat → Bytes → List (Nat × Change)
  | 0, _ => []
  | f + 1, b =>
    if b.length < 8 then []
    else
      let set := u8 b 5 = 1
      let fmt := u8 b 6
      let n := if set then t.stride else t.elems * wordBytes fmt
      (u32 b 0, { from_ := u8 b 4, row := row, set := set, fmt := fmt, data := sub b 8 n, fwd := true }) :: readHeld t row f (b.drop (8 + n))

/-- R356, R351: changes of a row for steps that are closed here, in step order: the row is formed and journalled, then
written. `slot` forwarded them; after a cancellation it is this node's own, and `ends` the markers that wait for them. -/
def Dev.applyLate (d : Dev) (i row : Nat) (hs : List (Nat × Change)) (slot : Nat) (ends : List (Nat × Bool × Bool × StepEnd)) : Dev :=
  match d.table i with
  | none => d
  | some t =>
    let steps := (hs.map (·.1)).eraseDups
    let (n, d) := d.newId
    let s : StepBuf := { step := 2 ^ 32 * (n + 1), firstAt := d.now, state := 1, count := hs.length, late := some (slot, ends) }
    if hs.isEmpty then d.stepOver i { s with formed := [(row, [])] } false
    else if d.rg .FTL_SUPPLY_NVLOW = 1 then (d.bump .EMB_NVBLK_COUNT 1 0 i).stepOver i { s with formed := [(row, [])] } true
    else
      let b := steps.foldl (fun b x => t.formRow b ((hs.filter fun h => h.1 == x).map (·.2))) (d.rowSoon t row)
      let d := d.updTable i fun t => { t with steps := t.steps ++ [{ s with formed := [(row, b)] }] }
      d.program (.stepJournal t.num s.step) none 1 (le 8 row ++ b) false

/-- A migration ends with a cancellation: the held changes are applied here in step order. -/
def Dev.cancelMig (d : Dev) (n : Nat) : Dev :=
  match Tab.find d.em.migs n with
  | none => d
  | some m =>
    ((d.setEm fun e => { e with migs := Tab.del e.migs n }).bump .EMB_ABORTED_COUNT).applyLate m.table m.row m.held d.mt.slot m.late

/-- MIGRATION_TIMEOUT (Table 14.7): 1 ms since the start in COPY or REPLAY. -/
def Dev.migTimeout (d : Dev) (n : Nat) : Dev :=
  match Tab.find d.em.migs n with
  | none => d
  | some m => if m.state ≤ 1 && m.started + 1000000 ≤ d.now then d.abortMig n else d

/-- A redirect is installed; one that names the row's home goes (R355). -/
def Dev.setRedir (d : Dev) (t : Table) (row slot k : Nat) : Dev :=
  let prev := d.rowOwner t row
  d.setEm fun e => { e with redirs := Tab.ins e.redirs (rowKey t.num row) { slot := slot, k := k, prev := prev } }

/-- A redirect that was announced is withdrawn: the row's owner is the one before (Table 14.7, R356). -/
def Dev.undoRedir (d : Dev) (key slot : Nat) : Dev :=
  match Tab.find d.em.redirs key with
  | some x =>
    if x.slot != slot then d
    else if x.prev = d.homeOfKey key then d.setEm fun e => { e with redirs := Tab.del e.redirs key }
    else d.setEm fun e => { e with redirs := Tab.ins e.redirs key { slot := x.prev, k := 0, prev := x.prev } }
  | none => d

/-- The changes of a row in the open steps of its table leave them. -/
def Dev.takeOpen (d : Dev) (i row : Nat) : List (Nat × Change) × Dev :=
  let cs := match d.table i with
    | some t => t.steps.flatMap fun s =>
      if s.state = 0 then (changeOrder (s.changes.filter fun c => c.row == row)).map fun c => (s.step, c) else []
    | none => []
  (cs, d.updTable i fun t => { t with steps := t.steps.map fun s =>
    if s.state = 0 then { s with changes := s.changes.filter fun c => c.row != row } else s })

/-- MIGRATION_SWITCH (Table 14.7): epoch k is current; the held changes go to the destination, and the row drains here. At any
other member, the rows whose epoch has come have arrived. -/
def Dev.migSwitch (d : Dev) (n : Nat) : Dev :=
  let d := d.settleComing
  match Tab.find d.em.migs n with
  | none => d
  | some m =>
    match d.table m.table with
    | none => d
    | some t =>
      if m.state != 2 || d.curEpoch < m.k then d
      else
        let d := d.bump .EMB_MIGOUT_COUNT 1 0 m.table
        let (more, d) := d.takeOpen m.table m.row
        let hs := m.held ++ more
        let d := d.updMig n fun m => { m with state := 3, held := hs, unacked := if hs.isEmpty then 0 else 1 }
        if hs.isEmpty then d.endDrains else d.forwardRow t m.dst m.row hs

/-! ## EMBED frames -/

/-- R340: a marker whose step is discarded completes with ST_FENCED; at this node its request has ended. -/
def Dev.fenceMarker (d : Dev) (e : StepEnd) : Dev :=
  if e.slot = d.mt.slot then d else d.embSend e.slot e.desc e.bib e.gen 1 ST_FENCED 0 0 []

/-- R340: a migration in flight aborts; one whose switch has been announced is cancelled, while one that has switched is
complete. -/
def Dev.stopMig (d : Dev) (n : Nat) : Dev :=
  match Tab.find d.em.migs n with
  | none => d
  | some m =>
    let d := m.late.foldl (fun d x => d.fenceMarker x.2.2.2) d
    if m.state ≤ 1 then d.abortMig n
    else
      let d := d.setEm fun e => { e with migs := Tab.del e.migs n }
      match d.table m.table with
      | some t =>
        if m.state = 3 then d
        else
          let d := d.relayAll K_EMBED (embFrame (tableDesc t.num 0) 0 0 7 0 0 0 (le 8 m.row ++ le 8 m.dst)) fun x => x.state == 0
          (d.undoRedir (rowKey t.num m.row) m.dst).bump .EMB_ABORTED_COUNT
      | none => d

/-- R340: the open steps of every table are discarded: the nodes that await them get ST_FENCED. -/
def Dev.stopSteps (d : Dev) : Dev :=
  let d := d.em.tables.foldl (fun d p => p.2.steps.foldl (fun d s =>
    let d := s.ends.foldl Dev.fenceMarker d
    match s.late with
    | some (slot, xs) =>
      if slot = d.mt.slot then xs.foldl (fun d x => d.fenceMarker x.2.2.2) d
      else d.embSend slot (tableDesc p.2.num 0) 0 0 1 ST_FENCED 0 0 (le 8 ((s.formed.map (·.1)).headD 0))
    | none => d) d) d
  d.setEm fun x => { x with tables := Tab.mapV x.tables fun _ t => { t with steps := [] }, installs := [] }

/-- A response at the node that asked. -/
def Dev.embResponse (d : Dev) (src : Nat) (b : Bytes) : Dev :=
  let desc := b.take 64
  let status := u8 b 0x45
  let result := un 16 b 0x50
  let data := b.drop 0x60
  if u8 desc 0 = 0 then
    -- an answer of a migration's destination
    match (d.tableIdx (u16 desc 0x10)) with
    | none => d
    | some i =>
      match d.em.migs.find? fun p => p.2.table == i && p.2.dst == src && p.2.row == u64 data 0, d.table i with
      | some (n, m), some t =>
        if m.state = 3 && status = ST_FENCED then
          (m.late.foldl (fun d x => d.fenceMarker x.2.2.2) (d.setEm fun e => { e with migs := Tab.del e.migs n })).endDrains
        else if m.state = 3 then
          let drop := status == ST_NV_BLOCKED
          let late := m.late.map fun x => (x.1, x.2.1, x.2.2.1 || drop, x.2.2.2)
          if m.unacked ≤ 1 then
            ((d.updMig n fun m => { m with unacked := 0, held := [], steps := [], late := [] }).endMarkers i late).endDrains
          else d.updMig n fun m => { m with unacked := m.unacked - 1, late := late }
        else if status != ST_OK then (d.setEm fun e => { e with migs := Tab.del e.migs n }).bump .EMB_MIGDENY_COUNT
        else if m.state = 0 || (m.state = 1 && !m.log.isEmpty) then
          (d.bump .EMB_STARTED_COUNT (ofBool (m.state = 0))).sendLog n
        else if m.state = 1 && (t.steps.any fun s => (s.state == 1 || s.state == 3) && s.formed.any fun p => p.1 == m.row) then
          d.updMig n fun m => { m with idle := true }
        else if m.state = 1 then
          let k := d.curEpoch + d.em.lead
          let d := d.updMig n fun m => { m with state := 2, k := k }
          let d := d.relayAll K_EMBED (embFrame (tableDesc t.num 0) 0 0 6 0 (k % 4294967296) 0 (le 8 m.row ++ le 8 m.dst)) fun x => x.state == 0
          d.setRedir t m.row m.dst k
        else d
      | _, _ => d
  else
    match d.em.jobs.find? fun p => p.2.desc == desc && (p.2.out.any fun o => o.1 == src) with
    | none => d
    | some (r, j) =>
      let ps := match j.out.find? fun o => o.1 == src with | some o => o.2 | none => []
      let d := d.updEmb r fun j => { j with out := j.out.filter fun o => o.1 != src }
      let d :=
        if status != ST_OK && !(j.op = 0x33 && status = ST_NV_BLOCKED) then
          d.embFail r status (result % 2 ^ 64)
        else if j.op = 0x30 then
          match d.table j.table with
          | some t => d.updEmb r fun j => { j with
              misses := j.misses + bits result 47 32
              rows := (ps.zip (chunks t.stride ps.length data)).foldl (fun rs p => Tab.ins rs p.1 p.2) j.rows }
          | none => d
        else if j.op = 0x33 then (if status = ST_NV_BLOCKED then d.addFail r status else d).updEmb r fun j => { j with
            timeouts := j.timeouts + bits result 31 0, dropped := j.dropped + bits result 47 32 }
        else d
      d.embEnd r

/-- R343: the partition that serves remote rows; look-ups of other nodes are refused where it is not of kind 2, as those of a bib in
such a partition are: DEDUCED (log 150). -/
def Dev.embPart (d : Dev) : Bool := match d.part (d.rg .EMB_CFG_PART) with | some p => p.kind == 2 | none => false

/-- A request of another node at an owner. -/
def Dev.embRequest (d : Dev) (src : Nat) (b : Bytes) : Dev :=
  let desc := b.take 64
  let bib := u16 b 0x40
  let gen := u16 b 0x42
  let data := b.drop 0x60
  let answer (st res : Nat) (d : Dev) : Dev := d.embSend src desc bib gen 1 st 0 res []
  if d.meetFenced then answer ST_FENCED 0 d
  else
    match d.tableIdx (u16 desc 0x10) with
    | none => answer ST_REFUSED_RESOURCE 1 d
    | some i =>
      match d.table i with
      | none => d
      | some t =>
        let op := u8 desc 0
        if op = 0x30 && !d.embPart then answer ST_REFUSED_RESOURCE 8 d
        else if op = 0x30 then
          let idx := (List.range (data.length / 8)).map fun k => u64 data (8 * k)
          d.startGather (.relay src desc bib gen) i ((List.range idx.length).map fun k => (k, idx.getD k 0))
        else
          let dfmt := u8 desc 0x12
          let len := if op = 0x32 then t.stride else t.elems * wordBytes dfmt
          let n := data.length / (8 + len)
          let idx := (List.range n).map fun k => u64 data (8 * k)
          let cs := readChanges t src op dfmt idx (data.drop (8 * n))
          let (bad, d) := d.acceptChanges i src (u32 desc 0x18) cs
          match bad with
          | some (st, res) => answer st res d
          | none => answer ST_OK 0 d

/-- The rows that a payload of KIND 2, 4 or 5 writes here, with their contents. -/
def rowsSent (t : Table) (b : Bytes) : List (Nat × Bytes) :=
  let data := b.drop 0x60
  if u8 b 0x44 = 2 then
    let n := data.length / (8 + t.stride)
    (List.range n).map fun x => (u64 data (8 * x), sub data (8 * n + x * t.stride) t.stride)
  else
    let n := (data.length - 8) / max 1 t.stride
    if n = 0 then [] else [(u64 data 0, sub data (8 + (n - 1) * t.stride) t.stride)]

/-- R352, R355, R384: rows sent here are written, in order, while their tiles have room among the dirty ones; a migration's source is then
answered, and a copy has installed the step. By fuel. -/
def Dev.installGo : Nat → Dev → Dev
  | 0, d => d
  | f + 1, d =>
    match d.em.installs with
    | [] => d
    | (src, b) :: rest =>
      let done := d.setEm fun e => { e with installs := rest }
      match (d.tableIdx (u16 b 0x10)).bind fun i => (d.table i).map fun t => (i, t) with
      | none => Dev.installGo f done
      | some (i, t) =>
        let rs := rowsSent t b
        if !d.dirtyFits ((rs.map fun p => tableTile t.num (t.tileOf p.1)).eraseDups) then d
        else
          let d := rs.foldl (fun d p => d.writeRow t p.1 p.2) done
          let d := if u8 b 0x44 = 2 then d.updTable i fun t => { t with applied := u32 b 0x18 }
            else d.embSend src (b.take 64) 0 0 1 ST_OK 0 0 (sub b 0x60 8)
          Dev.installGo f d

def Dev.install (d : Dev) (src : Nat) (b : Bytes) : Dev :=
  Dev.installGo (d.em.installs.length + 1) (d.setEm fun e => { e with installs := e.installs ++ [(src, b)] })

/-- EMBED at its receiver, by KIND (Table 19.9). -/
def Dev.onEmbed (d : Dev) (src : Nat) (b : Bytes) : Dev :=
  let desc := b.take 64
  let data := b.drop 0x60
  let row := u64 data 0
  match u8 b 0x44 with
  | 0 => d.embRequest src b
  | 1 => d.embResponse src b
  | 3 =>
    let e : StepEnd := { slot := src, desc := desc, bib := u16 b 0x40, gen := u16 b 0x42 }
    let answer (st res : Nat) (d : Dev) : Dev := d.embSend src desc e.bib e.gen 1 st 0 res []
    if d.meetFenced then answer ST_FENCED 0 d
    else
      match d.tableIdx (u16 desc 0x10) with
      | none => answer ST_REFUSED_RESOURCE 1 d
      | some i =>
        let (bad, d) := d.acceptEnd i (u32 desc 0x18) e
        match bad with
        | some (st, res) => answer st res d
        | none => d
  | k =>
    match d.tableIdx (u16 desc 0x10) with
    | none => d
    | some i =>
      match d.table i with
      | none => d
      | some t =>
        match k with
        | 2 =>
          if t.repl then d.install src b
          else
            let hs := readHeld t row (data.length + 1) (data.drop 8)
            let (late, now) := hs.partition fun h => !newer 32 h.1 t.applied || t.steps.any fun s => s.step == h.1 && s.state != 0
            (now.foldl (fun d h => d.addChanges i h.1 [h.2]) d).applyLate i row late src []
        | 4 =>
          if d.migLoad ≥ d.rg .EMB_CFG_MIG_MAX then d.embSend src desc 0 0 1 ST_REFUSED_RESOURCE 0 0 (le 8 row)
          else
            let d := d.setEm fun e => { e with coming := (src, rowKey t.num row) :: e.coming.filter fun c => c.2 != rowKey t.num row }
            d.install src b
        | 5 => d.install src b
        | 6 =>
          let dst := u64 data 8
          let d := d.setRedir t row dst (d.wholeEpoch (u32 b 0x48))
          d.settleComing
        | 7 => (d.undoRedir (rowKey t.num row) (u64 data 8)).setEm fun e => { e with
            coming := e.coming.filter fun c => c.2 != rowKey t.num row }
        | _ => d

/-- A slot is declared lost at t_L: requests that await it end with ST_TIMEOUT (R346), migrations to it end (R356): where the
loss is timed before epoch k, the source takes the row back, in DRAIN too. -/
def Dev.embLost (d : Dev) (slot tl : Nat) : Dev :=
  let js := d.em.jobs.filter fun p => p.2.out.any fun o => o.1 == slot
  let d := js.foldl (fun d p => (d.updEmb p.1 fun j => { j with
    out := j.out.filter fun o => o.1 != slot }) |>.embFail p.1 ST_TIMEOUT 0 |>.embEnd p.1) d
  let at_ (k : Nat) : Nat := (k - 4294967296) * d.ivl + d.pub
  let d := d.em.migs.foldl (fun d p =>
    if p.2.dst != slot then d
    else if p.2.state ≤ 1 then d.abortMig p.1
    else if tl < at_ p.2.k then
      match d.table p.2.table with
      | some t =>
        let d := d.relayAll K_EMBED (embFrame (tableDesc t.num 0) 0 0 7 0 0 0 (le 8 p.2.row ++ le 8 slot)) fun x => x.state == 0
        (d.undoRedir (rowKey t.num p.2.row) slot).cancelMig p.1
      | none => d
    else if p.2.state = 3 then
      ((d.updMig p.1 fun m => { m with unacked := 0, held := [], steps := [], late := [] }).endMarkers p.2.table p.2.late).endDrains
    else d) d
  let d := (d.em.redirs.filter fun p => p.2.slot == slot && 0 < p.2.k && tl < at_ p.2.k).foldl (fun d p => d.undoRedir p.1 slot) d
  let d := d.setEm fun e => { e with coming := e.coming.filter fun c => c.1 != slot || d.arrived c.2 }
  d.settleSteps

/-! ## Commands -/

end Sys2Proof.Machine
end

