-- ==== Sys2Proof/Machine/Power.lean ====
section
/-!
DEFINITION. Power states, resets, clocks and the firmware check (spec file 22, R531 to R545; file 23, R566), and the
JTAG port (R550).
-/
namespace Sys2Proof.Machine

/-! ## Resets (R537, R538, R542) -/

/-- Table 22.6: cause codes. -/
def CAUSE_POWER : Nat := 0
def CAUSE_PIN : Nat := 1
def CAUSE_SOFT : Nat := 2
def CAUSE_BMC : Nat := 3
def CAUSE_WDOG : Nat := 4
def CAUSE_CLOCK : Nat := 5
def CAUSE_RESUME : Nat := 6
def CAUSE_THERM : Nat := 7
def CAUSE_JTAG : Nat := 8

/-- R542: BOOT_STAT.WDOGS across a node reset: a WDOG reset before READY counts, POWER and PIN clear it. -/
def Dev.wdogsAfter (d : Dev) (cause : Nat) : Nat :=
  let n := d.rg .BOOT_STAT_WDOGS
  if cause = CAUSE_POWER || cause = CAUSE_PIN then 0
  else if cause = CAUSE_WDOG && d.power = 2 then min 3 (n + 1)
  else n

/-- R537: the cause that a node reset records. A second source in the MGMT cycle of a reset finds the node in RESET at split time
0 or 1 (2 ns a cycle); the lower code then stands. DEDUCED (log 157). -/
def Dev.sameCycle (d : Dev) : Bool := d.power = 1 && d.now < 2
def Dev.causeOf (d : Dev) (cause : Nat) : Nat :=
  if d.sameCycle then min (d.rg .PWR_RSTCAUSE_CAUSE) cause else cause

/-- A cause is recorded in both registers (R537). -/
def Dev.noteCause (d : Dev) (cause : Nat) : Dev := (d.setRg .PWR_RSTCAUSE_CAUSE cause).setRg .BOOT_STAT_CAUSE cause

/-- R538: a node reset keeps the fuses, the flash contents, PWR_RSTCAUSE and BOOT_STAT.WDOGS; every completion still due
is lost (R147). The board's NOR and the ROM stay what they are. The node is then in RESET until RESET_RELEASE, and split
time restarts at 0. A fuse write once started goes on (R549). A thermal trip holds RESET until PWR_OK falls (R566). -/
def Dev.nodeReset (d : Dev) (cause : Nat) : Dev :=
  if (d.thermTrip && cause != CAUSE_POWER) || (d.power = 0 && cause != CAUSE_POWER) then
    (if d.sameCycle then d.noteCause (d.causeOf cause) else d)
  else
    let d := d.cutNor
    let e : Dev :=
      { fuses := d.fuses, rom := d.rom, nor := d.nor, out := d.out, draws := d.draws, ids := d.ids, fresh := false
        fl := d.fl.afterReset d.ix.heats, em := d.em.afterReset, jtagInstr := d.jtagInstr
        keyJobs := if d.fuseBusy then (d.keyJobs.take 1).map fun j => (0, j.2) else [], fuseBusy := d.fuseBusy
        jtagHold := cause = CAUSE_JTAG || (d.jtagHold && cause != CAUSE_POWER), thermTrip := cause = CAUSE_THERM
        ports := d.ports.map fun p => { apt := p.apt, perst := p.perst } }
    let e := (e.setRg .BOOT_STAT_WDOGS (d.wdogsAfter cause)).setRg .PWR_STATE_STATE (if cause = CAUSE_POWER then 0 else 1)
    let e := e.noteCause (d.causeOf cause)
    e.setRg .ID_CAP0_APT (d.rg .ID_CAP0_APT)

/-! ## Clocks (R535) -/

/-- CLOCK_LOSS. -/
def Dev.clockLoss (d : Dev) (c : ClkLoss) : Dev :=
  match c with
  | .pcieRef p =>
    ((d.lockPcie p false).updPort p fun x => { x with up := false }).bindingLost p
  | .ethRef =>
    let d := ((d.setRg .PWR_CLK_ETH 0).setRg .PWR_CLK_TIMEBK 1).setRg .ETH_LINK_UP 0 0
    ((d.setRg .ETH_LINK_UP 0 1).setRg .ETH_LINK_LOCK 0 0).setRg .ETH_LINK_LOCK 0 1
  | _ => d.nodeReset CAUSE_CLOCK

/-! ## The firmware image (R541, Table 22.8, Table 22.10) -/

/-- ERROR codes of Table 22.10. -/
def ERR_NOR_ABSENT : Nat := 1
def ERR_FW_FORMAT : Nat := 2
def ERR_FW_SIGNATURE : Nat := 3
def ERR_FW_ROLLBACK : Nat := 4
def ERR_IDENTITY : Nat := 5
def ERR_BOOT_LOOP : Nat := 6
def ERR_NV_BLOCKED : Nat := 7
def ERR_DMA : Nat := 8
def ERR_NOR_WRITE : Nat := 9

/-- R51: the trailer's string and reserved bytes. -/
def trailerOk (img : Bytes) : Bool :=
  let n := img.length
  u32 img (n - 64) == magicYJSG && zeros img (n - 60) 60

/-- R51: the signature over the digest of every byte before the trailer. -/
def signedBy (key img : Bytes) : Bool :=
  edVerify key (sha512 (img.take (img.length - 128))) (sub img (img.length - 128) 64)

/-- The ROM key that a firmware image names, unless revoked. -/
def Dev.romKey (d : Dev) (n : Nat) : Option Bytes :=
  if n > 1 || bit d.fuses.romRevoked n then none else some (if n = 0 then d.rom.key0 else d.rom.key1)

/-- R541: what is wrong with a firmware image, 0 for nothing. -/
def Dev.fwError (d : Dev) (img : Bytes) : Nat :=
  if u32 img 0 != magicYJFW then ERR_NOR_ABSENT
  else
    let n := u32 img 8
    let bad := u16 img 4 != 1 || u16 img 6 != 256 || n != img.length || n % 64 != 0 || n < 384 || n > 16777216 ||
      u32 img 0xC != 0x9600 || u8 img 0x17 != 0 || u8 img 0x18 > 1 || !zeros img 0x19 231 || !trailerOk img
    if bad then ERR_FW_FORMAT
    else match d.romKey (u8 img 0x18) with
      | none => ERR_FW_SIGNATURE
      | some k =>
        if !signedBy k img then ERR_FW_SIGNATURE
        else if u32 img 0x10 < d.fuses.fwFloor then ERR_FW_ROLLBACK else 0

/-- R540: bytes of the NOR device; an unlisted byte reads 0xFF. -/
def Dev.norBytes (d : Dev) (a n : Nat) : Bytes := Tab.getRun 0xFF#8 d.nor a n

/-- The firmware image in NOR: as long as its header says, within its slot. -/
def Dev.norFirmware (d : Dev) : Bytes :=
  let h := d.norBytes 0 16
  d.norBytes 0 (if u32 h 0 = magicYJFW then min 16777216 (max 384 (u32 h 8)) else 256)

/-- R542: the boot ROM halts with an error. -/
def Dev.bootHalt (d : Dev) (err : Nat) : Dev := (d.setRg .BOOT_STAT_PHASE 0xF).setRg .BOOT_STAT_ERROR err

/-- Step 1 of Table 22.7: straps, the MGMT PLL, the PCIe ports; in recovery port A only (R545). -/
def Dev.bootStep1 (d : Dev) (st : Straps) (recovery : Bool) : Dev :=
  let d : Dev := { d with straps := st, fresh := false, relAt := d.now }
  let d := (d.setRg .BOOT_STAT_MODE st.bootMode).setRg .BOOT_STAT_PHASE 1
  let d := (d.setRg .PWR_STATE_STATE (if recovery then 7 else 2)).setRg .PWR_CLK_PCIE (if recovery then 1 else 3)
  let up (d : Dev) (p : Nat) : Dev := if (d.port p).perst then d else d.trainPort p
  if recovery then up d 0 else up (up d 0) 1

/-- Step 2: the identity key, compared with the fused fingerprint (R546). -/
def Dev.bootStep2 (d : Dev) : Dev × Bool :=
  let key := edPublic d.fuses.seed
  ({ d with idKey := key }, fingerprintOf key == fit 16 d.fuses.fingerprint)

/-- Step 4: the firmware digest is measured as entry 0, and Cerone takes over. -/
def Dev.bootStep4 (d : Dev) (img : Bytes) : Dev :=
  let dig := sha512 img
  let d := ({ d with fwDigest := dig } : Dev).measure 1 none dig
  let v := u32 img 0x14
  let d := ((d.setRg .MEAS_FWSECVER_SECVER (u32 img 0x10)).setRg .MEAS_KEYS_FWKEY (u8 img 0x18)).setRg .BOOT_STAT_PHASE 3
  ((d.setRg .ID_FW_MAJOR (v / 65536)).setRg .ID_FW_MINOR (v / 256)).setRg .ID_FW_PATCH v

/-- Step 5's clocks: every other PLL locks (R534). -/
def Dev.lockPlls (d : Dev) : Dev :=
  let d := (((d.setRg .PWR_CLK_CORE 1).setRg .PWR_CLK_TRACK 1).setRg .PWR_CLK_STRIDE 1).setRg .PWR_CLK_FLASH 1
  (d.setRg .PWR_CLK_ETH (if d.rg .PWR_CLK_TIMEBK = 1 then 0 else 3)).setRg .PWR_CLK_STK 0xFF

/-! ## The commands -/

/-- SOFT_RESET (R537): 0x5AA5 in PWR_RST.KEY resets the node; another value is ignored. The 10 µs are left out
(log 38). -/
def execSoftReset (t _port value : Nat) (s : State) : Host.Outcome State Fault Refusal :=
  s.runIf t Dev.portsOn fun d => d.onBlock 5 0 fun d => if value % 65536 = 0x5AA5 then d.nodeReset CAUSE_SOFT else d

/-- RESET_PIN (R537). -/
def execResetPin (t : Nat) (s : State) : Host.Outcome State Fault Refusal := s.run t fun d => d.nodeReset CAUSE_PIN

/-- PWR_OK_FALL (R531, R537): OFF, with cause POWER. -/
def execPwrOkFall (t : Nat) (s : State) : Host.Outcome State Fault Refusal := s.run t fun d => d.nodeReset CAUSE_POWER

/-- PWR_OK_RISE (R531): OFF becomes RESET. -/
def execPwrOkRise (t : Nat) (s : State) : Host.Outcome State Fault Refusal :=
  s.run t fun d => if d.power = 0 then d.setRg .PWR_STATE_STATE 1 else d

/-- CONTROL_WDOG (R537). -/
def execControlWdog (t : Nat) (s : State) : Host.Outcome State Fault Refusal :=
  s.runIf t Dev.mgmtOn fun d => d.nodeReset CAUSE_WDOG

/-- RESUME_RESET (R532): in HALT, VSENSE_MAIN at or above the NV bar + 2 (in 0.1% of nominal). -/
def execResumeReset (t main : Nat) (s : State) : Host.Outcome State Fault Refusal :=
  s.run t fun d =>
    if d.power = 6 && main ≥ (d.rg .FTL_VTHR_NVBAR + 2) * 10 then d.nodeReset CAUSE_RESUME else d

/-- TIME_CLOCK_RETURN (R535). The Ethernet PLLs lock again where boot step 5 has locked the node's (R534). -/
def execTimeClockReturn (t : Nat) (s : State) : Host.Outcome State Fault Refusal :=
  s.runIf t Dev.mgmtOn fun d => (d.setRg .PWR_CLK_TIMEBK 0).setRg .PWR_CLK_ETH (3 * d.rg .PWR_CLK_CORE)

/-- THERMAL_TRIP (R566). -/
def execThermalTrip (t : Nat) (s : State) : Host.Outcome State Fault Refusal :=
  s.run t fun d => if d.power = 0 then d else d.nodeReset CAUSE_THERM

/-- NODE_RESET over MCTP (R537, Table 22.15): acted on only with the two confirmation bytes. -/
def execNodeReset (t b0 b1 : Nat) (s : State) : Host.Outcome State Fault Refusal :=
  s.runIf t Dev.mgmtOn fun d => if b0 = 0x5A && b1 = 0xA5 then d.nodeReset CAUSE_BMC else d.emit (.mctp [])

/-- JTAG_EXTEST, JTAG_CLAMP, JTAG_HIGHZ (R537, R550): the node is held in reset. -/
def Dev.jtagReset (d : Dev) (instr : Nat) : Dev := { d.nodeReset CAUSE_JTAG with jtagInstr := instr }

def execJtagExtest (t : Nat) (s : State) : Host.Outcome State Fault Refusal := s.runTap t fun d => d.jtagReset 3

def execJtagClamp (t : Nat) (s : State) : Host.Outcome State Fault Refusal := s.runTap t fun d => d.jtagReset 4

def execJtagHighz (t : Nat) (s : State) : Host.Outcome State Fault Refusal := s.runTap t fun d => d.jtagReset 5

/-- JTAG_BYPASS (R550): the bypass register is selected. -/
def execJtagBypass (t : Nat) (s : State) : Host.Outcome State Fault Refusal :=
  s.runTap t fun d => { d with jtagInstr := 1 }

/-- JTAG_SAMPLE_PRELOAD (R550): the boundary register is selected; the node runs on. -/
def execJtagSamplePreload (t : Nat) (s : State) : Host.Outcome State Fault Refusal :=
  s.runTap t fun d => { d with jtagInstr := 2 }

/-- JTAG_IDCODE (R550): 0x0960_0A93 with the stepping number in bits [31:28]. -/
def execJtagIdcode (t : Nat) (s : State) : Host.Outcome State Fault Refusal :=
  s.runTap t fun d => ({ d with jtagInstr := 0 } : Dev).emit (.tdo (0x09600A93 + d.fuses.step % 16 * 2 ^ 28))

/-- TAP_RESET (R537): the TAP reaches Test-Logic-Reset, and a reset held by it is released. -/
def execTapReset (t : Nat) (s : State) : Host.Outcome State Fault Refusal :=
  s.runTap t fun d => { d with jtagInstr := 0, jtagHold := false }

end Sys2Proof.Machine
end

