-- ==== Sys2Proof/Machine/ImageBase.lean ====
section
/-!
DEFINITION. Reading a course image: the layout rules of R48 to R51, and the PARTITION, CARVEOUT, REGISTERS, TRAFFIC,
CONTRACTS and BIBS sections with the checks that need no other section (spec files 02, 04, 05, 18).
-/
namespace Sys2Proof.Machine

/-! ## Failures (R63, R569) -/

def failHead (c : Bool) (st : Nat) : List Fail := if c then [Fail.mk st 0xFF 0xFFFFFF 0] else []
def failTable (c : Bool) (st idx : Nat) : List Fail := if c then [Fail.mk st idx 0xFFFFFF (1 + idx)] else []
/-- A required section that is absent (SECTION 0xFE) stands after the entries of the section table and before the sections,
the lowest type first. DESIGN CHOICE (log 125): R63 gives it no place of its own. -/
def failAbsent (c : Bool) (ty : Nat) : List Fail := if c then [Fail.mk ST_BAD_FORMAT 0xFE ty (40 + ty)] else []
def failSec (c : Bool) (st sec entry : Nat) : List Fail := if c then [Fail.mk st sec entry (100 + sec * 2 ^ 24 + entry)] else []
def failTrailer (c : Bool) (st : Nat) : List Fail := if c then [Fail.mk st 0xFF 0xFFFFFF (2 ^ 40)] else []
def noEntry : Nat := 0xFFFFFF

/-- R63: the failure that is reported: of the status that R20 picks, the first in position. -/
def pickImageFail (l : List Fail) : Option Fail :=
  match l with
  | [] => none
  | _ =>
    let st := pickStatus (l.map (·.status)) ST_OK
    match l.filter fun f => f.status == st with
    | [] => none
    | a :: r => some (r.foldl (fun x y => if y.rank < x.rank then y else x) a)

/-- Indexed records: (index, bytes). -/
def records (n size off : Nat) (b : Bytes) : List (Nat × Bytes) :=
  (List.range n).map fun i => (i, sub b (off + i * size) size)

/-- R63: the records of a section whose count lies in its range and whose bytes hold them all; else none is checked. -/
def recordsIn (lo hi n size off : Nat) (b : Bytes) : List (Nat × Bytes) :=
  if n < lo || hi < n || b.length < off + n * size then [] else records n size off b

/-! ## Header, section table, trailer (R48 to R51) -/

/-- The section table. -/
def secTable (img : Bytes) : List SecEnt :=
  (records (min 32 (u16 img 0xC)) 16 0x100 img).map fun p =>
    { type := u16 p.2 0, version := u16 p.2 2, flags := u32 p.2 4, off := u32 p.2 8, size := u32 p.2 12 }

/-- The first section of a type, with its index in the table. -/
def findSec (t : List SecEnt) (ty : Nat) : Option (Nat × SecEnt) :=
  (findIdx? (fun e : SecEnt => e.type == ty) t).bind fun i => (t[i]?).map fun e => (i, e)

/-- R49: the header's own rules. -/
def headFails (img : Bytes) (hasMeet : Bool) : List Fail :=
  failHead (u32 img 0 != magicYJCI || u16 img 4 != 1 || u16 img 6 != 256 || u32 img 8 != img.length || img.length % 64 != 0
    || img.length > 16777216 || img.length < 448 || !(1 ≤ u16 img 0xC && u16 img 0xC ≤ 32) || u16 img 0xE != 0
    || u32 img 0x10 != 0x9600 || u16 img 0x20 > 255 || u8 img 0x22 > 3 || u8 img 0x23 != 0 || !zeros img 0x28 24
    || !zeros img 0x80 128 || (!hasMeet && (u16 img 0x20 != 0 || !zeros img 0x40 64))) ST_BAD_FORMAT

/-- Table 02.3: the types known, and those required. -/
def knownType (t : Nat) : Bool := 1 ≤ t && t ≤ 10
def requiredTypes : List Nat := [1, 2, 5, 6, 7]

/-- R48, R50: one entry of the section table against the image and the entries before it. -/
def secFails (len n : Nat) (before : List SecEnt) (i : Nat) (e : SecEnt) : List Fail :=
  failTable (e.off % 64 != 0 || e.off < 256 + 16 * n || e.off + e.size > len - 128
    || (before.any fun b => e.size > 0 && b.size > 0 && b.off < e.off + e.size && e.off < b.off + b.size)
    || (knownType e.type && (e.flags > 1 || e.version != 1)) || (!knownType e.type && bit e.flags 0)
    || (knownType e.type && before.any fun b => b.type == e.type)) ST_BAD_FORMAT i

/-- R48, R50 over the whole table. -/
def tableFails (len n : Nat) : Nat → List SecEnt → List SecEnt → List Fail
  | _, _, [] => []
  | i, before, e :: r => secFails len n before i e ++ tableFails len n (i + 1) (e :: before) r

/-- R51, R58, R59: the trailer, the signer's slot and the floor. -/
def Dev.keyFails (d : Dev) (img : Bytes) : List Fail :=
  let slot := d.fuses.slots.getD (u8 img 0x22) {}
  failTrailer (!trailerOk img) ST_BAD_FORMAT
    ++ failHead (slot.state != 1 || u32 img 0x14 < d.fuses.ciFloor) ST_SIGNATURE
    ++ (if trailerOk img && slot.state = 1 then failTrailer (!signedBy slot.key img) ST_SIGNATURE else [])

/-! ## PARTITION (R52, R53) -/

def readPart (b : Bytes) : Part :=
  { num := u8 b 0, kind := u8 b 1, ctx := u16 b 2, share := u8 b 4, tiles := un 12 b 8, walk := u32 b 0x14, podium := u64 b 0x18 }

/-- The partitions of a section, and its slice map. -/
def readParts (s : Bytes) : List Part := (records (min 64 (u16 s 0)) 32 64 s).map fun p => readPart p.2
def readSlices (s : Bytes) : Bytes := sub s (64 + 32 * u16 s 0) 8192

/-- R53. -/
def partFails (i : Nat) (s : Bytes) : List Fail :=
  let n := u16 s 0
  let ps := readParts s
  let nums := ps.map (·.num)
  let shared (f : Part → Nat) (k : Nat) (p : Part) : Bool := (ps.take k).any fun q => f q &&& f p != 0
  if n < 1 || n > 64 || s.length != 64 + 32 * n + 8192 then failSec true ST_BAD_FORMAT i noEntry
  else failSec (!zeros s 2 62) ST_BAD_FORMAT i noEntry
    ++ ((records n 32 64 s).flatMap fun r =>
      let p := readPart r.2
      failSec (p.num > 63 || (nums.take r.1).contains p.num || p.kind > 3 || p.ctx > 16384 || !zeros r.2 5 3) ST_BAD_FORMAT i r.1
        ++ failSec (shared (·.tiles) r.1 p || shared (·.walk) r.1 p || shared (·.podium) r.1 p
            || (p.kind = 0 && (p.walk = 0 || p.podium = 0))) ST_REFUSED_RESOURCE i r.1)
    ++ failSec (sum (ps.map (·.ctx)) > 16384 || sum (ps.map (·.share)) > 256) ST_REFUSED_RESOURCE i noEntry
    ++ (match findIdx? (fun b : Byte => b != 0xFF#8 && !nums.contains b.toNat) (readSlices s) with
        | some b => failSec true ST_REFUSED_RESOURCE i (n + b)
        | none => [])

/-! ## CARVEOUT (R54, R55) -/

def readCarve (s : Bytes) : Carve :=
  { flashRaw := u64 s 0, journal := u32 s 8, minShared := u32 s 0xC, slcShare := u32 s 0x10
    pinned := (List.range 16).map fun i => u64 s (0x20 + 8 * i) }

/-- R63: MIN_SHARED as other sections are judged against it, where it stands in its own range. -/
def minSharedOf (s : Bytes) : Option Nat := if s.length = 160 && 16 ≤ u32 s 0xC then some (u32 s 0xC) else none

/-- R55: the fields' own rules; the range of SLC_SHARE is that of R409. -/
def carveFails (i heats : Nat) (s : Bytes) : List Fail :=
  let c := readCarve s
  failSec (s.length != 160 || c.flashRaw % 32768 != 0 || c.flashRaw > 2 ^ 48 || c.journal < 64 || c.journal > 4096
      || c.minShared < 16 || c.slcShare < 10 || c.slcShare > 200 || !zeros s 0x14 12) ST_BAD_FORMAT i noEntry
    ++ ((List.range 16).flatMap fun k => failSec (k ≥ heats && c.pinned.getD k 0 != 0) ST_BAD_FORMAT i k)

/-! ## REGISTERS (R56) -/

def readRegs (s : Bytes) : List RegEnt :=
  (records (s.length / 16) 16 0 s).map fun p =>
    { blk := u16 p.2 0, inst := u16 p.2 2, off := u32 p.2 4, value := u64 p.2 8 }

/-- Table 03.5: instances of a block type. -/
def blkInstances (blk heats : Nat) : Nat :=
  if blk = 6 || blk = 7 || blk = 0x51 then 2
  else if blk = 0x10 then 12 else if blk = 0x11 then 96 else if blk = 0x12 then 16
  else if blk = 0x20 then 32 else if blk = 0x22 then 64 else if blk = 0x30 then 8 else if blk = 0x31 then 128
  else if blk = 0x32 || blk = 0x33 then heats
  else if blk = 0x40 then 4 else if blk = 0x41 then 32
  else if blk = 0x64 then 0
  else if [1, 2, 3, 4, 5, 0x13, 0x21, 0x23, 0x24, 0x42, 0x43, 0x50, 0x52, 0x53, 0x60, 0x61, 0x62, 0x63, 0x65].contains blk then 1
  else 0

/-- The fields that stand in the register at an offset of a block: (field, record). -/
def fieldsAt (blk off : Nat) : List (Fld × Nat) :=
  (Fld.ofBlk blk).filterMap fun f => (f.recAt off).map fun r => (f, r)

/-- Whether a register is 64 bits wide: some field of it lies above bit 31. -/
def reg64 (fs : List (Fld × Nat)) : Bool := fs.any fun p => p.1.info.hi ≥ 32

/-- The bits that fields of a register take. -/
def regMask (fs : List (Fld × Nat)) : Nat := fs.foldl (fun m p => m ||| (p.1.top - 1) * 2 ^ p.1.info.lo) 0

/-- The value that a REGISTERS list leaves in a field, with the place of the entry that gives it; the last entry that
names the register counts (R56). -/
def finalValue (l : List RegEnt) (f : Fld) (inst rec : Nat) : Nat × Option Nat :=
  let i := f.info
  let off := i.off + i.stride * rec
  (List.zip (List.range l.length) l).foldl (fun acc p =>
    if p.2.blk = i.blk && p.2.inst = inst && p.2.off = off then (bits p.2.value i.hi i.lo, some p.1) else acc) (i.rst, none)

/-- R56: ranges that a register table gives for a field by itself. -/
def fieldRangeOk (f : Fld) (v : Nat) : Bool :=
  match f with
  | .REF_CFG_GRACE_US => 10 ≤ v && v ≤ 100000
  | .WLK_CFG_WIDTH => 1 ≤ v && v ≤ 8
  | .WLK_CFG_BEAM => 1 ≤ v && v ≤ 1024
  | .WLK_CEIL_HOPS => 1 ≤ v
  | .WLK_CEILE_EVALS => 1 ≤ v && v ≤ 1048576
  | .WLK_DEF_HOPS => 1 ≤ v
  | .WLK_DEFE_EVALS => 1 ≤ v
  | .WLK_SEED_COUNT => 1 ≤ v && v ≤ 64
  | .PACK_CFG_MAXQ => 1 ≤ v && v ≤ 256
  | .PACK_CFG_WINDOW => v ≤ 2000
  | .STK_CFG_WDOG => 10 ≤ v && v ≤ 1000
  | .STK_CFG_SCANWIN => v ≤ 200
  | .SIDE_CFG_PAUSEMAX => 1 ≤ v && v ≤ 512
  | .SIDE_CFG_BUILD_L => 1 ≤ v && v ≤ 1024
  | .SIDE_CFG2_WIN => v ≤ 200
  | .IGRP_CFG_WDOG => 10 ≤ v && v ≤ 1000
  | .EMB_CFG_MIG_HIGH => 4 ≤ v && v ≤ 15
  | .EMB_CFG_MIG_MAX => v ≤ 64
  | .TIER_CFG_FLOOR_GIB => 4 ≤ v
  | .TIER_CFG_STEP_DRAM => 1 ≤ v
  | .TIER_CFG_STEP_FLASH => 1 ≤ v
  | .FLC_CFG_MAXMTS => [3600, 3200, 2400, 1600, 800].contains v
  | .FTL_CFG_FOLD_PCT => 10 ≤ v && v ≤ 80
  | .FTL_CFG_WAIT_PCT => v ≤ 95
  | .FTL_CFG_JRES_PCT => 5 ≤ v && v ≤ 30
  | .FTL_VTHR_NVBAR => 86 ≤ v && v ≤ 97
  | .FTL_VTHR_LOSS => 70 ≤ v
  | .FTL_VTHR_FLOOR => 20 ≤ v && v ≤ 90
  | .PTP_CFG_PROFILE => v ≤ 1
  | .ADM_RING_CFG_MOD_COUNT => 1 ≤ v && v ≤ 256
  | .ADM_RING_CFG_SIZE_LOG2 => 6 ≤ v && v ≤ 16
  | _ => true

/-- R56: ranges between two fields of one block: (field, other field, the rule). -/
def pairRules : List (Fld × Fld × (Nat → Nat → Bool)) :=
  [(.WLK_DEF_HOPS, .WLK_CEIL_HOPS, fun a b => a ≤ b), (.WLK_DEFE_EVALS, .WLK_CEILE_EVALS, fun a b => a ≤ b),
   (.TIER_CFG_STEP_FLASH, .TIER_CFG_STEP_DRAM, fun a b => b ≤ a), (.FTL_VTHR_LOSS, .FTL_VTHR_NVBAR, fun a b => a + 1 ≤ b),
   (.FTL_CFG_WAIT_PCT, .FTL_CFG_FOLD_PCT, fun a b => b + 5 ≤ a)]

/-- The later of two entries of a list, 0xFF_FFFF where neither is one. -/
def laterEntry (a b : Option Nat) : Nat :=
  match a, b with
  | some x, some y => max x y
  | some x, none => x
  | none, some y => y
  | none, none => noEntry

/-- R56: the REGISTERS section. -/
def regFails (i heats minShared : Nat) (s : Bytes) : List Fail :=
  let l := readRegs s
  let one : List Fail := (List.zip (List.range l.length) l).flatMap fun p =>
    let e := p.2
    let fs := fieldsAt e.blk e.off
    let w := (fs.filter fun q => q.1.info.acc = .rw || q.1.info.acc = .rwl)
    let ok := e.inst < blkInstances e.blk heats && !w.isEmpty
    failSec (!ok || e.off % (if reg64 fs then 8 else 4) != 0 || (!reg64 fs && e.value ≥ 2 ^ 32)
      || e.value &&& (2 ^ 64 - 1 - regMask fs) != 0) ST_BAD_FORMAT i p.1
      ++ failSec (ok && w.any fun q =>
          (finalValue l q.1 e.inst q.2).2 == some p.1 && !fieldRangeOk q.1 (bits e.value q.1.info.hi q.1.info.lo)) ST_BAD_FORMAT i p.1
  let pairs : List Fail := pairRules.flatMap fun r =>
    (List.range (blkInstances r.1.info.blk heats)).flatMap fun n =>
      let a := finalValue l r.1 n 0
      let b := finalValue l r.2.1 n 0
      failSec (!r.2.2 a.1 b.1) ST_BAD_FORMAT i (laterEntry a.2 b.2)
  let fl := finalValue l .TIER_CFG_FLOOR_GIB 0 0
  failSec (s.length % 16 != 0) ST_BAD_FORMAT i noEntry ++ one ++ pairs
    ++ failSec (fl.1 > min 255 minShared) ST_BAD_FORMAT i (fl.2.getD noEntry)

/-! ## TRAFFIC (R459, R460) -/

def readPacer (b : Bytes) (o : Nat) : Nat × Nat × Nat := (u64 b o, u32 b (o + 8), u32 b (o + 12))

/-- Table 18.8. -/
def readSub (b : Bytes) : SubRec :=
  { bib := u16 b 0, sub := readPacer b 0x10, svc := (List.range 8).map fun s => readPacer b (0x20 + 16 * s) }

/-- Table 18.7, with the outlet's gate list from the section. -/
def readOutlet (s : Bytes) (o : Nat) : Outlet :=
  let b := sub s (64 + 128 * o) 128
  let n := min 1024 (u16 b 6)
  { overhead := signed 16 (u16 b 0), promoShare := u16 b 2, maxFrame := u16 b 4, base := u64 b 0x10
    gates := (records n 8 (u32 b 8) s).map fun p => { interval := u32 p.2 0, mask := u8 p.2 4 }
    promoAge := (List.range 8).map fun k => u16 b (0x18 + 2 * k), relay := readPacer b 0x28, mode := u8 b 0x38
    pcp := u8 b 0x39, vid := u16 b 0x3A, dscpRoce := u8 b 0x3C, dscpRelay := u8 b 0x3D, prefixLen := u8 b 0x3E
    addr0 := un 16 b 0x40, addr1 := un 16 b 0x50, router := un 16 b 0x60 }

/-- L_max of an outlet record of an image (R451). -/
def Dev.lMaxOf (d : Dev) (o : Nat) (x : Outlet) : Nat :=
  if o < 2 then x.counted x.maxFrame 1 else x.counted x.maxFrame (d.tlps (o - 2) x.maxFrame)

/-- The line rate that a load would fix for an outlet record (R449). -/
def Dev.rateOf (d : Dev) (o : Nat) (x : Outlet) : Nat :=
  if o < 2 then (if x.mode = 1 then 50000000000 else 100000000000)
  else 63015000000 * ((d.port (o - 2)).rate * (d.port (o - 2)).width) / 512

/-- Transmission time of L_max of an outlet record. -/
def Dev.txMax (d : Dev) (o : Nat) (x : Outlet) : Nat := ceilDiv (d.lMaxOf o x * 1000000000) (max 1 (d.rateOf o x))

/-- Lengths of a gate's windows, taken cyclically: the runs of open entries of the list laid twice. -/
def windowRuns (svc : Nat) : Nat → List Gate → List Nat
  | acc, [] => [acc]
  | acc, g :: r => if bit g.mask svc then windowRuns svc (acc + g.interval) r else acc :: windowRuns svc 0 r

/-- The longest window of a service, and its longest closed run. -/
def longestOpen (g : List Gate) (svc : Nat) : Nat := maxOf (windowRuns svc 0 (g ++ g))
def longestClosed (g : List Gate) (svc : Nat) : Nat :=
  let c := g.map fun x => { x with mask := 255 - x.mask % 256 }
  if g.all fun x => bit x.mask svc then 0 else if c.all fun x => bit x.mask svc then gateCycle g
  else maxOf (windowRuns svc 0 (c ++ c))

/-- R452: a Pacer record against L_max of its outlet. -/
def pacerRecOk (lmax : Nat) (p : Nat × Nat × Nat) : Bool :=
  p.1 = 0 || (lmax ≤ p.2.1 && p.2.1 ≤ 16777216 && 250 ≤ p.2.2 && p.2.2 ≤ 64000)

/-- R460: an outlet record's own fields. -/
def outletRecOk (s : Bytes) (o : Nat) (lmax : Nat) : Bool :=
  let b := sub s (64 + 128 * o) 128
  let x := readOutlet s o
  let n := u16 b 6
  let off := u32 b 8
  let gates := records (min 1024 n) 8 off s
  (-64 ≤ x.overhead && x.overhead ≤ 255) && x.promoShare ≤ 200 && n ≤ 1024 && zeros b 0xC 4 && (n > 0 || off = 0)
    && off % 8 = 0 && off + 8 * n ≤ s.length && gateCycle x.gates ≤ 1000000000
    && (gates.all fun g => 32 ≤ u32 g.2 0 && u32 g.2 0 ≤ 1000000000 && zeros g.2 5 3)
    && (if o < 2 then
          1518 ≤ x.maxFrame && x.maxFrame ≤ 9216 && x.mode ≤ 1 && x.pcp ≤ 7 && 1 ≤ x.vid && x.vid ≤ 4094 && x.dscpRoce ≤ 63
            && x.dscpRelay ≤ 63 && x.prefixLen ≤ 128 && u8 b 0x3F = 0 && (x.mode = 1 || x.addr1 = 0) && zeros b 0x70 16
            && pacerRecOk lmax x.relay
        else 256 ≤ x.maxFrame && x.maxFrame ≤ 4096 && x.maxFrame % 64 = 0 && zeros b 0x28 88)

/-- The outlet of a bib's binding in an image (R452): that of its entry, none where it is unbound. -/
def bibOutlet (bibs : List BibEnt) (b : Nat) : Option Nat :=
  match bibs.find? fun e => e.bib == b with
  | some e => e.bind.outlet
  | none => none

/-- R460. `bibsOk` says that the BIBS section could be read (R63). -/
def Dev.trafficFails (d : Dev) (i : Nat) (s : Bytes) (bibs : List BibEnt) (bibsOk : Bool) : List Fail :=
  let n := u16 s 0
  let outs := (List.range 4).map fun o => readOutlet s o
  let lmax (o : Nat) : Nat := d.lMaxOf o (outs.getD o {})
  let big := maxOf ((List.range 4).map lmax)
  let subs := recordsIn 0 1024 n 160 (64 + 512) s
  let seen := subs.map fun p => u16 p.2 0
  failSec (n > 1024 || !zeros s 2 62 || s.length < 576 + 160 * n) ST_BAD_FORMAT i noEntry
    ++ ((List.range 4).flatMap fun o =>
      let x := outs.getD o {}
      failSec (!outletRecOk s o (lmax o)) ST_BAD_FORMAT i o
        ++ failSec (!x.gates.isEmpty && (List.range 8).any fun v => longestOpen x.gates v < d.txMax o x) ST_REFUSED_RESOURCE i o)
    ++ (subs.flatMap fun p =>
      let r := readSub p.2
      let l := if !bibsOk then 0 else match bibOutlet bibs r.bib with
        | some o => lmax o
        | none => big
      failSec (r.bib > 1023 || !zeros p.2 2 14 || (seen.take p.1).contains r.bib || !pacerRecOk l r.sub
          || r.svc.any fun q => !pacerRecOk l q) ST_BAD_FORMAT i (4 + p.1)
        ++ failSec (bibsOk && !(bibs.any fun e => e.bib == r.bib)) ST_REFUSED_RESOURCE i (4 + p.1))

/-! ## CONTRACTS (R100, R101) -/

/-- Table 04.1. -/
def readContract (b : Bytes) : Contract :=
  let f := u8 b 3
  { bib := u16 b 0, svc := u8 b 2, scan := bit f 0, remote := bit f 1, rate := u32 b 4, burst := u32 b 8, p50 := u32 b 0xC
    p99 := u32 b 0x10, p999 := u32 b 0x14, miss50 := u16 b 0x18, miss99 := u16 b 0x1A, miss999 := u16 b 0x1C
    cost := u16 b 0x1E, outBytes := u32 b 0x20, remoteUs := u32 b 0x24 }

/-- Table 04.2. -/
def readCost (b : Bytes) : CostRec :=
  { work := u32 b 0, scan := u32 b 4, search := u32 b 8, occ := u32 b 0xC, phases := u16 b 0x10, kib := u16 b 0x12 }

/-- R101: one contract entry by itself. -/
def contractOk (b : Bytes) (costs : Nat) : Bool :=
  let c := readContract b
  c.bib ≤ 1023 && c.svc ≤ 4 && u8 b 3 ≤ 3 && c.rate > 0 && c.burst > 0 && c.p50 ≤ c.p99 && c.p99 ≤ c.p999
    && c.miss50 ≤ c.miss99 && c.miss99 ≤ c.miss999 && c.cost < costs && (c.remote || c.remoteUs = 0) && zeros b 0x28 24

/-- R101, R449. -/
def Dev.contractFails (d : Dev) (i : Nat) (s : Bytes) (bibs : List BibEnt) (outs : List Outlet) : List Fail :=
  let n := u16 s 0
  let m := u16 s 2
  let short := s.length < 64 + 64 * n + 32 * m + 32
  let odd := n > 5120 || m < 1 || m > 1024 || short
  let cs := if odd then [] else records n 64 64 s
  let keys := cs.map fun p => (u16 p.2 0, u8 p.2 2)
  failSec (odd || !zeros s 4 60) ST_BAD_FORMAT i noEntry
    ++ (cs.flatMap fun p =>
      failSec (!contractOk p.2 m || (keys.take p.1).contains (u16 p.2 0, u8 p.2 2)) ST_BAD_FORMAT i p.1
        ++ failSec (!(bibs.any fun e => e.bib == u16 p.2 0)) ST_REFUSED_RESOURCE i p.1)
    ++ ((if odd then [] else records m 32 (64 + 64 * n) s).flatMap fun p => failSec (!zeros p.2 0x14 12) ST_BAD_FORMAT i (n + p.1))
    ++ ((List.range 4).flatMap fun o =>
      let x := outs.getD o {}
      let cap := if o < 2 then 100000000000 else d.rateOf o x
      failSec (!odd && u64 s (64 + 64 * n + 32 * m + 8 * o) * 100 > cap * 99) ST_REFUSED_RESOURCE i (n + m + o))

/-! ## BIBS (R117, R118, R120) -/

/-- Table 05.1. -/
def readBibEnt (b : Bytes) : BibEnt :=
  { bib := u16 b 0, part := u8 b 2, flags := u8 b 3
    bind := { kind := u8 b 4, port := u8 b 5, vf := u16 b 6, qpn := u32 b 8, gid := un 16 b 0x10 } }

def readBibs (s : Bytes) : List BibEnt := (records (min 1024 (u16 s 0)) 32 64 s).map fun p => readBibEnt p.2

/-- R120: the binding that an entry will have: the one in force where KEEP is set and the bib is in both images. -/
def Dev.keptBind (d : Dev) (e : BibEnt) : Binding :=
  if bit e.flags 1 && (d.bib e.bib).state != 0 then (d.bib e.bib).bind else e.bind

/-- R118: two bindings that collide. -/
def Binding.clash (x y : Binding) : Bool :=
  (x.kind = 1 && y.kind = 1 && x.port = y.port && x.vf = y.vf) || (x.kind = 2 && y.kind = 2 && x.gid = y.gid && x.qpn = y.qpn)

/-- R118. -/
def Dev.bibFails (d : Dev) (i : Nat) (s : Bytes) (parts : List Part) : List Fail :=
  let n := u16 s 0
  let es := recordsIn 1 1024 n 32 64 s
  let bs := es.map fun p => d.keptBind (readBibEnt p.2)
  let ids := es.map fun p => u16 p.2 0
  failSec (n < 1 || n > 1024 || !zeros s 2 62 || s.length < 64 + 32 * n) ST_BAD_FORMAT i noEntry
    ++ (es.flatMap fun p =>
      let e := readBibEnt p.2
      failSec (e.bib > 1023 || e.flags > 7 || !e.bind.ok || !zeros p.2 0xC 4 || (ids.take p.1).contains e.bib) ST_BAD_FORMAT i p.1
        ++ failSec (!(parts.any fun q => q.num == e.part) || (bs.take p.1).any fun y => y.clash (d.keptBind e))
          ST_REFUSED_RESOURCE i p.1)

end Sys2Proof.Machine
end

