-- ==== Sys2Proof/Machine/ImageSecs.lean ====
section
/-!
DEFINITION. Reading a course image, continued: the HEATS, MEET, EMBED and POOL sections, the rules that several sections
cause together, and the whole check but admission (spec files 02, 07, 14, 15, 19; R48 to R60).
-/
namespace Sys2Proof.Machine

/-! ## HEATS (R171, R172) -/

def readPre (s : Bytes) : HeatsPre := { interval := u16 s 2, publish := u16 s 4, retain := u16 s 6, hold := u16 s 8 }

/-- Table 07.4. A fourth of COPIES holds the primary's slot; 0xFF marks an unused replica. -/
def readHeat (b : Bytes) (pinned : Nat) : Heat :=
  { number := u16 b 0, role := u8 b 2, code := u8 b 3, degree := u8 b 4, cap := u32 b 8, sideCap := u32 b 0xC
    copies := u8 b 0x10 :: [u8 b 0x11, u8 b 0x12, u8 b 0x13].filter (· != 0xFF), scanFrac := u16 b 0x14, pinned := pinned }

def readHeats (s : Bytes) (pinned : List Nat) : List Heat :=
  (records (min 16 (u16 s 0)) 64 64 s).map fun p => readHeat p.2 (pinned.getD p.1 0)

/-- R172: one entry by itself. -/
def heatEntOk (b : Bytes) (slot : Nat) : Bool :=
  let h := readHeat b 0
  h.number ≤ 1023 && h.role ≤ 1 && h.code ≤ 3 && [16, 24, 32, 48, 64].contains h.degree && zeros b 5 3 && zeros b 0x16 42
    && 8 ≤ h.cap && h.cap ≤ 2 ^ 30 && h.cap % 8 = 0 && !(h.number = 1023 && h.cap = 2 ^ 30)
    && 1024 ≤ h.sideCap && h.sideCap ≤ 1048576 && h.sideCap % 1024 = 0 && !dups h.copies
    && (if h.role = 0 then h.copies.head? == some slot else h.copies.tail.contains slot)

def heatsFails (i slot : Nat) (s : Bytes) : List Fail :=
  let n := u16 s 0
  let es := recordsIn 0 16 n 64 64 s
  let nums := es.map fun p => u16 p.2 0
  failSec (n > 16 || !(10 ≤ u16 s 2 && u16 s 2 ≤ 10000) || !(10 ≤ u16 s 4 && u16 s 4 ≤ 10000) || u16 s 6 < 64
      || u16 s 8 > 1000 || !zeros s 0xA 54 || s.length < 64 + 64 * n) ST_BAD_FORMAT i noEntry
    ++ es.flatMap fun p => failSec (!heatEntOk p.2 slot || (nums.take p.1).contains (u16 p.2 0)) ST_BAD_FORMAT i p.1

/-- R169: tiles of a heat's records at CAPACITY. -/
def Heat.allTiles (h : Heat) : Nat := 8 * h.tilesPerStack

/-! ## MEET (R464, R465, R60) -/

def readMembers (s : Bytes) : Tab Member :=
  (records (min 256 (u16 s 0)) 128 64 s).foldl (fun t p =>
    Tab.ins t (u8 p.2 0) { fpr := sub p.2 0x10 16, addrs := (List.range 4).map fun g => un 16 p.2 (0x20 + 16 * g) }) []

/-- Table 19.1, with the header's slot and plan. -/
def readMeet (s : Bytes) (slot : Nat) (plan : Bytes) : Meet :=
  { on := true, slot := slot, port := u16 s 2, anchor := u8 s 4, standby := [u8 s 5, u8 s 6, u8 s 7]
    operBib := u16 s 8, servePart := u8 s 0xA, serveRate := u32 s 0xC, margin := u16 s 0x10, hedgeMax := u16 s 0x12
    hedgeInit := u16 s 0x14, joinMs := u16 s 0x16, retx := u16 s 0x18, digest := plan, members := readMembers s }

def Dev.meetFails (d : Dev) (i slot : Nat) (s : Bytes) (parts : Option (List Part)) : List Fail :=
  let n := u16 s 0
  let m := readMeet s slot []
  let es := recordsIn 1 256 n 128 64 s
  let slots := es.map fun p => u8 p.2 0
  let roles := m.anchor :: m.standby.filter (· != 0xFF)
  let within (v lo hi : Nat) : Bool := lo ≤ v && v ≤ hi
  failSec (!within n 1 256 || s.length < 64 + 128 * n || m.port < 1024 || !(m.operBib ≤ 1023 || m.operBib = 0xFFFF) || u8 s 0xB != 0
      || !within m.margin 10 10000 || !within m.hedgeMax 100 60000 || !within m.hedgeInit 100 60000 || !within m.joinMs 1 100
      || !within m.retx 20 1000 || !zeros s 0x1A 38 || !slots.contains slot || roles.any (fun r => !slots.contains r) || dups roles)
      ST_BAD_FORMAT i noEntry
    ++ failSec (match parts with
        | some ps => !(ps.any fun p => p.num == m.servePart && p.kind == 0)
        | none => false) ST_REFUSED_RESOURCE i noEntry
    ++ es.flatMap fun p =>
      failSec (!zeros p.2 1 15 || !zeros p.2 0x60 32 || (slots.take p.1).contains (u8 p.2 0)) ST_BAD_FORMAT i p.1
        ++ failSec (u8 p.2 0 = slot && sub p.2 0x10 16 != fingerprintOf (fit 32 d.idKey)) ST_SIGNATURE i p.1

/-! ## EMBED (R338, R339) -/

/-- Table 14.2; `thresh` in GiB, `alone` on a node without a MEET section (R336). -/
def readTable (b : Bytes) (thresh : Nat) : Table :=
  let t : Table := { num := u16 b 0, fmt := u8 b 2, sfmt := u8 b 3, elems := u16 b 4, hint := u8 b 6, migrate := bit (u8 b 7) 0
                     rows := u64 b 8, home := u8 b 0x10, writers := un 32 b 0x20, repl := false }
  { t with repl := t.tiles * 65536 < thresh * 2 ^ 30 }

def readEmbed (s : Bytes) : Embed :=
  { thresh := u16 s 2, lead := u8 s 4, stepTo := u16 s 6
    tables := (records (min 256 (u16 s 0)) 64 64 s).map fun p => (p.1, readTable p.2 (u16 s 2)) }

/-- R339: one entry; `slots` the members, where they could be read. -/
def tableOk (b : Bytes) (thresh : Nat) (slots : Option (List Nat)) : Bool :=
  let t := readTable b thresh
  let mem (n : Nat) : Bool := match slots with | some l => l.contains n | none => true
  t.num ≤ 255 && t.fmt ≤ 12 && (t.sfmt ≤ 3 || t.sfmt = 0xFF) && 1 ≤ t.elems && t.elems ≤ 4096 && t.hint ≤ 4 && u8 b 7 ≤ 1
    && 1 ≤ t.rows && t.rows ≤ 2 ^ 40 && zeros b 0x11 15 && (if t.repl then mem t.home && !t.migrate else t.home = 0)
    && (List.range 256).all fun n => !bit t.writers n || mem n

def embedFails (i : Nat) (s : Bytes) (slots : Option (List Nat)) : List Fail :=
  let n := u16 s 0
  let es := recordsIn 0 256 n 64 64 s
  let nums := es.map fun p => u16 p.2 0
  failSec (n > 256 || s.length < 64 + 64 * n || u16 s 2 > 768 || !(2 ≤ u8 s 4 && u8 s 4 ≤ 64) || u8 s 5 != 0
      || !(100 ≤ u16 s 6 && u16 s 6 ≤ 60000) || !zeros s 8 56) ST_BAD_FORMAT i noEntry
    ++ es.flatMap fun p => failSec (!tableOk p.2 (u16 s 2) slots || (nums.take p.1).contains (u16 p.2 0)) ST_BAD_FORMAT i p.1

/-- How many of the first n tiles of a table have their home at a slot (R337). -/
def homeTiles (slots : List Nat) (num slot : Nat) : Nat → Nat
  | 0 => 0
  | n + 1 => homeTiles slots num slot n + ofBool (homeOf slots num n == slot)

/-- R336, R390: the tiles that a node holds of a table. -/
def Table.heldTiles (t : Table) (slots : List Nat) (slot : Nat) : Nat :=
  if t.repl || slots.length ≤ 1 then t.tiles else homeTiles slots t.num slot t.tiles

/-! ## POOL (R361, R362) -/

/-- R362: bytes of the directory. -/
def poolDirectory (dram spill segMax : Nat) : Nat := segMax * 64 + 8 * ((dram + spill) * 16384)

def readPool (s : Bytes) : Pool :=
  let dram := u32 s 0
  { on := true, cap := (dram * 2 ^ 30 - poolDirectory dram (u32 s 4) (u32 s 0xC)) / 65536, spillCap := u32 s 4 * 16384
    leaseMs := u16 s 8, handoffMs := u16 s 0xA, segMax := u32 s 0xC, part := u8 s 0x10
    ents := (records (min 1024 (u16 s 0x12)) 16 64 s).foldl (fun t p =>
      Tab.ins t (u16 p.2 0) { ns := u16 p.2 2, quota := u32 p.2 4, pinQuota := u32 p.2 8 }) [] }

def poolFails (i : Nat) (s : Bytes) (parts : Option (List Part)) (bibs : Option (List BibEnt)) (flashLeft : Option Nat) : List Fail :=
  let n := u16 s 0x12
  let dram := u32 s 0
  let spill := u32 s 4
  let es := recordsIn 0 1024 n 16 64 s
  let ids := es.map fun p => u16 p.2 0
  let bad := !(1 ≤ dram && dram ≤ 768) || spill > 262144 || !(1 ≤ u16 s 8 && u16 s 8 ≤ 1000) || !(1 ≤ u16 s 0xA && u16 s 0xA ≤ 1000)
    || !(1 ≤ u32 s 0xC && u32 s 0xC ≤ 1048576) || u8 s 0x11 != 0 || n > 1024 || !zeros s 0x14 44 || s.length < 64 + 16 * n
  failSec bad ST_BAD_FORMAT i noEntry
    ++ failSec (2 * poolDirectory dram spill (u32 s 0xC) > dram * 2 ^ 30
        || (match parts with
            | some ps => !(ps.any fun p => p.num == u8 s 0x10 && p.kind == 3)
            | none => false)
        || (match flashLeft with
            | some l => spill * 16384 > l
            | none => false)) ST_REFUSED_RESOURCE i noEntry
    ++ es.flatMap fun p =>
      failSec (u16 p.2 0 > 1023 || !zeros p.2 0xC 4 || (ids.take p.1).contains (u16 p.2 0)) ST_BAD_FORMAT i p.1
        ++ failSec (match bibs with
            | some l => !(l.any fun e => e.bib == u16 p.2 0)
            | none => false) ST_REFUSED_RESOURCE i p.1

/-! ## The image as a whole -/

/-- A course image read. -/
structure Image where
  serial : Nat
  secver : Nat
  slot : Nat
  plan : Bytes
  parts : List Part
  slices : Bytes
  carve : Carve
  pre : HeatsPre
  heats : List Heat
  meet : Option Meet
  outlets : List Outlet
  subs : List SubRec
  contracts : List Contract
  costs : List CostRec
  bibs : List BibEnt
  regs : List RegEnt
  emb : Option Embed
  pool : Option Pool
  dramGib : Nat
  raw : Recorded
deriving DecidableEq, Repr

/-- The bytes of the section of a type, if the image has one, with its index in the table. -/
def imageSection (img : Bytes) (ty : Nat) : Option (Nat × Bytes) :=
  (findSec (secTable img) ty).map fun p => (p.1, sub img p.2.off p.2.size)

def sectionOf (img : Bytes) (ty : Nat) : Bytes := ((imageSection img ty).map (·.2)).getD []

/-- Outlet rates of the CONTRACTS section. -/
def readRates (s : Bytes) : List Nat := (List.range 4).map fun o => u64 s (64 + 64 * u16 s 0 + 32 * u16 s 2 + 8 * o)

def readImage (img : Bytes) : Image :=
  let part := sectionOf img 1
  let carve := readCarve (sectionOf img 2)
  let heats := sectionOf img 3
  let tr := sectionOf img 5
  let con := sectionOf img 6
  let bibs := sectionOf img 7
  let rates := readRates con
  let meet := (imageSection img 4).map fun p => readMeet p.2 (u16 img 0x20) (sub img 0x40 64)
  let members := match meet with
    | some m => (m.members.map fun p => le 1 p.1 ++ p.2.fpr).flatten
    | none => []
  { serial := u64 img 0x18, secver := u32 img 0x14, slot := u16 img 0x20, plan := sub img 0x40 64, parts := readParts part
    slices := readSlices part, carve := carve, pre := if (imageSection img 3).isSome then readPre heats else {}
    heats := readHeats heats carve.pinned, meet := meet
    outlets := (List.range 4).map fun o => { readOutlet tr o with rate := rates.getD o 0 }
    subs := (records (min 1024 (u16 tr 0)) 160 576 tr).map fun p => readSub p.2
    contracts := (records (min 5120 (u16 con 0)) 64 64 con).map fun p => readContract p.2
    costs := (records (min 1024 (u16 con 2)) 32 (64 + 64 * u16 con 0) con).map fun p => readCost p.2
    bibs := readBibs bibs, regs := readRegs (sectionOf img 8), emb := (imageSection img 9).map fun p => readEmbed p.2
    pool := (imageSection img 10).map fun p => readPool p.2, dramGib := u32 (sectionOf img 10) 0
    raw := { heats := heats, embed := sectionOf img 9, bibs := bibs, parts := part, plan := sub img 0x40 64, members := members } }

def Image.slots (x : Image) : List Nat := match x.meet with | some m => Tab.keys m.members | none => [0]

/-! ## Capacities (R54, R55, R172, R383, R390, R409) -/

def roundUp (n k : Nat) : Nat := ceilDiv n k * k

/-- Table 02.6: bytes of the fixed carve-outs. -/
def Image.fixedBytes (x : Image) : Nat :=
  x.carve.flashRaw / 32768 * 8 + x.carve.journal * 1048576 + 1152 * 1048576
    + sum (x.heats.map fun h => roundUp (ceilDiv h.cap 8) 65536 + roundUp (h.sideCap * h.recSize) 65536 + roundUp h.pinned 65536)

/-- R54, R382: tiles of the shared pool. -/
def Image.sharedTiles (x : Image) : Nat := (768 * 2 ^ 30 - x.fixedBytes - x.dramGib * 2 ^ 30) / 65536

/-- R409: the logical capacity in tiles. -/
def Carve.logical (c : Carve) : Nat := c.flashRaw * (1000 - c.slcShare - 70) / 1000 / 65536

/-- R390: what the records, the tables and the spill take, in order. -/
def Image.heatTiles (x : Image) : Nat := sum (x.heats.map Heat.allTiles)
def Image.tables (x : Image) : List Table := match x.emb with | some e => Tab.vals e.tables | none => []
def Image.tableTiles (x : Image) : Nat := sum (x.tables.map fun t => t.heldTiles x.slots x.slot)
def Image.spillTiles (x : Image) : Nat := match x.pool with | some p => p.spillCap | none => 0

/-- Table 16.1: tables whose HINT is PIN_DRAM. -/
def Image.internalPins (x : Image) : Nat := sum ((x.tables.filter fun t => t.hint == 0).map fun t => t.heldTiles x.slots x.slot)

/-- The digest of an image (R61). -/
def imageDigest (img : Bytes) : Bytes := sha512 img

/-! ## Rules of the registers and of other sections together (R233, R252, R254, R257, R383) -/

/-- The entry of REGISTERS that gives a field its final value, else the heat's entry in HEATS. -/
def heatRegAt (img : Bytes) (x : Image) (f : Fld) (h : Nat) : Nat × Nat :=
  match (finalValue x.regs f h 0).2, imageSection img 8 with
  | some e, some p => (p.1, e)
  | _, _ => (((imageSection img 3).map (·.1)).getD 0, h)

/-- What is asked of each heat's SIDE block, of a heat whose own entry holds (R63) and against the partitions where they
could be read. -/
def sideFails (img : Bytes) (x : Image) (parts : Option (List Part)) : List Fail :=
  let sound (n : Nat) : Bool := heatEntOk (sub (sectionOf img 3) (64 + 64 * n) 64) x.slot
  ((List.zip (List.range x.heats.length) x.heats).filter fun p => sound p.1).flatMap fun p =>
    let v (f : Fld) : Nat := (finalValue x.regs f p.1 0).1
    let at_ (f : Fld) (c : Bool) (st : Nat) : List Fail := let q := heatRegAt img x f p.1; failSec c st q.1 q.2
    at_ .SIDE_CFG_BUILD_L (v .SIDE_CFG_BUILD_L < p.2.degree) ST_BAD_FORMAT
      ++ at_ .SIDE_CFG_PART (parts.any fun l => !(l.any fun q => q.num == v .SIDE_CFG_PART && q.kind == 0)) ST_REFUSED_RESOURCE
      ++ at_ .SIDE_CFG_PAUSEMAX (Config.longestPause (v .SIDE_CFG_PAUSEMAX) p.2.recSize p.2.degree > 20000) ST_REFUSED_RESOURCE

/-- R233: an engine whose slices name more than three partitions. -/
def sliceFails (i : Nat) (x : Image) : List Fail :=
  (List.range 128).flatMap fun e =>
    let named := (sub x.slices (64 * e) 64).foldl (fun l b => if b == 0xFF || l.contains b then l else b :: l) ([] : List Byte)
    failSec (named.length > 3) ST_REFUSED_RESOURCE i (x.parts.length + 64 * e)

/-- The failures of the capacity rules. -/
def Dev.capacityFails (d : Dev) (img : Bytes) (x : Image) : List Fail :=
  let at_ (ty : Nat) (c : Bool) : List Fail :=
    match imageSection img ty with
    | some p => failSec c ST_REFUSED_RESOURCE p.1 noEntry
    | none => []
  let raw := sum ((List.range 4).map fun n => d.rg .SLED_RAW_BYTES n)
  let total := x.fixedBytes + x.dramGib * 2 ^ 30
  let floor := (finalValue x.regs .TIER_CFG_FLOOR_GIB 0 0).1 * 16384
  let formatted := match d.fl.format with
    | some f => d.loader = 1 && d.ld.back = 5 && f != (x.carve.flashRaw, x.carve.slcShare)
    | none => false
  at_ 2 (total + x.carve.minShared * 2 ^ 30 > 768 * 2 ^ 30 || x.carve.flashRaw > raw || formatted
      || d.tBound (x.carve.journal * 1048576) > 120000000
      || Config.workReserve (leNat (imageDigest img)) + x.internalPins + floor > x.sharedTiles)
    ++ at_ 3 (x.heatTiles > x.carve.logical)
    ++ at_ 9 (x.heatTiles + x.tableTiles > x.carve.logical)

/-! ## The checks of CHECKING but admission (R62, R63) -/

def badFormat (l : List Fail) : Bool := l.any fun f => f.status == ST_BAD_FORMAT

/-- A section's bytes with its index, checked where it is present. -/
def onSection (img : Bytes) (ty : Nat) (f : Nat → Bytes → List Fail) : List Fail :=
  match imageSection img ty with
  | some p => f p.1 p.2
  | none => []

/-- The failures that a header, a section table and a trailer give (R48 to R51, R58, R59). -/
def Dev.layoutFails (d : Dev) (img : Bytes) : List Fail :=
  let t := secTable img
  let head := headFails img (t.any fun e => e.type == 4)
  if badFormat head then head
  else
    head ++ tableFails img.length t.length 0 [] t
      ++ (requiredTypes.flatMap fun ty => failAbsent (!(t.any fun e => e.type == ty)) ty) ++ d.keyFails img

/-- The failures of the sections. -/
def Dev.sectionFails (d : Dev) (img : Bytes) : List Fail :=
  let x := readImage img
  let whole (ty lo hi size : Nat) : Bool :=
    let s := sectionOf img ty
    (imageSection img ty).isNone || (lo ≤ u16 s 0 && u16 s 0 ≤ hi && 64 + size * u16 s 0 ≤ s.length)
  let part := onSection img 1 partFails
  let partsOk := !badFormat part
  let parts := if partsOk then some x.parts else none
  let heats := onSection img 3 fun i s => heatsFails i x.slot s
  let heatsOk := !badFormat heats
  let count := if whole 3 0 16 64 then x.heats.length else 16
  let carve := onSection img 2 fun i s => carveFails i count s
  let bibs := onSection img 7 fun i s => d.bibFails i s x.parts
  let bibsOk := !badFormat bibs
  let meet := onSection img 4 fun i s => d.meetFails i x.slot s parts
  let embed := onSection img 9 fun i s => embedFails i s (if whole 4 1 256 128 then some x.slots else none)
  let regs := onSection img 8 fun i s => regFails i count ((minSharedOf (sectionOf img 2)).getD 255) s
  let side := if whole 3 0 16 64 && (imageSection img 8).all fun p => p.2.length % 16 == 0 then sideFails img x parts else []
  let sound := partsOk && heatsOk && bibsOk && !badFormat carve && !badFormat meet && !badFormat embed
  let left := if sound then some (x.carve.logical - x.heatTiles - x.tableTiles) else none
  let pool := onSection img 10 fun i s => poolFails i s parts (if bibsOk then some x.bibs else none) left
  let traffic := onSection img 5 fun i s => d.trafficFails i s (x.bibs.map fun e => { e with bind := d.keptBind e }) bibsOk
  let con := onSection img 6 fun i s => d.contractFails i s x.bibs x.outlets
  let fmt := part ++ heats ++ carve ++ bibs ++ meet ++ embed ++ regs ++ side ++ pool ++ traffic ++ con
  fmt ++ (if sound && !badFormat fmt then onSection img 1 (fun i _ => sliceFails i x) ++ d.capacityFails img x else [])

/-- R63: every check but admission. -/
def Dev.imageFails (d : Dev) (img : Bytes) : List Fail :=
  let l := d.layoutFails img
  if badFormat (l.filter fun f => f.rank < 2 ^ 40) then l else l ++ d.sectionFails img

end Sys2Proof.Machine
end

