-- ==== Sys2Proof/Machine/Admission.lean ====
section
/-!
DEFINITION. The admission check (spec file 04, R101 to R109): the delay terms, the bounds, the failures and the refusal
report, for a course image and for a contract change.
-/
namespace Sys2Proof.Machine

/-! ## What the check works on -/

/-- R252, R466: an internal contract: kind 0 consolidation, 1 shard queries received over Relay. -/
structure Internal where
  part : Nat
  kind : Nat
  rate : Nat
  burst : Nat
  miss : Nat
deriving DecidableEq, Repr

/-- What the admission check is computed from. `contracts` with their record numbers; `tx` the transmission time of
L_max by outlet; `tf` the per-read bound of R417. -/
structure AdmEnv where
  digest : Nat
  parts : List Part
  slices : Bytes
  costs : List CostRec
  contracts : List (Nat × Contract)
  outlets : List Outlet
  tx : List Nat
  bibs : List (Nat × Nat × Option Nat)
  subs : List SubRec
  internals : List Internal
  tf : Nat
deriving DecidableEq, Repr

/-- R417: t_f, the largest over the sleds ONLINE, native and SLC mode, by the media table; tX is taken to 10 ns, as that table
gives it. DEDUCED (log 65). -/
def Dev.readBound (d : Dev) : Nat :=
  maxOf (d.onlineTargets.map fun p =>
    let m := d.mediaOf p.2
    let tx := (16384 * 200 / max 1 (d.rg .FLC_STAT_MTS (chanOf p.1)) + 1) / 2 * 10
    max m.tSus m.tProgJ + 2 * (max m.tR m.tRslc + tx + 450))

/-- R214: the lowest-numbered Walk engine of a partition. -/
def firstWalk (ps : List Part) (p : Nat) : Nat :=
  match ps.find? fun x => x.num == p with
  | some x => ((List.range 32).find? fun w => bit x.walk w).getD 0
  | none => 0

/-- The internal contracts, from what gives a register its value. -/
def internalsOf (val : Fld → Nat → Nat) (ps : List Part) (heats : List Nat) (meet : Option Meet) : List Internal :=
  let miss (p : Nat) : Nat := val .WLK_DEF_MISS (firstWalk ps p)
  heats.map (fun h =>
    let p := val .SIDE_CFG_PART h
    { part := p, kind := 0, rate := val .SIDE_CFG2_RATE h, burst := 64, miss := miss p })
    ++ (match meet with
      | some m => [{ part := m.servePart, kind := 1, rate := m.serveRate, burst := 256, miss := miss m.servePart }]
      | none => [])

/-- The check of an image. -/
def Dev.imageEnv (d : Dev) (img : Bytes) : AdmEnv :=
  let x := readImage img
  { digest := leNat (imageDigest img), parts := x.parts, slices := x.slices, costs := x.costs
    contracts := List.zip (List.range x.contracts.length) x.contracts, outlets := x.outlets
    tx := (List.range 4).map fun o => d.txMax o (x.outlets.getD o {})
    bibs := x.bibs.map fun e => (e.bib, e.part, (d.keptBind e).outlet), subs := x.subs
    internals := internalsOf (fun f i => (finalValue x.regs f i 0).1) x.parts (List.range x.heats.length) x.meet
    tf := d.readBound }

/-- CI_DIGEST as a number. -/
def Dev.activeDigest (d : Dev) : Nat := sum ((List.range 8).map fun i => d.rg .CI_DIGEST_WORD 0 i * 2 ^ (64 * i))

/-- A Pacer's record, with the change that its next refill applies. -/
def Pacer.record (p : Pacer) : Nat × Nat × Nat := p.next.getD (p.rate, p.depth, p.interval)

/-- The Pacers of a bib as a subscriber record. -/
def Dev.subRec (d : Dev) (b : Nat) : SubRec :=
  let one (k : Nat) : Nat × Nat × Nat := match Tab.find d.pacers (pacerKey b k) with | some p => p.record | none => (0, 0, 0)
  { bib := b, sub := one 8, svc := (List.range 8).map one }

/-- The check of a contract change: what is in force, with the outlets of the bindings of the image (R103) and the per-read
bound of the load (R417). -/
def Dev.liveEnv (d : Dev) : AdmEnv :=
  { digest := d.activeDigest, parts := d.parts, slices := d.sliceMap, costs := d.costs, contracts := d.contracts
    outlets := d.outlets, tx := (List.range 4).map fun o => d.txTime o (d.lMax o)
    bibs := (d.bibs.filter fun p => p.2.state != 0).map fun p => (p.1, p.2.part, p.2.imgOutlet)
    subs := (Tab.keys d.bibs).map d.subRec
    internals := internalsOf (fun f i => d.rg f i) d.parts (Tab.keys d.ix.heats) (if d.mt.on then some d.mt else none)
    tf := d.ld.tf }

/-! ## The terms (Table 04.3) -/

/-- The longest run of elements that satisfy a test, of a list laid twice and cut to its length: cyclic runs. -/
def longestRun {α : Type} (p : α → Bool) (l : List α) : Nat :=
  let step (acc : Nat × Nat) (a : α) : Nat × Nat := if p a then (acc.1 + 1, max acc.2 (acc.1 + 1)) else (0, acc.2)
  min l.length ((l ++ l).foldl step (0, 0)).2

/-- Term 3's r: the longest run of slices that a partition does not own, over all engines. -/
def unownedRun (slices : Bytes) (part : Nat) : Nat :=
  maxOf ((List.range 128).map fun e => longestRun (fun b : Byte => b.toNat != part) (sub slices (64 * e) 64))

/-- R102: Cerone's figures and the record's, the larger of each. -/
def AdmEnv.cost (v : AdmEnv) (part : Nat) (c : Contract) : CostRec :=
  let r := v.costs.getD c.cost {}
  let own (f : Nat) : Nat := Config.costModel v.digest part c.svc f
  { r with work := max r.work (own 0), scan := max r.scan (own 1), search := max r.search (own 2), occ := max r.occ (own 3) }

/-- R102, R106: Cerone's own figures of an internal contract. -/
def AdmEnv.internalCost (v : AdmEnv) (x : Internal) : CostRec :=
  let own (f : Nat) : Nat := Config.internalCost v.digest x.part x.kind f
  { work := own 0, occ := own 3, phases := own 4, kib := own 5 }

/-- The partition and the outlet of a bib. -/
def AdmEnv.partOf (v : AdmEnv) (b : Nat) : Nat := match v.bibs.find? fun p => p.1 == b with | some p => p.2.1 | none => 0
def AdmEnv.outletOf (v : AdmEnv) (b : Nat) : Option Nat := match v.bibs.find? fun p => p.1 == b with | some p => p.2.2 | none => none

/-- Term 8's sum of BURST over a partition, internal contracts included. -/
def AdmEnv.bursts (v : AdmEnv) (part : Nat) : Nat :=
  sum ((v.contracts.filter fun p => v.partOf p.2.bib == part).map fun p => p.2.burst)
    + sum ((v.internals.filter fun x => x.part == part).map (·.burst))

/-- The present Pacers of a contract: the subscriber's and the service's (R452). -/
def AdmEnv.pacers (v : AdmEnv) (c : Contract) : List (Nat × Nat × Nat) :=
  match v.subs.find? fun s => s.bib == c.bib with
  | some s => [s.sub, s.svc.getD c.svc (0, 0, 0)].filter fun p => p.1 > 0
  | none => []

/-- R106: a present Pacer is slower than the contract. -/
def AdmEnv.pacerFails (v : AdmEnv) (c : Contract) : Bool := (v.pacers c).any fun p => p.1 < c.rate * c.outBytes

/-- A sum of fractions n/d rounded up: each is brought over the common denominator. -/
def fracSum : List (Nat × Nat) → Nat × Nat
  | [] => (0, 1)
  | (n, m) :: r => let (a, b) := fracSum r; (n * b + a * m, m * b)

/-- Term 9. -/
def AdmEnv.pacerTerm (v : AdmEnv) (c : Contract) : Option Nat :=
  if v.pacerFails c then none
  else
    let l := (v.pacers c).map fun p => (p.2.2 * p.1 + (c.burst * c.outBytes - p.2.1) * 1000000000, p.1)
    let (n, m) := fracSum l
    some (ceilDiv n m)

/-- Term 10 at an outlet. -/
def AdmEnv.hurdle (v : AdmEnv) (c : Contract) (o : Nat) : Nat :=
  let x := v.outlets.getD o {}
  let run := if x.gates.isEmpty then 0 else longestClosed x.gates c.svc
  if run = 0 then 0 else run + v.tx.getD o 0

/-- Term 11 at an outlet: none where it is unbounded. -/
def AdmEnv.promotion (v : AdmEnv) (c : Contract) (o : Nat) : Option Nat :=
  let x := v.outlets.getD o {}
  if x.rate = 0 then none
  else some (ceilDiv (c.outBytes * 1000000000 * x.promoShare) (x.rate * (1000 - x.promoShare)) + v.tx.getD o 0)

/-- Terms 10 and 11: at the bib's outlet, else the largest over the outlets with a rate (R103). With no such outlet both are
taken as 0: DESIGN CHOICE (log 126), the spec names no largest value over no outlet. -/
def AdmEnv.outTerms (v : AdmEnv) (c : Contract) : Nat × Option Nat :=
  match v.outletOf c.bib with
  | some o => (v.hurdle c o, v.promotion c o)
  | none =>
    let os := [0, 1, 2, 3].filter fun o => (v.outlets.getD o {}).rate > 0
    (maxOf (os.map (v.hurdle c)), some (maxOf (os.map fun o => (v.promotion c o).getD 0)))

/-- Term 6 (R104). -/
def pauses (b0 : Nat) : Nat := 20000 * ((b0 + 1000000) / 980000)

/-- The sum of terms, none where one is unbounded. -/
def sumTerms : List (Option Nat) → Option Nat
  | [] => some 0
  | none :: _ => none
  | some a :: r => (sumTerms r).map (· + a)

/-- Terms 1 to 5 and 7 to 12 completed with term 6, and BOUND in µs. -/
def withPauses (head tail : List (Option Nat)) : List (Option Nat) × Option Nat :=
  let b0 := sumTerms (head ++ tail)
  (head ++ [b0.map pauses] ++ tail, b0.map fun b => ceilDiv (b + pauses b) 1000)

/-- The terms that a cost record gives: 1 to 4. -/
def AdmEnv.headTerms (v : AdmEnv) (part : Nat) (k : CostRec) : List (Option Nat) :=
  [some 2000, some k.work, some (k.phases * max 2000 (2000 * unownedRun v.slices part)), some (ceilDiv k.kib 64 * 128)]

/-- R103: the twelve terms and BOUND_p of a contract at an allowance of misses. -/
def AdmEnv.bound (v : AdmEnv) (c : Contract) (miss : Nat) : List (Option Nat) × Option Nat :=
  let part := v.partOf c.bib
  let k := v.cost part c
  let (t10, t11) := v.outTerms c
  withPauses (v.headTerms part k ++ [some (miss * v.tf)])
    [some (if c.scan then k.scan - k.work else 0), some (k.occ * v.bursts part), v.pacerTerm c, some t10, t11,
     some (if c.remote then c.remoteUs * 1000 - k.search else 0)]

/-- R106: BOUND_999 of an internal contract, µs: terms 9 to 12 are 0. -/
def AdmEnv.internalBound (v : AdmEnv) (x : Internal) : Nat :=
  let k := v.internalCost x
  ((withPauses (v.headTerms x.part k ++ [some (x.miss * v.tf)]) [some 0, some (k.occ * v.bursts x.part)]).2).getD 0

/-! ## The failures (R106, R107) -/

/-- A failure of admission, as Table 04.4 reports it, with its place: a contract's record or a partition's index. -/
structure AdmFail where
  bib : Nat
  svc : Nat
  perc : Nat
  target : Nat
  bound : Option Nat
  entry : Nat
  ofPart : Bool
  index : Nat
  terms : List (Option Nat)
deriving DecidableEq, Repr

/-- The failures of one contract. -/
def AdmEnv.contractFails (v : AdmEnv) (n entry : Nat) (c : Contract) : List AdmFail :=
  let mk (perc target : Nat) (b : Option Nat) (t : List (Option Nat)) : AdmFail :=
    { bib := c.bib, svc := c.svc, perc := perc, target := target, bound := b, entry := entry, ofPart := false, index := n, terms := t }
  if v.pacerFails c then [mk 0xFD c.p50 none (v.bound c c.miss50).1]
  else
    [(0, c.p50, c.miss50), (1, c.p99, c.miss99), (2, c.p999, c.miss999)].flatMap fun p =>
      let (t, b) := v.bound c p.2.2
      match b with
      | some n => if n > p.2.1 then [mk p.1 p.2.1 b t] else []
      | none => [mk p.1 p.2.1 none t]

/-- R105: RATE × OCC_NS summed over a partition, ns per second. -/
def AdmEnv.use (v : AdmEnv) (part : Nat) : Nat :=
  sum ((v.contracts.filter fun p => v.partOf p.2.bib == part).map fun p => p.2.rate * (v.cost part p.2).occ)
    + sum ((v.internals.filter fun x => x.part == part).map fun x => x.rate * (v.internalCost x).occ)

/-- R106: the contexts that a partition's contracts need; none where a bound is unbounded. -/
def AdmEnv.contexts (v : AdmEnv) (part : Nat) : Option Nat :=
  sumTerms (((v.contracts.filter fun p => v.partOf p.2.bib == part).map fun p =>
      ((v.bound p.2 p.2.miss999).2).map fun b => p.2.burst + ceilDiv (p.2.rate * b) 1000000)
    ++ (v.internals.filter fun x => x.part == part).map fun x => some (x.burst + ceilDiv (x.rate * v.internalBound x) 1000000))

/-- The failures of one partition. -/
def AdmEnv.partFails (v : AdmEnv) (i : Nat) (p : Part) : List AdmFail :=
  let mk (perc target : Nat) (b : Option Nat) : AdmFail :=
    { bib := p.num, svc := 0xFF, perc := perc, target := target, bound := b, entry := 0xFFFFFFFF, ofPart := true, index := i
      terms := List.replicate 12 (some 0) }
  (if v.use p.num > 1000000000 then [mk 0xFE 1000000 (some (ceilDiv (v.use p.num) 1000))] else [])
    ++ (match v.contexts p.num with
      | some n => if n > p.ctx then [mk 0xFF p.ctx (some n)] else []
      | none => [mk 0xFF p.ctx none])

/-- The partitions in number order, with their record index. -/
def AdmEnv.sortedParts (v : AdmEnv) : List (Nat × Part) :=
  sortBy (fun a b => a.2.num < b.2.num) (List.zip (List.range v.parts.length) v.parts)

/-- R107: every failure of an image, in order. -/
def AdmEnv.fails (v : AdmEnv) : List AdmFail :=
  (v.contracts.flatMap fun p => v.contractFails p.1 p.1 p.2) ++ v.sortedParts.flatMap fun p => v.partFails p.1 p.2

/-- R107, R108: every failure of a change of a bib's contracts, in order; `cmd` the services of the command's entries. -/
def AdmEnv.changeFails (v : AdmEnv) (bib : Nat) (cmd : List Nat) : List AdmFail :=
  let part := v.partOf bib
  let inCmd (c : Contract) : Bool := c.bib == bib && cmd.contains c.svc
  let own := (List.zip (List.range cmd.length) cmd).flatMap fun e =>
    (v.contracts.filter fun p => p.2.bib == bib && p.2.svc == e.2).flatMap fun p => v.contractFails p.1 e.1 p.2
  let others := (v.contracts.filter fun p => v.partOf p.2.bib == part && !inCmd p.2).flatMap fun p =>
    v.contractFails p.1 (p.1 + 2 ^ 31) p.2
  own ++ others ++ (v.sortedParts.filter fun p => p.2.num == part).flatMap fun p => v.partFails p.1 p.2

/-- Table 04.4. -/
def refusalReport (f : AdmFail) (failed : Nat) : Bytes :=
  let b := match f.bound with | some n => min n 0xFFFFFFFF | none => 0xFFFFFFFF
  let short := match f.bound with | some n => min (n - f.target) 0xFFFFFFFF | none => 0xFFFFFFFF
  le 4 magicYJAR ++ le 2 1 ++ le 2 f.bib ++ le 1 f.svc ++ le 1 f.perc ++ le 2 (min 0xFFFF failed) ++ le 4 f.target ++ le 4 b
    ++ le 4 short ++ le 4 f.entry ++ le 4 0
    ++ ((List.range 12).map fun i => le 8 ((f.terms.getD i (some 0)).getD (2 ^ 64 - 1))).flatten

/-- BOUND_999 of each contract as admitted. -/
def AdmEnv.bounds999 (v : AdmEnv) : List Nat := v.contracts.map fun p => min 0xFFFFFFFF (((v.bound p.2 p.2.miss999).2).getD 0xFFFFFFFF)

end Sys2Proof.Machine
end

