-- ==== Sys2Proof/Machine/Consol.lean ====
section
/-!
DEFINITION. Consolidation (spec file 10, R252 to R256): the bucket of build walks, staging, the pause.
-/
namespace Sys2Proof.Machine

/-- R97, R252: the consolidation bucket of a copy brought up to now, in 1/10^9 tokens; it starts full, with 64. -/
def Dev.consolTokens (d : Dev) (i : Nat) (h : Heat) : Nat :=
  min 64000000000 (h.tokens + d.rg .SIDE_CFG2_RATE i * (d.now - h.tokensAt))

/-- Slots that a copy has staged as inserts or walks for. -/
def Stage.taken (s : Stage) : Nat := s.builds.length + s.lists.length

/-- R253: staging goes on by itself to the next slot that needs a build walk; by fuel. With RATE 0 such a slot is passed
over (R252), and so is that of an item whose local ID the copy has still to reclaim. -/
def Dev.stageOn : Nat → Dev → Nat → Dev
  | 0, d, _ => d
  | f + 1, d, i =>
    match d.heat i with
    | none => d
    | some h =>
      let s := h.stage
      let a := max s.next h.head
      let go (s : Stage) := Dev.stageOn f (d.updHeat i fun h => { h with stage := { s with next := a + 1 } }) i
      let stop := d.updHeat i fun h => { h with stage := { s with ended := true } }
      if s.ended then d
      else if h.tail ≤ a || d.rg .SIDE_CFG_PAUSEMAX i ≤ s.taken then stop
      else
        match Tab.find h.side a with
        | none => go s
        | some x =>
          let floor := d.floorOf h
          let dels := h.rui.filter fun y => y.lid == x.lid && y.kind == 1 && y.slot == some a
          if x.retired != 0 || (Tab.get false h.merged x.lid && Tab.get false h.dead x.lid) then go s
          else if h.rui.any fun y => y.lid == x.lid && y.kind == 0 && y.slot == some a && floor < y.epoch then stop
          else if !dels.isEmpty then
            if dels.all fun y => floor < y.epoch then go s
            else go { s with discards := s.discards ++ [(a, x.lid)] }
          else if d.rg .SIDE_CFG2_RATE i = 0 then go s
          else d

/-- Fuel for the slots that a copy may look at. -/
def Heat.stageFuel (h : Heat) : Nat := h.tail - h.head + 1

/-- R252: the build walk of the slot that staging has reached: default budgets, beam BUILD_L, no filter, the floor as it
stands now, while the work reserve has room (R383). It asks for one item more than the list holds, since it finds the new item itself in the side list (log 79). -/
def Dev.buildWalk (d : Dev) (i : Nat) : Dev :=
  match d.heat i with
  | none => d
  | some h =>
    let a := max h.stage.next h.head
    match Tab.find h.side a with
    | none => d
    | some x =>
      let tokens := d.consolTokens i h
      if h.stage.ended || tokens < 1000000000 || !h.started || !d.workRoom 1 then d
      else
        let p := d.rg .SIDE_CFG_PART i
        let w := d.wlkInst p
        let q : SQ :=
          { origin := .build a, heat := i, part := p, epoch := d.floorOf h, filter := fill 80 0, code := x.code, localK := h.degree + 1
            beam := d.rg .SIDE_CFG_BUILD_L i, maxHops := d.rg .WLK_DEF_HOPS w, maxMiss := d.rg .WLK_DEF_MISS w
            maxEvals := d.rg .WLK_DEFE_EVALS w, est := 0, seeds := d.rg .WLK_SEED_COUNT w, mode := 1 }
        let n := d.ids
        let d := d.updHeat i fun h => { h with
          tokens := tokens - 1000000000, tokensAt := d.now
          stage := { h.stage with next := a + 1, builds := h.stage.builds ++ [(n, a)] } }
        (d.newSq q).2

/-- A build walk has ended: its list's entries, without the item itself, or none where the walk failed; that slot is passed
over and staged again after the pause. -/
def Dev.buildDone (d : Dev) (n i slot : Nat) (got : Option (List Nat)) : Dev :=
  d.updHeat i fun h =>
    if h.stage.builds.contains (n, slot) then
      let own := (Tab.find h.side slot).map (·.lid)
      { h with stage := { h.stage with
          builds := h.stage.builds.filter fun b => b.1 != n
          lists := match got with
            | some l => Tab.ins h.stage.lists slot ((l.filter fun y => some y != own).take h.degree)
            | none => h.stage.lists } }
    else h

/-! ## The neighbour lists that staging makes (R253) -/

/-- Neighbour lists as far as staging has changed them. -/
abbrev Lists := Tab (List Nat)

def Heat.adjOf (h : Heat) (ls : Lists) (l : Nat) : List Nat := (Tab.find ls l).getD (h.lane l).adj

/-- An empty slot of a list (R168). -/
def noRef : Nat := 0xFFFFFFFF

/-- A list with one reference taken out: valid references first, then what is neither valid nor empty, then empty slots. -/
def Heat.without (h : Heat) (l : List Nat) (z : Nat) : List Nat :=
  let l := l.filter fun r => r != z && r != noRef
  let l := l.filter h.refOk ++ l.filter fun r => !h.refOk r
  l ++ List.replicate (h.degree - l.length) noRef

/-- A list filled up to the degree. -/
def Heat.padded (h : Heat) (l : List Nat) : List Nat := l.take h.degree ++ List.replicate (h.degree - l.length) noRef

/-- The code of a local ID while `codes` are being merged. -/
def Heat.codeOf (h : Heat) (codes : Tab Bytes) (l : Nat) : Bytes := (Tab.find codes l).getD (h.lane l).code

/-- The farthest valid neighbour in a list; of equals the highest local ID. -/
def Heat.farthest (h : Heat) (dist : Nat → Nat) (l : List Nat) : Option Nat :=
  (l.filter h.refOk).foldl (fun (b : Option Nat) z => match b with
    | none => some z
    | some w => if dist w < dist z || (dist w == dist z && w < z) then some z else some w) none

/-- R253: a new item x enters the list of an item y of its own list, where there is an empty slot or x is nearer than the
farthest. An item that has no list yet, being still in the side list, gets none (DESIGN CHOICE, log 50). -/
def Heat.link (h : Heat) (codes : Tab Bytes) (x : Nat) (ls : Lists) (y : Nat) : Lists :=
  if !(Tab.has ls y) && !(Tab.get false h.merged y) then ls
  else
    let l := h.adjOf ls y
    let dist (z : Nat) : Nat := hamming (codeBytes h.code) (h.codeOf codes y) (h.codeOf codes z)
    if l.contains noRef || l.length < h.degree then
      Tab.ins ls y (h.padded (l.takeWhile (· != noRef) ++ x :: (l.dropWhile (· != noRef)).drop 1))
    else match h.farthest dist l with
      | none => ls
      | some w => if dist x < dist w then Tab.ins ls y (l.map fun z => if z = w then x else z) else ls

/-- The neighbour lists that staged inserts make, in slot order. -/
def Heat.insLists (h : Heat) (ins : List (Nat × Nat × Bytes × Nat × List Nat)) : Lists :=
  let codes : Tab Bytes := ins.foldl (fun t p => Tab.ins t p.2.1 p.2.2.1) []
  ins.foldl (fun ls p =>
    p.2.2.2.2.foldl (fun ls y => h.link codes p.2.1 ls y) (Tab.ins ls p.2.1 (h.padded p.2.2.2.2))) []

/-- The tiles of some lists. -/
def Heat.listTiles (h : Heat) (ls : Lists) : Nat := ((Tab.keys ls).map h.tileOf).eraseDups.length

/-- R383: of the staged inserts, the first whose tiles the work reserve holds; by fuel. -/
def Heat.fitIns (h : Heat) (room : Nat) : Nat → List (Nat × Nat × Bytes × Nat × List Nat) → List (Nat × Nat × Bytes × Nat × List Nat)
  | 0, l => l
  | f + 1, l => if l.isEmpty || h.listTiles (h.insLists l) ≤ room then l else Heat.fitIns h room f l.dropLast

/-- R253, R255: merged items deleted at or before the floor, no seed, at most 4 × PAUSEMAX, by local ID (log 50). -/
def Dev.reclaims (d : Dev) (i : Nat) (h : Heat) : List Nat :=
  let floor := d.floorOf h
  ((Tab.keys h.merged).filter fun l => Tab.get false h.merged l && Tab.get false h.dead l && 64 ≤ l
    && !(h.rui.any fun y => y.lid == l && y.kind == 1 && floor < y.epoch)).take (4 * d.rg .SIDE_CFG_PAUSEMAX i)

/-- R253: every build walk has ended: staging makes the neighbour lists of the inserts, in slot order, and picks and repairs
for what it reclaims at the floor as it stands now, as much as the work reserve holds (R383). A list that took an item before it was staged as discarded or reclaimed
loses it again (R255). -/
def Dev.stageMake (d : Dev) (i : Nat) : Dev :=
  match d.heat i with
  | none => d
  | some h =>
    if !h.stage.ended || !h.stage.builds.isEmpty || h.stage.made || h.pausing then d
    else
      let room := d.rg .TIER_WORK_TILES - (d.workUsed - h.stageTiles)
      let ins := h.fitIns room (h.stage.lists.length + 1) h.stagedIns
      let made := h.insLists ins
      let repaired := (d.reclaims i h).foldl (fun ls z => ((h.adjOf ls z).filter h.refOk).foldl (fun ls y =>
        if !(Tab.has ls y) && !(Tab.get false h.merged y) then ls else Tab.ins ls y (h.without (h.adjOf ls y) z)) ls) made
      let (dead, ls) := if h.listTiles repaired ≤ room then (d.reclaims i h, repaired) else ([], made)
      let gone := dead ++ h.stage.discards.map (·.2)
      let ls := (ls.filter fun p => !dead.contains p.1).map fun p =>
        (p.1, (p.2.filter gone.contains).foldl h.without p.2)
      d.updHeat i fun h => { h with stage := { h.stage with
        made := true, links := ls, reclaims := dead, lists := h.stage.lists.filter fun p => ins.any fun q => q.1 == p.1 } }

/-- Staging goes on as far as it can by itself. -/
def Dev.stageGo (d : Dev) (i : Nat) : Dev :=
  match d.heat i with
  | none => d
  | some h => (Dev.stageOn h.stageFuel d i).stageMake i

/-! ## The pause (R254) -/

/-- R494: the planned interruption of the current hour of split time, in ns. -/
def Dev.plannedUsed (d : Dev) : Nat := if d.ix.planned.1 = d.now / 3600000000000 then d.ix.planned.2 else 0

/-- R494: a pause of this copy holds every dispatch of the node, as no other copy has pending work. -/
def Dev.holdsAll (d : Dev) (i : Nat) : Bool := !d.ix.sqs.isEmpty && d.ix.sqs.all fun p => p.2.heat == i

/-- R494: a pause, at its bound of 20 µs, stays within 0.05% of the hour; otherwise it is deferred. It waits for room for the
tiles that it makes dirty (R384). -/
def Dev.pauseFits (d : Dev) (i : Nat) : Bool :=
  (!d.holdsAll i || d.plannedUsed + 20000 ≤ 1800000000) && (d.heat i).all fun h => d.dirtyFits h.pauseTiles

/-- R254: a pause begins: the pause number rises, and dispatch of the copy's groups and side-list batches is held. -/
def Dev.pauseBegin (d : Dev) (i : Nat) : Dev :=
  d.updHeat i fun h => { h with pausing := true, pauseNo := if h.pauseNo = 0xFFFFFFFF then 1 else h.pauseNo + 1 }

/-- R254: the writes of a pause. A discarded item's local ID is free as a reclaimed one is, but for those of seeds (R255;
log 44). -/
def Dev.pause (d : Dev) (i : Nat) : Dev :=
  match d.heat i with
  | none => d
  | some h =>
    let no := h.pauseNo
    let ins := h.stagedIns
    let dead := h.stage.reclaims
    let ls := h.stage.links
    let recs := ins.foldl (fun t p => Tab.ins t p.2.1 { code := p.2.2.1, attr := p.2.2.2.1, adj := (Tab.find ls p.2.1).getD [] }) h.recs
    let recs := ls.foldl (fun t p => Tab.ins t p.1 { ((Tab.find t p.1).getD h.blank) with adj := p.2 }) recs
    let merged := ins.foldl (fun t p => Tab.put false t p.2.1 true) h.merged
    let merged := dead.foldl (fun t z => Tab.put false t z false) merged
    let marks := dead.foldl (fun t z => Tab.del t z) h.dead
    let retire (t : Tab SideEnt) (a : Nat) := Tab.upd t a fun x => { x with retired := no }
    let side := h.stage.discards.foldl (fun t a => retire t a.1) (ins.foldl (fun t p => retire t p.1) h.side)
    let free := dead ++ (h.stage.discards.map (·.2)).filter fun l => 64 ≤ l && Tab.get 0 h.st l = 2
    let st := free.foldl (fun t l => if Tab.get 0 t l = 2 then Tab.put 0 t l 0 else t) h.st
    let rui := h.rui.map fun y =>
      if y.kind = 1 && (ins.any fun p => p.2.1 == y.lid && y.slot == some p.1) then { y with merged := true } else y
    let homeMerged := (dead ++ ins.map fun p => p.2.1).foldl (fun t z => Tab.put false t z false) h.homeMerged
    let tilesOf (p : Nat × Nat × Bytes × Nat × List Nat) : List Nat :=
      (h.tileOf p.2.1 :: (p.2.2.2.2.filter fun y => Tab.has ls y).map h.tileOf).eraseDups
    let unhomed := ins.foldl (fun t p => Tab.ins t p.2.1 (tilesOf p)) (dead.foldl (fun t z => Tab.del t z) h.unhomed)
    let d := d.updHeat i fun h => { h with
      recs := recs, merged := merged, dead := marks, side := side, st := st, rui := rui, homeMerged := homeMerged, unhomed := unhomed
      stage := {}, pausing := false }
    let d := h.pauseTiles.foldl (fun d k => d.markDirty k 1) d
    let d := d.bump .SIDE_MERGED_COUNT ins.length i
    let d := d.bump .SIDE_RECLAIMED_COUNT free.length i
    let d := d.bump .SIDE_DISCARDED_COUNT h.stage.discards.length i
    let (k, d) := d.draw
    let len := min 20000 (Config.pauseTime k)
    let d := d.raiseTo .SIDE_LONGEST_NS len i
    let d := if d.holdsAll i then d.setIx fun x => { x with planned := (d.now / 3600000000000, d.plannedUsed + len) } else d
    ((Dev.advanceHead h.stageFuel d i).pruneHeat i |>.trimJournal i).dispatchAll

/-- A pause that has begun runs once the copy's groups have returned. -/
def Dev.pauseDue (d : Dev) : Dev :=
  d.ix.heats.foldl (fun d p =>
    if p.2.pausing && !((Tab.vals d.ix.groups).any fun g => g.running && g.heat == p.1) then d.pause p.1 else d) d

/-- Whether a copy's staging is complete and holds work. -/
def Dev.staged (d : Dev) (i : Nat) : Bool :=
  match d.heat i with
  | none => false
  | some h => h.stage.made && !h.pausing
      && !(h.stage.lists.isEmpty && h.stage.discards.isEmpty && h.stage.reclaims.isEmpty)

/-- A staging that has ended with nothing is begun again. -/
def Dev.restage (d : Dev) (i : Nat) : Dev :=
  match d.heat i with
  | none => d
  | some h => if h.stage.made && !d.staged i && !h.pausing then
      d.updHeat i fun h => { h with stage := {} } else d

/-- The flash copy of a heat's tile is written (R389): what it now holds of the records. A merge is home once every tile that
it wrote is (R243). -/
def Dev.homeTile (d : Dev) (k : Nat) : Dev :=
  if 2 ^ 42 ≤ k then d
  else
    match d.heatIdx (k / 2 ^ 32) with
    | none => d
    | some i => d.updHeat i fun h =>
        let mine := (Tab.keys h.recs ++ Tab.keys h.merged).filter fun l => h.tileOf l = k
        let unhomed := Tab.mapV h.unhomed fun _ l => l.filter (· != k)
        let whole := (h.unhomed.filter fun p => p.2.contains k).map (·.1)
        let ready_ (l : Nat) : Bool := (Tab.get [] unhomed l).isEmpty
        { h with
          unhomed := unhomed.filter fun p => !p.2.isEmpty
          home := mine.foldl (fun t l => Tab.ins t l (h.lane l)) h.home
          homeMerged := (mine ++ whole).foldl (fun t l => Tab.put false t l (Tab.get false h.merged l && ready_ l)) h.homeMerged }

end Sys2Proof.Machine
end

