-- ==== Sys2Proof/Machine/Refill.lean ====
section
/-!
DEFINITION. Bringing a copy up to date after a restart (spec file 19, R491): missing groups, and REFILL frames.
-/
namespace Sys2Proof.Machine

def LaneRec.bytes (r : LaneRec) : Bytes := r.code ++ le 8 r.attr ++ (r.adj.map fun a => le 4 a).flatten

def readLane (cb deg : Nat) (b : Bytes) : LaneRec :=
  { code := b.take cb, attr := u64 b cb, adj := (List.range deg).map fun i => u32 b (cb + 8 + 4 * i) }

/-- The local ID of record i of tile t of stack s (R169). -/
def Heat.lidAt (h : Heat) (s t i : Nat) : Nat := 8 * (t * h.perTile + i) + (s + 8 - h.number % 8) % 8

/-- The head of a REFILL payload (Table 19.9). -/
def refillHead (heat kind epoch index : Nat) : Bytes := le 2 heat ++ le 1 kind ++ le 1 0 ++ le 4 epoch ++ le 8 index

/-- Table 19.9 gives an index entry 16 bytes and no layout: local ID, kind, MERGED, commit epoch (log 64). -/
def ruiBytes (x : Rui) : Bytes := le 4 x.lid ++ le 1 x.kind ++ le 1 (ofBool x.merged) ++ le 2 0 ++ le 4 (x.epoch % 2 ^ 32) ++ le 4 0

/-- R244: the tiles of the side list in each stack; slot j lies in stack j mod 8, at position j ÷ 8 of that stack's part. -/
def Heat.sideTiles (h : Heat) : Nat := ceilDiv (h.sideCap / 8) h.perTile

/-- The slots of tile t of stack s of the side list, in order, by their place in the ring's numbering: the entry that stands
between head and tail at each. -/
def Heat.sideSlots (h : Heat) (s t : Nat) : List Nat :=
  (List.range h.perTile).map fun i =>
    let j := 8 * (t * h.perTile + i) + s
    h.head + (j + h.sideCap - h.head % h.sideCap) % h.sideCap

/-- A side-list entry (Table 10.4). -/
def Heat.sideBytes (h : Heat) (x : SideEnt) : Bytes := fit h.recSize (le 4 x.lid ++ le 4 x.retired ++ x.code ++ le 8 x.attr)

/-- R491: the primary's snapshot for a copy that is to be refilled. Region tile s × T + t is tile t of stack s; tiles that
hold no record are zeros and are not sent; a tile of the side list is numbered alike, stack by stack, and the end frame's INDEX
holds HEAD in its low and TAIL in its high 32 bits (log 64). -/
def Dev.sendRefill (d : Dev) (h : Heat) (slot : Nat) : Dev :=
  let e := h.applied % 2 ^ 32
  let send (d : Dev) (kind index : Nat) (data : Bytes) : Dev := d.relaySend slot K_REFILL (refillHead h.number kind e index ++ data)
  let tiles := ((Tab.keys h.recs).map fun l => h.stackOf l * h.tilesPerStack + l / 8 / h.perTile).eraseDups
  let d := tiles.foldl (fun d n =>
    send d 0 n (fit 65536 (((List.range h.perTile).map fun i =>
      (h.lane (h.lidAt (n / h.tilesPerStack) (n % h.tilesPerStack) i)).bytes).flatten))) d
  let place (a : Nat) : Nat := let j := a % h.sideCap; j % 8 * h.sideTiles + j / 8 / h.perTile
  let side := ((Tab.keys h.side).map place).eraseDups
  let d := side.foldl (fun d n => send d 1 n (fit 65536 ((h.sideSlots (n / h.sideTiles) (n % h.sideTiles)).map fun a =>
    match Tab.find h.side a with | some x => h.sideBytes x | none => fill h.recSize 0).flatten)) d
  let maps := ((Tab.keys h.merged).map fun l => l / 524288).eraseDups
  let d := maps.foldl (fun d i =>
    send d 2 i ((List.range 65536).map fun j =>
      BitVec.ofNat 8 (sum ((List.range 8).map fun k => ofBool (h.tomb (i * 524288 + 8 * j + k)) * 2 ^ k)))) d
  let d := (List.range (ceilDiv h.rui.length 4096)).foldl (fun d i =>
    send d 3 (4096 * i) (((h.rui.drop (4096 * i)).take 4096).map ruiBytes).flatten) d
  send d 4 (h.head % 2 ^ 32 + h.tail % 2 ^ 32 * 2 ^ 32) []

/-- R491: the groups that a copy within the floor has missed, each with its COMMIT; epochs between them commit empty. -/
def Dev.sendGroups (d : Dev) (h : Heat) (slot from_ : Nat) : Dev :=
  let gs := d.fl.journal.filter fun j => j.heat == h.number && from_ < j.epoch && j.epoch ≤ h.applied
  let commit (d : Dev) (e : Nat) (empty : Bool) : Dev :=
    d.relaySend slot K_COMMIT (le 2 h.number ++ le 1 (ofBool empty) ++ le 1 0 ++ le 4 (e % 2 ^ 32))
  let d := gs.foldl (fun d j =>
    let us : List Upd := j.upds.map fun u => { id := 0, kind := u.1, lid := u.2.1, attr := u.2.2.1, code := u.2.2.2, req := none }
    commit (d.relaySend slot K_GROUP (groupBytes h.number (j.epoch % 2 ^ 32) us)) j.epoch false) d
  commit d h.applied true

/-- A REFILL payload is taken by a copy that is catching up. Of the side list it takes the live entries: RETIRED numbers the sender's pauses. -/
def Dev.takeRefill (d : Dev) (b : Bytes) : Dev :=
  match d.heatIdx (u16 b 0) with
  | none => d
  | some i =>
    match d.heat i with
    | none => d
    | some h =>
      let idx := u64 b 8
      let data := b.drop 16
      let cb := codeBytes h.code
      let d := if h.state = 4 || h.state = 0 || h.role = 0 then d else d.updHeat i fun h =>
          { h with state := 4, recs := [], merged := [], side := [], rui := [], st := [], dead := [], stage := {} }
      if h.state = 0 || h.role = 0 then d
      else match u8 b 2 with
        | 0 =>
          let s := idx / max 1 h.tilesPerStack
          let t := idx % max 1 h.tilesPerStack
          let rs := (List.range h.perTile).filterMap fun j =>
            let l := h.lidAt s t j
            if l < h.cap then some (l, readLane cb h.degree (sub data (j * h.recSize) h.recSize)) else none
          (d.updHeat i fun h => { h with recs := rs.foldl (fun m p => if p.2 = h.blank then Tab.del m p.1 else Tab.ins m p.1 p.2) h.recs }).markDirty
            (heatTile h.number s t) 1
        | 1 =>
          let s := idx / max 1 h.sideTiles
          let t := idx % max 1 h.sideTiles
          let es := (List.range h.perTile).map fun j =>
            let x := sub data (j * h.recSize) h.recSize
            (8 * (t * h.perTile + j) + s, ({ lid := u32 x 0, retired := u32 x 4, code := sub x 8 cb, attr := u64 x (8 + cb) } : SideEnt))
          d.updHeat i fun h => { h with side := (es.filter fun p => p.1 < h.sideCap).foldl (fun m p => Tab.ins m p.1 p.2) h.side }
        | 2 =>
          d.updHeat i fun h => { h with merged := (List.range 524288).foldl (fun m k =>
            let l := idx * 524288 + k
            if l < h.cap then Tab.put false m l (!bit (u8 data (k / 8)) (k % 8)) else m) h.merged }
        | 3 =>
          let rs := (List.range (data.length / 16)).map fun j =>
            let x := sub data (16 * j) 16
            ({ lid := u32 x 0, kind := u8 x 4, merged := u8 x 5 = 1, epoch := d.wholeEpoch (u32 x 8) } : Rui)
          d.updHeat i fun h => { h with rui := (if idx = 0 then [] else h.rui) ++ rs }
        | _ =>
          d.updHeat i fun h =>
            let head := idx % 2 ^ 32
            let tail := idx / 2 ^ 32 + (if idx / 2 ^ 32 < head then 2 ^ 32 else 0)
            let slots := (List.range (min h.sideCap (tail - head))).map (head + ·)
            let side : Tab SideEnt := slots.filterMap fun a => match Tab.find h.side (a % h.sideCap) with
              | some x => if x.retired = 0 then some (a, x) else none
              | none => none
            let older (x : Rui) : Bool := x.kind == 1 && (x.merged || h.rui.any fun y => y.lid == x.lid && y.kind == 0 && x.epoch < y.epoch)
            let rui : List Rui := h.rui.map fun x =>
              { x with slot := if older x then none else (side.filter fun p => p.2.lid == x.lid).getLast?.map (·.1) }
            let h : Heat := { h with side := side, rui := rui }
            let st : Tab Nat := h.merged.map fun p => (p.1, 1)
            let gone := h.rui.filter fun x => x.kind == 1
            let st := (gone.filter older).foldl (fun t x => Tab.ins t x.lid 2) st
            let st := side.foldl (fun t p => Tab.ins t p.2.lid 1) st
            let st := (gone.filter fun x => !older x).foldl (fun t x => Tab.ins t x.lid 2) st
            let marked := gone.filter (·.merged)
            let merged := marked.foldl (fun t x => Tab.ins t x.lid true) h.merged
            let dead := marked.foldl (fun t x => Tab.ins t x.lid true) h.dead
            { h with head := head, tail := tail, st := st, merged := merged, dead := dead, applied := d.wholeEpoch (u32 b 4), started := true
                     empty := false, recv := h.recv.filter fun g => d.wholeEpoch (u32 b 4) < g.epoch, stage := {}, state := if d.synced then 0 else 1 }

/-- The tile of the region that a REFILL payload writes, if it is one. -/
def Dev.refillTile (d : Dev) (b : Bytes) : List Nat :=
  match d.heatIdx (u16 b 0) with
  | none => []
  | some i => match d.heat i with
    | none => []
    | some h => if u8 b 2 = 0 then [heatTile h.number (u64 b 8 / max 1 h.tilesPerStack) (u64 b 8 % max 1 h.tilesPerStack)] else []

/-- R384: waiting REFILL payloads are taken, in order, while their tiles have room among the dirty ones; by fuel. -/
def Dev.refillGo : Nat → Dev → Dev
  | 0, d => d
  | f + 1, d =>
    match d.ix.refills with
    | [] => d
    | b :: r =>
      if d.dirtyFits (d.refillTile b) then Dev.refillGo f ((d.setIx fun x => { x with refills := r }).takeRefill b) else d

/-- REFILL. -/
def Dev.onRefill (d : Dev) (b : Bytes) : Dev :=
  Dev.refillGo (d.ix.refills.length + 1) (d.setIx fun x => { x with refills := x.refills ++ [b] })

end Sys2Proof.Machine
end

