-- ==== Sys2Proof/Machine/Vector.lean ====
section
/-!
DEFINITION. The vector unit of a tile (R284): its FP32 operations, its functions within 2 units in the last place of the
exact result, and the vector operations before a layer.
-/
namespace Sys2Proof

/-! ## The exact functions, as rationals whose relative error is far below a unit in the last place -/

/-- Fixed point: the units in 1. -/
def fxOne : Nat := 2 ^ 200

/-- The square root of a number, rounded down. -/
def isqrt (n : Nat) : Nat :=
  ((List.range 512).reverse).foldl (fun r i => if (r + 2 ^ i) * (r + 2 ^ i) ≤ n then r + 2 ^ i else r) 0

/-- e^x, in fixed point, of a magnitude of at most 256 in fixed point. -/
def fxExp (x : Nat) : Nat :=
  let y := x / 2 ^ 8
  let s := (List.range 60).foldl (fun (a : Nat × Nat) i => let t := a.2 * y / (fxOne * (i + 1)); (a.1 + t, t)) (fxOne, fxOne)
  (List.range 8).foldl (fun e _ => e * e / fxOne) s.1

/-- 2 × atanh t, in fixed point. -/
def fxAtanh2 (t : Int) : Int :=
  let q := t * t / fxOne
  let s := (List.range 80).foldl (fun (a : Int × Int) i => (a.1 + a.2 / (2 * i + 1 : Nat), a.2 * q / fxOne)) ((0 : Int), t)
  2 * s.1

/-- 2 ÷ √π in fixed point. -/
def fxErfScale : Nat := 1813235411955051368075975534027907639852476658415964181376627

/-- erf x, in fixed point, of a magnitude of at most 6. -/
def fxErf (x : Nat) : Int :=
  let q := x * x / fxOne
  let s := (List.range 200).foldl (fun (a : Int × Nat) i =>
    let t : Int := ((a.2 / (2 * i + 1) : Nat) : Int)
    (if i % 2 = 0 then a.1 + t else a.1 - t, a.2 * q / (fxOne * (i + 1)))) ((0 : Int), x)
  s.1 * fxErfScale / fxOne

/-- A magnitude n/d in fixed point. -/
def fxOf (n d : Nat) : Nat := n * fxOne / d

/-- x × (1 − x² ÷ 3), which tanh and, scaled, erf are near 0. -/
def nearZero (neg : Bool) (n d : Nat) : Num := .fin neg (n * (3 * d * d - n * n)) (3 * d * d * d)

/-- The exact result of a function at a finite value, where it can be a normal FP32 number. -/
def VFun.exact (f : VFun) (v : Num) : Option Num :=
  match v with
  | .inf _ => none
  | .nan => none
  | .fin s n d =>
    let d := Nat.max 1 d
    let small : Bool := n * 2 ^ 20 < d
    let upTo (k : Nat) : Bool := n ≤ k * d
    match f with
    | .reciprocal => if n = 0 then none else some (.fin s d n)
    | .rsqrt => if n = 0 || s then none else some (.fin false (isqrt (d * 2 ^ 400 / n)) (2 ^ 200))
    | .exp =>
      if !upTo 104 then none
      else let e := fxExp (fxOf n d)
           some (if s then .fin false fxOne e else .fin false e fxOne)
    | .log =>
      if n = 0 || s then none
      else
        let e := log2Ratio n d
        let (a, b) := if 0 ≤ e then (n, d * 2 ^ e.toNat) else (n * 2 ^ (-e).toNat, d)
        let (a, b, e) := if 3 * b < 2 * a then (a, 2 * b, e + 1) else (a, b, e)
        let t : Int := ((a : Int) - b) * fxOne / (a + b : Nat)
        let r := fxAtanh2 t + e * fxAtanh2 ((fxOne / 3 : Nat) : Int)
        some (.fin (decide (r < 0)) r.natAbs fxOne)
    | .tanh =>
      if small then some (nearZero s n d)
      else if !upTo 20 then some (.fin s 1 1)
      else let e := fxExp (fxOf (2 * n) d); some (.fin s (e - fxOne) (e + fxOne))
    | .sigmoid =>
      if !upTo 104 then (if s then none else some (.fin false 1 1))
      else let e := fxExp (fxOf n d); some (if s then .fin false fxOne (fxOne + e) else .fin false e (e + fxOne))
    | .erf =>
      if small then some ((nearZero s n d).mul (.fin false fxErfScale fxOne))
      else if !upTo 6 then some (.fin s 1 1)
      else some (.fin s (fxErf (fxOf n d)).natAbs fxOne)

/-- R284: whether an FP32 word is within 2 units in the last place of an exact value, which stands with a relative error
below 2^-60. -/
def withinTwo (a : Num) (y : Nat) : Bool :=
  match a, fp32Value y with
  | .fin _ n d, .fin t m e =>
    let gap := ((Num.fin t m e).add a.neg).abs
    let ulp := Num.dyad false (2 ^ 31 + 1) (fp32.ulpExp n (Nat.max 1 d) - 30)
    !(ulp.lt gap)
  | _, _ => false

/-- R284: a function of the vector unit. For a finite operand whose result is a normal number it gives one of the words within
2 units in the last place, which one is free; otherwise its result is free. -/
def VFun.apply (f : VFun) (x k : Nat) : Nat :=
  let free := Config.vecFree k
  match f.exact (fp32Value x) with
  | none => free % 2 ^ 32
  | some a =>
    let c := toFp32 a
    let e := bits c 30 23
    if e = 0 || e = 255 then free % 2 ^ 32
    else
      let y := c + free % 5 - 2
      if withinTwo a y then y else c

/-! ## The other operations (R284) -/

def fp32IsNan (x : Nat) : Bool := bits x 30 23 = 255 && bits x 22 0 != 0

/-- R284: the comparison; with a NaN it does not hold, and the two zeros are equal. -/
def fp32Less (x y : Nat) : Bool :=
  let key (x : Nat) : Int := if bit x 31 then -((x % 2 ^ 31 : Nat) : Int) else ((x % 2 ^ 31 : Nat) : Int)
  !fp32IsNan x && !fp32IsNan y && decide (key x < key y)

/-- The minimum of two words; of two that compare neither way, one that the spec leaves free. -/
def fp32Min (x y k : Nat) : Nat :=
  if fp32Less x y then x else if fp32Less y x then y else if x = y then x else if Config.vecFree k % 2 = 0 then x else y

/-- R281: an element of a tensor, widened exactly to FP32. -/
def widen (fmt c : Nat) : Nat := if fmt = 12 then c else toFp32 (elemValue fmt c)

/-- An operation's result, from the results before it and the tensors of the row (format, elements). -/
def VOp.eval (tensors : List (Nat × List Nat)) (tape : List Nat) (k : Nat) (o : VOp) : Nat :=
  let r (i : Nat) : Nat := (tape[i]?).getD (Config.vecFree k % 2 ^ 32)
  match o with
  | .const w => w % 2 ^ 32
  | .load t i => match tensors[t]? with
    | some (f, es) => (es[i]?.map (widen f)).getD (Config.vecFree k % 2 ^ 32)
    | none => Config.vecFree k % 2 ^ 32
  | .add a b => fp32Add (r a) (r b)
  | .mul a b => fp32Mul (r a) (r b)
  | .fma a b c => fp32Fma (r a) (r b) (r c)
  | .less a b x y => if fp32Less (r a) (r b) then r x else r y
  | .min a b => fp32Min (r a) (r b) k
  | .max a b => if fp32Min (r a) (r b) k = r a then r b else r a
  | .conv f a => widen f (narrow f 0 (fp32Value (r a)) none).1
  | .fn f a => f.apply (r a) k

/-- The vector operations before a layer run over a row; `k` numbers their free values. -/
def vecRun (tensors : List (Nat × List Nat)) (k : Nat) (code : List VOp) : List Nat :=
  code.foldl (fun tape o => tape ++ [o.eval tensors tape (k + tape.length)]) []

end Sys2Proof
end

