-- ==== Sys2Proof/Machine/Grid.lean ====
section
/-!
DEFINITION. The path of a value through a layer (spec file 13, Table 13.1): staged elements and the sets of the Measure pass,
conversion, products and group partials, de-quantisation.
-/
namespace Sys2Proof.Machine

/-! ## Staged elements and their sets (R321, R324) -/

/-- G of a layer (R315). -/
def Layer.group (y : Layer) : Nat := 32 * 2 ^ y.gcode

/-- A list in runs of n; the last may be shorter: what pads it adds nothing (R321). -/
def runsOf (n : Nat) (l : List Nat) : List (List Nat) :=
  (List.range (ceilDiv l.length (max 1 n))).map fun i => (l.drop (i * n)).take n

/-- A staged group: the pass's row, the line in it with its non-reduction index, the group's place in the reduction, the tile of
the pass that holds it, its elements: FP32 words where the layer measures, else codes. -/
structure Staged where
  row : Nat
  line : Nat
  chan : Nat
  g : Nat
  tile : Nat
  xs : List Nat
deriving DecidableEq, Repr

/-- The staged groups of a row: elements that an earlier layer, the row's input or the vector operations formed. -/
def stageRow (digest l : Nat) (y : Layer) (tiles row k : Nat) (tensors : List (Nat × List Nat)) : List Staged :=
  let all := tensors ++ [(12, vecRun tensors k (Config.vecCode digest l))]
  let elem (p : Nat × Nat) : Nat :=
    match all[p.1]? with
    | some (f, es) => match es[p.2]? with
      | some c => if y.amode = 0 then c else widen f c
      | none => Config.shapeGap digest l p.2
    | none => Config.shapeGap digest l p.2
  let lines := Config.stageLines digest l
  (List.range lines.length).flatMap fun i =>
    let ln := lines.getD i (0, [])
    let gs := runsOf y.group (ln.2.map elem)
    (List.range gs.length).map fun g =>
      { row := row, line := i, chan := ln.1, g := g, tile := Config.stageTile digest l row i g % max 1 tiles, xs := gs.getD g [] }

/-- R324: the set that a staged group belongs to, by MGRAN: its group, its row, its non-reduction index, the pass. -/
def Layer.setOf (y : Layer) (s : Staged) : Nat × Nat × Nat :=
  match y.mgran with
  | 0 => (s.row, s.line, s.g)
  | 1 => (s.row, 0, 0)
  | 2 => (0, s.chan, 0)
  | _ => (0, 0, 0)

/-- R328: each tile measures its part of a set, and the parts are combined. -/
def Layer.measured (y : Layer) (parts : List Staged) : Measured :=
  (combineParts ((parts.map (·.tile)).eraseDups.map fun t => measurePart ((parts.filter fun s => s.tile == t).flatMap (·.xs)))).scaleOf
    y.afmt y.asfmt (bit y.qflags 0)

/-- The bytes of a set's scale in the scale buffer, its zero point after it under ASYM (R328). -/
def Layer.scaleEntry (y : Layer) (m : Measured) : Bytes :=
  le (scaleBytes y.asfmt) m.scale ++ (if bit y.qflags 0 then le 1 m.zp else [])

/-! ## The grid (R282, R283, R321 to R323) -/

/-- R282: an operand of the grid as a value, its zero point subtracted from a UINT code (stage 3, R322). -/
def operand (fmt zp c : Nat) : Num :=
  if fmt = 3 || fmt = 5 then Num.ofInt (((c % 2 ^ fmtBits fmt : Nat) : Int) - (zp % 256 : Nat)) else elemValue fmt c

/-- R283: whether a layer's partials are integers. -/
def Layer.intPartial (y : Layer) : Bool := y.wfmt ≤ 5 && y.afmt ≤ 5

/-- R282: the integer product of a weight and an activation; a BIN1 pair counts +1 when the bits are equal, else −1. -/
def intProduct (wf af wz az w a : Nat) : Int :=
  if wf = 0 && af = 0 then (if w = a then 1 else -1) else (operand wf wz w).num * (operand af az a).num

/-- R282, R283: the product in FP32: exact unless an operand is FP32, whose product is rounded. -/
def fpProduct (wf af wz az w a : Nat) : Nat := toFp32 ((operand wf wz w).mul (operand af az a))

/-- The places of a group in the order in which Proilo adds them; places that it does not name follow. -/
def addOrder (order : List Nat) (n : Nat) : List Nat :=
  let o := (order.filter fun i => i < n).eraseDups
  o ++ (List.range n).filter fun i => !o.contains i

/-- R283, R321: the partial of a group: an INT32 sum, exact, or an FP32 sum rounded at each addition. -/
def Layer.partial_ (y : Layer) (w : WGroup) (a : AGroup) : Nat :=
  let n := min w.codes.length a.codes.length
  let wz := if bit y.qflags 1 then w.zp else 0
  let at_ (f : Nat → Nat → Nat → Nat → Nat → Nat → Nat) (i : Nat) : Nat := f y.wfmt y.afmt wz a.zp (w.codes.getD i 0) (a.codes.getD i 0)
  let order := addOrder w.order n
  if y.intPartial then
    unsigned 32 (order.foldl (fun s i => s + intProduct y.wfmt y.afmt wz a.zp (w.codes.getD i 0) (a.codes.getD i 0)) 0)
  else order.foldl (fun s i => fp32Add s (at_ fpProduct i)) 0

/-- R323: the running sum of a tile over its groups of an output channel, in ascending order. -/
def Layer.tileSum (y : Layer) (acts : List AGroup) (ws : List WGroup) : Nat :=
  (sortBy (fun (a b : WGroup) => a.g < b.g) ws).foldl (fun s w =>
    match acts.find? fun a => a.g == w.g with
    | some a => dequant y.intPartial s (y.partial_ w a) w.scale a.scale y.wsfmt y.asfmt
    | none => s) 0

/-- R323: S of an output element: the tiles' sums added in the order given. -/
def Layer.sumOf (y : Layer) (acts : List AGroup) (ws : List (List WGroup)) : Nat :=
  match ws.map (y.tileSum acts) with
  | [] => 0
  | a :: r => r.foldl fp32Add a

end Sys2Proof.Machine
end

