-- ==== Sys2Proof/Machine/Infield.lean ====
section
/-!
DEFINITION. Infield (spec files 12, 13): program packages, RUN, passes on tiles, weight streaming, faults.
-/
namespace Sys2Proof.Machine

def Dev.setInf (d : Dev) (f : Infield → Infield) : Dev := { d with inf := f d.inf }
def progKey (part slot : Nat) : Nat := part * 256 + slot
def Dev.prog (d : Dev) (part slot : Nat) : Option Prog := Tab.find d.inf.progs (progKey part slot)
def Dev.pass (d : Dev) (n : Nat) : Option Pass := Tab.find d.inf.passes n
def Dev.updPass (d : Dev) (n : Nat) (f : Pass → Pass) : Dev := d.setInf fun x => { x with passes := Tab.upd x.passes n f }
def Dev.runJob (d : Dev) (r : Nat) : Option RunJob := Tab.find d.inf.jobs r
def Dev.updRun (d : Dev) (r : Nat) (f : RunJob → RunJob) : Dev := d.setInf fun x => { x with jobs := Tab.upd x.jobs r f }

/-! ## Packages (R285, R286, R315, R316) -/

def magicYJIP : Nat := ascii4 0x59 0x4A 0x49 0x50

/-- R285: layer i of a package. -/
def readLayer (b : Bytes) (i : Nat) : Layer :=
  let o := 0x80 + 32 * i
  let c := u32 b (o + 0x14)
  let n := u32 b (c + 8)
  let e := c + u32 b (c + 12)
  { alloc := u64 b o, first := u32 b (o + 8), ntiles := u32 b (o + 0xC), wfmt := u8 b (o + 0x10), afmt := u8 b (o + 0x11)
    gcode := u8 b c, wsfmt := u8 b (c + 1), asfmt := u8 b (c + 2), amode := u8 b (c + 3), mgran := u8 b (c + 4)
    qflags := u8 b (c + 5), ofmt := u8 b (c + 6), entries := (List.range (min n 65536)).map fun k => u64 b (e + 8 * k) }

/-- A scale format code of Table 13.2. -/
def scaleOk (f : Nat) : Bool := f ≤ 3 || f = 0xFF

/-- R282: BIN1 pairs with BIN1 alone. -/
def pairOk (w a : Nat) : Bool := (w = 0) = (a = 0)

/-- R286, R316: the rules of one layer; `inf` its input format. -/
def layerOk (b : Bytes) (len i inf : Nat) (stoch : Bool) : Bool :=
  let o := 0x80 + 32 * i
  let y := readLayer b i
  let c := u32 b (o + 0x14)
  let n := u32 b (o + 0x18)
  let nchan := u32 b (c + 8)
  let resoff := u32 b (c + 12)
  let asym := bit y.qflags 0
  y.ntiles ≤ 65536 && (y.ntiles != 0 || y.alloc = 0) && y.wfmt ≤ 12 && y.afmt ≤ 12 && zeros b (o + 0x12) 2 && zeros b (o + 0x1C) 4
  && c + n ≤ len && 16 ≤ n && pairOk y.wfmt y.afmt
  && y.gcode ≤ 2 && y.mgran ≤ 3 && y.amode ≤ 1 && scaleOk y.wsfmt && scaleOk y.asfmt && y.qflags ≤ 3 && y.ofmt ≤ 12
  && u8 b (c + 7) = 0
  && (if y.amode = 0 then inf = y.afmt && y.asfmt = 0xFF && y.mgran = 0
      else (inf = 12 || inf = 10 || inf = 11) && y.asfmt != 0xFF)
  && (!asym || ((y.afmt = 3 || y.afmt = 5) && y.amode = 1))
  && nchan ≤ 65536 && resoff + 8 * nchan ≤ n
  && y.entries.all fun e => resOk y.ofmt e && (stoch || !resRnd e)

/-- The input format of a layer (R315). -/
def layerIn (b : Bytes) (i : Nat) : Nat := if i = 0 then u8 b 0x16 else (readLayer b (i - 1)).ofmt

/-- R317: the entries of a layer that a relative tile holds. -/
def Layer.onTile (y : Layer) (digest i tiles rel : Nat) : Nat :=
  ((List.range y.entries.length).filter fun c => Config.channelTile digest i c % max 1 tiles = rel).length

/-- R286, R304, R316: a package that fails its rules is none; `len` the length that the command names. -/
def readPackage (b : Bytes) (len bib cost : Nat) (shared : Bool) : Option Prog :=
  let layers := u16 b 0xC
  let pf := u8 b 7
  let role := u8 b 6
  let outfmt := u8 b 0x17
  let outelems := u32 b 0x1C
  let k := u16 b 0x20
  let mode := u8 b 0x22
  let ft := u32 b 0x24
  let ls := (List.range layers).map fun i => readLayer b i
  let tiles := u8 b 0xE
  let window := u8 b 0xF
  let kib := u32 b 0x10
  let digest := leNat (sub b 0x40 64)
  let ok :=
    u32 b 0 = magicYJIP && u16 b 4 = 1 && role ≤ 2 && pf ≤ 3 && u32 b 8 = len && len % 64 = 0 && len ≤ 67108864
    && 1 ≤ layers && layers ≤ 4096 && 0x80 + 32 * layers ≤ len && 1 ≤ tiles && tiles ≤ 96 && 1 ≤ window && window ≤ 8
    && kib % 4 = 0 && 1 ≤ u16 b 0x14 && u16 b 0x14 ≤ 1024 && u8 b 0x16 ≤ 12 && outfmt ≤ 12
    && (if bit pf 0 then 1 ≤ k && k ≤ 1024 && mode ≤ 5 else k = 0 && mode = 0)
    && u8 b 0x23 = 0 && zeros b 0x2C 20 && (role = 2 || ft = 0xFFFFFFFF)
    && (List.range layers).all (fun i => layerOk b len i (layerIn b i) (bit pf 1))
    && (match ls.getLast? with | some y => y.ofmt = outfmt | none => false)
    && sum (ls.map (·.ntiles)) ≤ 4194304 && window * 64 * maxOf (ls.map (·.ntiles)) ≤ kib
    && sum (ls.map fun y => y.entries.length) ≤ 65536
    && (List.range tiles).all (fun t => sum ((List.range ls.length).map fun i =>
        match ls[i]? with | some y => y.onTile digest i tiles t | none => 0) ≤ 8192)
    && (role != 1 || (outfmt = 0 && [256, 512, 1024, 2048].contains outelems))
    && (role != 2 || (outfmt = 12 && outelems = 1 && !bit pf 0 && ft != 0xFFFFFFFF && u8 b 0x16 = 5))
  if ok then
    some { bib := bib, shared := shared, cost := cost, digest := digest, role := role, topk := bit pf 0, tiles := tiles
           window := window, pages := kib / 4, rowmax := u16 b 0x14, infmt := u8 b 0x16, outfmt := outfmt
           inelems := u32 b 0x18, outelems := outelems, k := k, mode := mode, ftable := ft, tp := u32 b 0x28, layers := ls
           pkgTiles := max 1 (ceilDiv len 65536), stoch := bit pf 1 }
  else none

/-- R290: the row sizes of a program. -/
def Prog.inRow (p : Prog) : Nat := ceilDiv (elemBytes p.infmt p.inelems) 64 * 64
def Prog.outRow (p : Prog) : Nat := if p.topk then 16 * p.k else ceilDiv (elemBytes p.outfmt p.outelems) 64 * 64

/-- R304: the bytes of the query field of a reranker's row. -/
def Prog.q (p : Prog) (t : Table) : Nat := p.inelems - 64 - t.outStride

/-- R304: Q is a positive multiple of 64. -/
def Prog.qOk (p : Prog) (t : Table) : Bool := 64 + t.outStride < p.inelems && (p.inelems - 64 - t.outStride) % 64 = 0

/-! ## Tiles, pages, slots (R278, R280, R293, R295) -/

/-- Tiles of a partition; the unfenced ones; those that hold no pass. -/
def Dev.tilesOfPart (d : Dev) (p : Nat) : List Nat :=
  match d.part p with
  | some x => (List.range 96).filter fun t => bit x.tiles t
  | none => []
def Dev.tileFenced (d : Dev) (t : Nat) : Bool := d.isFenced 0x11 t || d.isFenced 0x10 (t / 8)
def Dev.unfenced (d : Dev) (p : Nat) : List Nat := (d.tilesOfPart p).filter fun t => !d.tileFenced t
def Dev.tileBusy (d : Dev) (t : Nat) : Bool := (Tab.vals d.inf.passes).any fun x => x.tiles.contains t

/-- R280: a partition's share of Track SRAM pages, and what its passes hold of it. -/
def Dev.pageShare (d : Dev) (p : Nat) : Nat := 65536 * (d.tilesOfPart p).length / 96
def pageCount (l : List PageRun) : Nat := sum (l.map (·.count))
def Dev.pagesHeld (d : Dev) (p : Nat) : Nat := sum ((Tab.vals d.inf.passes).map fun x => if x.part = p then pageCount x.pages else 0)

/-- The runs of a bank that passes hold, in order, and the bank's free pages. -/
def Dev.bankHeld (d : Dev) (b : Nat) : List PageRun :=
  sortBy (fun (x y : PageRun) => x.first < y.first) (((Tab.vals d.inf.passes).flatMap (·.pages)).filter fun r => r.bank == b)
def Dev.bankFree (d : Dev) (b : Nat) : Nat := 4096 - pageCount (d.bankHeld b)

/-- The free runs of a bank between the runs held, from page `at_` on. -/
def freeRuns (bank : Nat) : Nat → List PageRun → List PageRun
  | at_, [] => if at_ < 4096 then [{ bank := bank, first := at_, count := 4096 - at_ }] else []
  | at_, r :: l =>
    (if at_ < r.first then [{ bank := bank, first := at_, count := r.first - at_ }] else []) ++ freeRuns bank (r.first + r.count) l

/-- What is left of a run outside another. -/
def PageRun.minus (x r : PageRun) : List PageRun :=
  if x.bank != r.bank || x.first + x.count ≤ r.first || r.first + r.count ≤ x.first then [x]
  else
    (if x.first < r.first then [{ x with count := r.first - x.first }] else [])
      ++ (if r.first + r.count < x.first + x.count then
            [{ x with first := r.first + r.count, count := x.first + x.count - (r.first + r.count) }] else [])

/-- The number of a page by bank, and whether a run holds it. -/
def pageKey (bank page : Nat) : Nat := bank * 4096 + page
def PageRun.has (r : PageRun) (k : Nat) : Bool := k / 4096 == r.bank && decide (r.first ≤ k % 4096 && k % 4096 < r.first + r.count)

/-- R296: pages go to a bib: what another bib, or a stopped pass, left in them is cleared to 0. -/
def Dev.claimPages (d : Dev) (runs : List PageRun) (who : Nat) : Dev :=
  d.setInf fun x =>
    let foreign (k : Nat) : Bool := runs.any (·.has k) && x.pageLast.any fun p => p.1.has k && p.2 != who
    { x with
      pageMem := x.pageMem.filter fun p => !foreign p.1
      pageLast := (runs.foldl (fun l r => l.flatMap fun p => (p.1.minus r).map fun q => (q, p.2)) x.pageLast) ++ runs.map fun r => (r, who) }

/-- R296: a tile goes to a bib: its SRAM and its bank are cleared where another bib, or a stopped pass, used it last. -/
def Dev.claimTile (d : Dev) (t who : Nat) : Dev :=
  let l := Tab.get 0 d.inf.last t
  let d := if l != 0 && l != who then
      (d.bump .IGRP_CLEARS_COUNT 1 (t / 8)).setInf fun x => { x with sram := Tab.del x.sram t, resc := Tab.del x.resc t }
    else d
  d.setInf fun x => { x with last := Tab.ins x.last t who }

/-- Table 01.1: the banks of a reticle field: west 0 to 4, centre 5 to 10, east 11 to 15. -/
def fieldBanks (f : Nat) : List Nat :=
  match f with
  | 0 => [0, 1, 2, 3, 4]
  | 1 => [5, 6, 7, 8, 9, 10]
  | _ => [11, 12, 13, 14, 15]

/-- R295: the tiles that a pass is granted. -/
def pickTiles (free : List Nat) (n : Nat) : List Nat :=
  let inField (f : Nat) : List Nat := free.filter fun t => t / 32 = f
  match [0, 1, 2].find? fun f => n ≤ (inField f).length with
  | some f => (inField f).take n
  | none => free.take n

/-- R295: the pages of a pass, from the banks of the field with the most of its tiles first; the lowest free pages of a bank:
DESIGN CHOICE (log 123). -/
def Dev.pickPages (d : Dev) (tiles : List Nat) (n : Nat) : List PageRun :=
  let cnt (f : Nat) : Nat := (tiles.filter fun t => t / 32 = f).length
  let f0 := [0, 1, 2].foldl (fun b f => if cnt b < cnt f then f else b) 0
  let banks := fieldBanks f0 ++ ([0, 1, 2].filter (· != f0)).flatMap fieldBanks
  ((banks.flatMap fun b => freeRuns b 0 (d.bankHeld b)).foldl (fun (acc : List PageRun × Nat) r =>
    let k := min acc.2 r.count
    if k = 0 then acc else (acc.1 ++ [{ r with count := k }], acc.2 - k)) ([], n)).1

/-- Page i of the pages of a pass. -/
def pageAt : List PageRun → Nat → Nat
  | [], _ => 0
  | r :: l, i => if i < r.count then pageKey r.bank (r.first + i) else pageAt l (i - r.count)

/-! ## Program slots (R288, R289, R291, R292) -/

/-- The allocations that a program names. -/
def Prog.allocs (p : Prog) : List Nat := ((p.layers.filter fun y => y.ntiles != 0).map (·.alloc)).eraseDups

/-- A slot is released: its package's tiles and its hold on allocations go. -/
def Dev.dropProg (d : Dev) (key : Nat) : Dev :=
  match Tab.find d.inf.progs key with
  | none => d
  | some p =>
    let d : Dev := { d with fl := { d.fl with
      packs := Tab.put 0 d.fl.packs (key / 256) (Tab.get 0 d.fl.packs (key / 256) - p.pkgTiles)
      allocs := p.allocs.foldl (fun t a => Tab.upd t a fun x => { x with named := x.named - 1 }) d.fl.allocs } }
    d.setInf fun x => { x with progs := Tab.del x.progs key }

/-- A slot in the freeing state whose last pass has ended is released. -/
def Dev.settleProg (d : Dev) (part slot : Nat) : Dev :=
  match d.prog part slot with
  | none => d
  | some p =>
    if p.freeing && !((Tab.vals d.inf.passes).any fun x => x.part == part && x.slot == slot) then d.dropProg (progKey part slot) else d

/-- R291: the shortfall of a program against its cost record: for an encoder or a reranker the largest T_p of each role over
every program loaded against the record, this one included. -/
def Dev.shortfall (d : Dev) (p : Prog) : Nat :=
  match d.costs[p.cost]? with
  | none => 0
  | some c =>
    let top (role : Nat) : Nat :=
      maxOf (((Tab.vals d.inf.progs ++ [p]).filter fun x => x.cost == p.cost && x.role == role).map (·.tp))
    let over_ := if p.role = 0 then p.tp - c.work else top 1 + top 2 + c.search - c.work
    max over_ (p.tp - c.occ)

/-- T_p (R291, R296): the clearing of the tiles, and the larger of Cerone's figure and the package's. -/
def Prog.passTime (p : Prog) (part : Nat) : Nat := 4096 + max (Config.passTime p.digest part) p.tp

/-- Whether a partition may hold programs. -/
def Dev.kind01 (d : Dev) (part : Nat) : Bool := match d.part part with | some p => p.kind ≤ 1 | none => false

/-- PROG_LOAD as admitted: the package is read. -/
def Dev.progLoad (d : Dev) (r : Nat) (q : Req) : Dev :=
  let len := u32 q.desc 0x14
  let cost := u16 q.desc 0x12
  d.checkedRead r (failIf (!payloadOk [(0x10, 2), (0x12, 2), (0x14, 12)] q.desc || u8 q.desc 0x11 > 1 || u64 q.desc 0x18 % 64 != 0
        || (cost != 0xFFFF && d.costs.length ≤ cost)) ST_BAD_DESC
      ++ failIf (!d.kind01 q.part) ST_REFUSED_RESOURCE 7) fun d =>
    if len % 64 != 0 || len < 128 || 67108864 < len then d.complete r ST_BAD_FORMAT else d.dmaRead r 0 (u64 q.desc 0x18) len

/-- The package has arrived: R286, R316, Table 12.6. -/
def Dev.progCheck (d : Dev) (r : Nat) (q : Req) (b : Bytes) : Dev :=
  let slot0 := u8 q.desc 0x10
  let shared := bit (u8 q.desc 0x11) 0
  let bib := q.bib.getD 0
  let slot := if slot0 != 0 then some slot0 else ((List.range 255).map (· + 1)).find? fun s => (d.prog q.part s).isNone
  match readPackage b (u32 q.desc 0x14) bib (u16 q.desc 0x12) shared with
  | none => d.complete r ST_BAD_FORMAT
  | some p =>
    let p := { p with tp := p.passTime q.part }
    let t := (d.tableIdx p.ftable).bind d.table
    let badQ := p.role = 2 && (match t with | some t => !p.qOk t | none => false)
    let lost := p.layers.any fun y => y.ntiles != 0 && (match d.ownAlloc q y.alloc with
      | some a => a.tiles < y.first + y.ntiles
      | none => true)
    let short := if p.cost = 0xFFFF then 0 else d.shortfall p
    d.checked r (q.pre ++ failIf badQ ST_BAD_FORMAT
        ++ failIf (sha512 (b.take 0x40 ++ fill 64 0 ++ b.drop 0x80) != sub b 0x40 64) ST_SIGNATURE
        ++ failIf (match slot with | some s => (d.prog q.part s).isSome | none => true) ST_REFUSED_RESOURCE 1
        ++ failIf ((d.unfenced q.part).length < p.tiles) ST_REFUSED_RESOURCE 2
        ++ failIf (d.pageShare q.part < p.pages) ST_REFUSED_RESOURCE 3
        ++ failIf (lost || (p.role = 2 && t.isNone)) ST_REFUSED_RESOURCE 5
        ++ failIf (d.pinDenied q.part p.pkgTiles) ST_REFUSED_RESOURCE 8
        ++ failIf (p.topk && (d.selsOf q.part).isEmpty) ST_REFUSED_RESOURCE 9
        ++ failIf (0 < short) ST_REFUSED_DEADLINE short) fun d =>
      let s := slot.getD 0
      let d : Dev := { d with fl := { d.fl with
        packs := Tab.put 0 d.fl.packs q.part (Tab.get 0 d.fl.packs q.part + p.pkgTiles)
        allocs := p.allocs.foldl (fun t a => Tab.upd t a fun x => { x with named := x.named + 1 }) d.fl.allocs } }
      let d := d.setInf fun x => { x with progs := Tab.ins x.progs (progKey q.part s) p }
      (d.shrinkCache.measure 4 (some bib) (sub b 0x40 64)).complete r ST_OK s

/-- A request that names a slot (R288, R291): its refusals. -/
def Dev.slotFails (d : Dev) (q : Req) (slot : Nat) : List (Nat × Nat) :=
  match d.prog q.part slot with
  | none => [(ST_REFUSED_RESOURCE, 4)]
  | some p =>
    let wrong := match q.judged with
      | some j => (match Tab.find d.contracts j.record with | some c => c.cost != p.cost | none => false)
      | none => false
    failIf p.freeing ST_REFUSED_RESOURCE 4 ++ failIf (p.bib != q.bib.getD 1024 && !p.shared) ST_NOT_OWNER
      ++ failIf wrong ST_REFUSED_RESOURCE 6 ++ failIf ((d.unfenced q.part).length < p.tiles) ST_REFUSED_RESOURCE 2

/-- R292: a slot enters the freeing state: what still waits for it completes with RESULT 4, what holds a pass runs to its
end. -/
def Dev.freeProg (d : Dev) (part slot : Nat) : Dev :=
  let d := d.setInf fun x => { x with progs := Tab.upd x.progs (progKey part slot) fun p => { p with freeing := true } }
  let q := Tab.get [] d.inf.queue part
  let d := d.setInf fun x => { x with queue := Tab.put [] x.queue part (q.filter fun w => w.slot != slot) }
  ((q.filter fun w => w.slot == slot).foldl (fun d w => d.complete w.r ST_REFUSED_RESOURCE 4) d).settleProg part slot

/-- PROG_FREE (R292). -/
def Dev.progFree (d : Dev) (r : Nat) (q : Req) : Dev :=
  let slot := u8 q.desc 0x10
  let p := d.prog q.part slot
  d.checked r (failIf (!payloadOk [(0x10, 1)] q.desc || slot = 0) ST_BAD_DESC
      ++ failIf (!d.kind01 q.part) ST_REFUSED_RESOURCE 7
      ++ failIf (match p with | some p => p.freeing | none => true) ST_REFUSED_RESOURCE 4
      ++ failIf (match p with | some p => p.bib != q.bib.getD 1024 | none => false) ST_NOT_OWNER) fun d =>
    (d.complete r ST_OK).freeProg q.part slot

/-- R124 step 4, R292: the programs of a torn-down bib are freed. -/
def Dev.freeBibProgs (d : Dev) (bib : Nat) : Dev :=
  (d.inf.progs.filter fun p => p.2.bib == bib).foldl (fun d p => d.freeProg (p.1 / 256) (p.1 % 256)) d

/-! ## Waiting for a pass (R293) -/

/-- A step waits in its partition's queue, in the order in which the requests were admitted. -/
def Dev.awaitPass (d : Dev) (r part kind bib slot rows : Nat) : Dev :=
  let at_ := match Tab.find d.reqs r with | some q => q.admitted | none => d.now
  d.setInf fun x => { x with
    queue := Tab.put [] x.queue part (insertBy (fun (a b : PassWait) => a.order < b.order)
      { r := r, kind := kind, bib := bib, slot := slot, left := rows, order := at_ } (Tab.get [] x.queue part))
    jobs := Tab.ins x.jobs r { kind := kind, slot := slot, rows := rows, held := kind != 0 } }

/-- RUN as admitted (R290): its checks, then its input is read; it waits for a pass in admission order. -/
def Dev.runAdmit (d : Dev) (r : Nat) (q : Req) : Dev :=
  let slot := u8 q.desc 0x10
  let rows := u16 q.desc 0x12
  let p := d.prog q.part slot
  let bad := !payloadOk [(0x10, 1), (0x12, 30)] q.desc || slot = 0 || rows = 0 || u64 q.desc 0x18 % 64 != 0 || u64 q.desc 0x20 % 64 != 0
    || (match p with
        | some p => p.rowmax < rows || u32 q.desc 0x14 != rows * p.inRow || u32 q.desc 0x28 < rows * p.outRow
        | none => false)
  d.checked r (failIf bad ST_BAD_DESC ++ failIf (!d.kind01 q.part) ST_REFUSED_RESOURCE 7 ++ d.slotFails q slot) fun d =>
    let d := d.awaitPass r q.part 0 (q.bib.getD 1024) slot rows
    let d := d.dmaRead r 0 (u64 q.desc 0x18) (u32 q.desc 0x14)
    match Tab.find d.reqs r with
    | some q => if q.dmas = 0 then d.finish r ST_OK else d
    | none => d

/-- The input of a RUN has arrived. -/
def Dev.runData (d : Dev) (r : Nat) (b : Bytes) : Dev :=
  match Tab.find d.reqs r with
  | none => d
  | some q => if !q.fails.isEmpty then d.finish r ST_OK
              else if q.aux = [1] then d.finish r ST_BUDGET_EXHAUSTED
              else (d.updReq r fun q => { q with buf := b }).updRun r fun j => { j with held := true }

/-! ## Passes (R293 to R299) -/

/-- The cycles that a pass adds to a register of its tiles: CORE runs at one cycle per ns. -/
def Dev.bumpTiles (d : Dev) (f : Fld) (tiles : List Nat) (n : Nat) : Dev := tiles.foldl (fun d t => d.bump f n t) d

/-- The groups that a pass uses. -/
def groupsOf (tiles : List Nat) : List Nat := (tiles.map (· / 8)).eraseDups
def Dev.bumpGroups (d : Dev) (f : Fld) (tiles : List Nat) : Dev := (groupsOf tiles).foldl (fun d g => d.bump f 1 g) d

/-- R311: the cycles that a pass has held its tiles, and waited since its layer began to, count. -/
def Dev.creditPass (d : Dev) (p : Pass) : Dev :=
  let d := d.bumpTiles .ITILE_BUSY_CYCLES p.tiles (d.now - p.granted)
  if p.started then d else d.bumpTiles .ITILE_WAIT_CYCLES p.tiles (d.now - p.since)

/-- A pass gives up its tiles and pages. -/
def Dev.leaveTiles (d : Dev) (n : Nat) : Dev :=
  match d.pass n with
  | none => d
  | some p =>
    ((d.creditPass p).setInf fun x => { x with passes := Tab.del x.passes n }).settleProg p.part p.slot

/-- R306: a pass stops at once: its requests end with a status, and what it used is cleared before its next use. -/
def Dev.stopPass (d : Dev) (n status : Nat) : Dev :=
  match d.pass n with
  | none => d
  | some p =>
    let d := d.setInf fun x => { x with last := p.tiles.foldl (fun l t => Tab.ins l t 1026) x.last }
    let d := ((d.claimPages p.pages 1026).bumpGroups .IGRP_STOPS_COUNT p.tiles).leaveTiles n
    p.reqs.foldl (fun d q => d.complete q.r status) d

/-- R306: flush mode begins: every pass stops, without a completion. -/
def Dev.dropPasses (d : Dev) : Dev :=
  let d := d.inf.passes.foldl (fun (d : Dev) p => (d.bumpGroups .IGRP_STOPS_COUNT p.2.tiles).creditPass p.2) d
  d.setInf fun x => { x with passes := [] }

/-- R300: weight tiles read from the flash count as misses of every request of the pass, at once. -/
def Dev.missPass (d : Dev) (p : Pass) (k : Nat) : Dev :=
  p.reqs.foldl (fun d q => (d.updReq q.r fun q => { q with misses := q.misses + k }).updRun q.r fun j => { j with misses := j.misses + k }) d

/-- R300, R301: a weight tile is asked for, and is read as it stands now. -/
def Dev.askWeight (d : Dev) (n l i : Nat) (y : Layer) : Dev :=
  let k := allocTile y.alloc (y.first + i)
  let put (st : Nat) (b : Bytes) (d : Dev) (key : Option Nat := none) : Dev :=
    d.updPass n fun p => { p with weights := p.weights ++ [{ layer := l, tile := i, state := st, data := b, key := key }] }
  let hint := match Tab.find d.fl.allocs y.alloc with | some a => a.hint | none => 1
  match d.pass n with
  | none => d
  | some p =>
    match d.look k with
    | .hit => put 0 (d.tileBytes k) (d.hitTile k) (some k)
    | .miss => ((put 1 (d.tileBytes k) d (some k)).missPass p 1).startRead k hint (.weight n l i)
    | .lost => (d.reportLoss k).stopPass n ST_MEDIA_ERROR
    | .zero => put 0 (fill 65536 0) (d.bump .TIER_HITS_COUNT)
    | .discarded =>
      let (b, d) := d.undefBytes 65536
      put 0 b (p.reqs.foldl (fun d q => d.addFlag q.r FL_UNDEFINED) (d.bump .FTL_UNDEF_COUNT))

/-- R299: the weight tiles of a layer are asked for, in order. -/
def Dev.askLayer (d : Dev) (n l : Nat) : Dev :=
  match d.pass n with
  | none => d
  | some p =>
    match d.prog p.part p.slot with
    | none => d
    | some g => match g.layers[l]? with
      | none => d
      | some y => (List.range y.ntiles).foldl (fun d i => d.askWeight n l i y) d

/-! ## What a layer forms (R313 to R331) -/

/-- The rows of a pass: each share's request and row of it. -/
def Pass.rows (p : Pass) : List (PassReq × Nat) := p.reqs.flatMap fun q => (List.range q.rows).map fun i => (q, q.first + i)

/-- The tensors of row i of a pass that layer l finds: its input and the outputs of the layers before. -/
def Pass.rowTensors (p : Pass) (g : Prog) (i l : Nat) : List (Nat × List Nat) :=
  (List.range (l + 1)).map fun t =>
    (if t = 0 then g.infmt else match g.layers[t - 1]? with | some y => y.ofmt | none => 12, Tab.get [] p.tensors (t * 1024 + i))

/-- R331: the next number of a relative tile's generator, and the counts of numbers taken so far. -/
def takeRandom (seeds : List Nat) (l rel : Nat) (cnt : Tab Nat) : Nat × Tab Nat :=
  let k := Tab.get 0 cnt rel
  (Config.rngValue seeds l rel k % 65536, Tab.put 0 cnt rel (k + 1))

/-- The physical tile of a relative tile of a pass. -/
def Pass.tile (p : Pass) (rel : Nat) : Nat := p.tiles.getD rel 0

/-- R328: the scale and zero point of a set are written in the scale buffer of every tile that holds a part of it; what the
Measure pass met counts. -/
def Dev.writeScale (d : Dev) (p : Pass) (y : Layer) (parts : List Staged) (m : Measured) : Dev :=
  let rels := (parts.map (·.tile)).eraseDups
  let d := rels.foldl (fun d t =>
    let own := measurePart ((parts.filter fun s => s.tile == t).flatMap (·.xs))
    (d.bump .IGRP_NONFIN_COUNT own.nonfin (p.tile t / 8)).setInf fun x =>
      let b := Tab.get {} x.sram (p.tile t)
      { x with sram := Tab.ins x.sram (p.tile t) { b with scales := b.scales ++ y.scaleEntry m } }) d
  if m.clamped then d.bump .IGRP_SCLAMP_COUNT 1 (p.tile (rels.headD 0) / 8) else d

/-- A converted group stands in its tile's SRAM. -/
def Dev.putGroup (d : Dev) (tile : Nat) (a : AGroup) : Dev :=
  d.setInf fun x => let b := Tab.get {} x.sram tile; { x with sram := Tab.ins x.sram tile { b with acts := b.acts ++ [a] } }

/-- Stage 2 of a group (R313, R330): its codes, the numbers taken, the elements that count as saturated. -/
def convertGroup (y : Layer) (stoch : Bool) (seeds : List Nat) (l rel : Nat) (m : Measured) (cnt : Tab Nat) (xs : List Nat) :
    List Nat × Tab Nat × Nat :=
  xs.foldl (fun (acc : List Nat × Tab Nat × Nat) x =>
    let (u, c) := if stoch then (let (u, c) := takeRandom seeds l rel acc.2.1; (some u, c)) else (none, acc.2.1)
    let (v, sat) := convert y.afmt y.asfmt m x u
    (acc.1 ++ [v], c, acc.2.2 + ofBool sat)) ([], cnt, 0)

/-- The Measure pass and the conversion of a layer (R313 stages 1 and 2, R324 to R329) over every row of the pass: the scales of
all sets are written before an element is converted. A layer that does not measure takes its codes as they arrive. -/
def Dev.measureLayer (d : Dev) (n : Nat) (p : Pass) (g : Prog) (l : Nat) (y : Layer) : Dev :=
  let (k, d) := d.draw
  let rows := List.range p.rows.length
  let staged := rows.flatMap fun i => stageRow g.digest l y g.tiles i (k + i * 2 ^ 32) (p.rowTensors g i l)
  let d := d.setInf fun x => { x with sram := p.tiles.foldl (fun t n => Tab.ins t n {}) x.sram }
  if y.amode = 0 then
    staged.foldl (fun d s => d.putGroup (p.tile s.tile) { row := s.row, line := s.line, g := s.g, codes := s.xs, scale := 0, zp := 0 }) d
  else
    let d := d.bumpGroups .IGRP_MEASURES_COUNT p.tiles
    let sets := ((staged.map y.setOf).eraseDups).map fun key =>
      let parts := staged.filter fun s => y.setOf s == key
      (key, parts, y.measured parts)
    let d := sets.foldl (fun d s => d.writeScale p y s.2.1 s.2.2) d
    let stoch := g.stoch && Config.convRandom g.digest l
    let (d, cnt) := staged.foldl (fun (acc : Dev × Tab Nat) s =>
      match sets.find? fun x => x.1 == y.setOf s with
      | none => acc
      | some x =>
        let (codes, cnt, sat) := convertGroup y stoch (p.reqs.map (·.seed)) l s.tile x.2.2 acc.2 s.xs
        let d := acc.1.bump .IGRP_SAT_COUNT sat (p.tile s.tile / 8)
        (d.putGroup (p.tile s.tile)
          { row := s.row, line := s.line, g := s.g, codes := codes, scale := x.2.2.scale, zp := x.2.2.zp }, cnt)) (d, [])
    d.updPass n fun p => { p with rng := cnt }

/-- The weight tiles of a layer as they stand in Track SRAM. -/
def Dev.weightsOf (d : Dev) (p : Pass) (l : Nat) : List Bytes :=
  (p.weights.filter fun w => w.layer == l).map fun w =>
    (List.range 16).flatMap fun i => fit 4096 (Tab.get [] d.inf.pageMem (pageAt p.pages (16 * w.place + i)))

/-- The rescale entry of a channel, from its tile's bank (R317). -/
def Dev.rescEntry (d : Dev) (tile l c : Nat) : Nat :=
  match (Tab.get [] d.inf.resc tile).find? fun e => e.1 == l && e.2.1 == c with
  | some e => e.2.2
  | none => 0

/-- Stages 3 to 8 of a layer for row i of the pass (R313, R320 to R323): its output elements line by line, channel by channel;
the numbers taken; the elements that the rescale of a tile saturates, by tile. -/
def Dev.rowOutputs (d : Dev) (p : Pass) (g : Prog) (l : Nat) (y : Layer) (i : Nat) (cnt : Tab Nat) : List Nat × Tab Nat × List Nat :=
  let acts := (p.tiles.flatMap fun t => (Tab.get {} d.inf.sram t).acts).filter fun a => a.row == i
  let tensors := (p.rowTensors g i l).map (·.2)
  let mem := d.weightsOf p l
  let lines := (Config.stageLines g.digest l).length
  (List.range lines).foldl (fun acc line =>
    let mine := acts.filter fun a => a.line == line
    (List.range y.entries.length).foldl (fun (acc : List Nat × Tab Nat × List Nat) c =>
      let rel := Config.channelTile g.digest l c % max 1 g.tiles
      let e := d.rescEntry (p.tile rel) l c
      let s := y.sumOf mine (Config.weights g.digest l line c p.tiles mem tensors)
      let (u, cnt) := if resRnd e then takeRandom (p.reqs.map (·.seed)) l rel acc.2.1 else (0, acc.2.1)
      let (v, sat) := output y.ofmt e s u
      (acc.1 ++ [v], cnt, if sat then p.tile rel :: acc.2.2 else acc.2.2)) acc) ([], cnt, [])

/-- The products and the rescale of a layer over every row of the pass; the outputs stand in the tiles. The generators go on from where
the conversion left them (R331). -/
def Dev.runLayer (d : Dev) (n : Nat) (p : Pass) (g : Prog) (l : Nat) (y : Layer) : Dev :=
  ((List.range p.rows.length).foldl (fun (acc : Dev × Tab Nat) i =>
    let (out, cnt, sats) := acc.1.rowOutputs p g l y i acc.2
    let d := sats.foldl (fun d t => d.bump .IGRP_SAT_COUNT 1 (t / 8)) acc.1
    (d.updPass n fun p => { p with tensors := Tab.ins p.tensors ((l + 1) * 1024 + i) out }, cnt)) (d, p.rng)).1

/-- R299: the current layer starts once all its tiles are in Track SRAM: it measures and converts its input. -/
def Dev.tryLayer (d : Dev) (n : Nat) : Dev :=
  match d.pass n with
  | none => d
  | some p =>
    if p.started || (p.weights.any fun w => w.layer == p.layer && w.state != 3) then d
    else
      let d := (d.bumpTiles .ITILE_WAIT_CYCLES p.tiles (d.now - p.since)).updPass n fun p => { p with started := true, since := d.now, rng := [] }
      match (d.prog p.part p.slot).bind fun g => g.layers[p.layer]?.map fun y => (g, y) with
      | some (g, y) => d.measureLayer n p g p.layer y
      | none => d

/-! ## The input of a pass (R290, R302 to R304) -/

/-- A reranker's row (Table 12.11): the query, the candidate's distance, flags and ID, its feature row. -/
def Dev.rerankRow (d : Dev) (g : Prog) (s : Srch) (r : Nat) (e : PEnt) : Bytes :=
  let q := match (d.tableIdx g.ftable).bind d.table with | some t => g.q t | none => 0
  let n := u16 s.block 0
  let query := if s.code.isEmpty || u8 (match Tab.find d.reqs r with | some q => q.desc | none => []) 0 = 0x10
    then s.block.drop (ceilDiv (0x50 + 2 * n) 64 * 64) else s.code
  let feature := match Tab.find d.em.jobs r with
    | some j => (match findIdx? (· == e.idx) j.idx with | some i => Tab.get [] j.rows i | none => [])
    | none => []
  fit g.inelems (fit q query ++ le 2 e.key ++ le 1 e.rflags ++ le 5 e.idx ++ fill 56 0 ++ feature)

/-- The input elements of a row of a request. -/
def Dev.rowInput (d : Dev) (g : Prog) (q : PassReq) (row : Nat) : List Nat :=
  let b : Bytes := match q.kind with
    | 0 => (match Tab.find d.reqs q.r with | some z => sub z.buf (row * g.inRow) g.inRow | none => [])
    | 1 => (match Tab.find d.ix.srch q.r with
      | some s => s.block.drop (ceilDiv (0x50 + 2 * u16 s.block 0) 64 * 64)
      | none => [])
    | _ => (match Tab.find d.ix.srch q.r with
      | some s => (match s.cands[row]? with | some e => d.rerankRow g s q.r e | none => [])
      | none => [])
  (List.range g.inelems).map (elemAt g.infmt b)

/-- A request that a pass may take now. -/
def Dev.passReady (d : Dev) (w : PassWait) : Bool := match d.runJob w.r with | some j => j.held | none => false

/-- R294: the waiting requests that join a pass after the head, in order, until one does not fit. -/
def joinPass (bib slot : Nat) : Nat → List PassWait → List PassWait
  | _, [] => []
  | room, w :: r =>
    if w.bib != bib || w.slot != slot then joinPass bib slot room r
    else if w.left ≤ room then w :: joinPass bib slot (room - w.left) r
    else []

/-- R317: the rescale entries of a relative tile, for every layer of a program. -/
def Prog.bank (g : Prog) (rel : Nat) : List (Nat × Nat × Nat) :=
  (List.range g.layers.length).flatMap fun l => match g.layers[l]? with
    | none => []
    | some y => ((List.range y.entries.length).filter fun c => Config.channelTile g.digest l c % max 1 g.tiles = rel).map fun c =>
        (l, c, y.entries.getD c 0)

/-- A pass takes its tiles and pages: they are cleared as R296 says, and the rescale entries are loaded (R317). -/
def Dev.takeTiles (d : Dev) (g : Prog) (who : Nat) (tiles : List Nat) (pages : List PageRun) : Dev :=
  let d := (tiles.foldl (fun d t => d.claimTile t who) d).claimPages pages who
  d.setInf fun x => { x with
    resc := (List.range tiles.length).foldl (fun t i => Tab.ins t (tiles.getD i 0) (g.bank i)) x.resc }

/-- R331: the seed of a request's rows: of its descriptor, or of the time of the grant. -/
def Dev.seedOf (d : Dev) (x : PassWait) : Nat :=
  let s := match Tab.find d.reqs x.r with | some q => if x.kind = 0 then u32 q.desc 0x2C else 0 | none => 0
  if s = 0 then d.now % 4294967296 else s

/-- PASS_GRANT (R293 to R296): the head of a partition's queue receives a pass, once the passes that it had before have ended
(R294). -/
def Dev.grantPass (d : Dev) (part : Nat) : Dev :=
  match Tab.get [] d.inf.queue part with
  | [] => d
  | w :: rest =>
    let refuse (res : Nat) : Dev := (d.setInf fun x => { x with queue := Tab.put [] x.queue part rest }).complete w.r ST_REFUSED_RESOURCE res
    match d.prog part w.slot with
    | none => refuse 4
    | some g =>
      let free := (d.unfenced part).filter fun t => !d.tileBusy t
      if (d.unfenced part).length < g.tiles then refuse 2
      else if ((Tab.vals d.inf.passes).any fun x => x.reqs.any fun q => q.r == w.r) then d
      else if !d.passReady w || free.length < g.tiles || d.pageShare part < d.pagesHeld part + g.pages then d
      else
        let rows := min w.left g.rowmax
        let more := if rows < w.left then [] else joinPass w.bib w.slot (g.rowmax - rows) (rest.filter d.passReady)
        let shares := (w, rows) :: more.map fun x => (x, x.left)
        let tiles := pickTiles free g.tiles
        let pages := d.pickPages tiles g.pages
        let reqs := shares.map fun s => ({ r := s.1.r, kind := s.1.kind, first := s.1.next, rows := s.2, seed := d.seedOf s.1 } : PassReq)
        let p : Pass := { part := part, slot := w.slot, bib := w.bib, tiles := tiles, pages := pages, since := d.now, granted := d.now
                          reqs := reqs }
        let input := p.rows.map fun x => d.rowInput g x.1 x.2
        let p := { p with tensors := (List.range input.length).map fun i => (i, input.getD i []) }
        let (n, d) := d.newId
        let queue := (if rows < w.left then [{ w with left := w.left - rows, next := w.next + rows }] else [])
          ++ rest.filter fun x => !(more.any fun y => y.r == x.r)
        let d := (d.takeTiles g (w.bib + 1) tiles pages).bumpGroups .IGRP_PASSES_COUNT tiles
        let d := d.setInf fun x => { x with queue := Tab.put [] x.queue part queue, passes := Tab.ins x.passes n p }
        ((List.range (min g.window g.layers.length)).foldl (fun d l => d.askLayer n l) d).tryLayer n

/-! ## The end of a pass (R293, R298, R302, R303) -/

/-- The key of a column of a top-k row (R260): wider formats exactly, integers as they are. -/
def Dev.columnKey (d : Dev) (g : Prog) (c : Nat) : Nat × Dev :=
  if g.mode ≥ 4 then (toFp32 (elemValue g.outfmt c), d)
  else if (intRange g.outfmt).isSome then (unsigned (if g.mode = 0 then 16 else 32) (elemValue g.outfmt c).num, d)
  else let (k, d) := d.draw; (Config.passKey k % 2 ^ (if g.mode = 0 then 16 else 32), d)

/-- A RUN whose rows are all out completes (R298). -/
def Dev.runEnd (d : Dev) (r : Nat) : Dev :=
  match d.runJob r, Tab.find d.reqs r with
  | some j, some q =>
    if q.ended || j.done < j.rows || j.lists != 0 then d
    else if j.kind != 0 then d.updRun r fun j => { j with ready := true }
    else
      let d := if j.short > 0 then d.addFlag r FL_SHORT else d
      let d := if j.ties > 0 then d.addFlag r FL_TIE_CUT else d
      let d := if j.misses > 0 then d.addFlag r FL_FLASH else d
      d.finish r ST_OK (j.done + j.short * 2 ^ 16 + j.ties * 2 ^ 32 + min 0xFFFF j.misses * 2 ^ 48)
  | _, _ => d

/-- R267: the segments of a row of n columns (first column, count): one where the row is not longer than the split length. -/
def rowSegments (split n : Nat) : List (Nat × Nat) :=
  if split = 0 || n ≤ split then [(0, n)]
  else (List.range (ceilDiv n split)).map fun i => (i * split, min split (n - i * split))

/-- The columns of a row, or of a segment of it, are offered to its list, which then closes (R298). -/
def Dev.fillRow (d : Dev) (list : Nat) (g : Prog) (base : Nat) (cols : List Nat) : Dev :=
  let d := (List.range cols.length).foldl (fun d i =>
    let (k, d) := d.columnKey g (cols.getD i 0)
    d.offer list { key := k, idx := base + i, src := 0, rflags := 0 }) d
  (d.closeList list 0).setInf fun x => { x with rows := Tab.del x.rows list }

/-- The list of a segment opens. -/
def Dev.segList (d : Dev) (r part row : Nat) (g : Prog) (source base : Nat) (cols : List Nat) : Dev :=
  let (n, d) := d.newList (.seg r row source) part g.k g.mode false
  match d.plist n with
  | some l =>
    if l.sel.isSome then d.fillRow n g base cols
    else d.setInf fun x => { x with rows := Tab.ins x.rows n { r := r, prog := g, row := row, base := base, cols := cols } }
  | none => d

/-- A list of a row has its slots: the row's own list takes the columns; the merge of a split row opens the lists of the
segments (R267). Every segment goes to a selector of this node: DESIGN CHOICE (log 122). -/
def Dev.openRow (d : Dev) (n : Nat) (w : RowWait) : Dev :=
  let g := w.prog
  match d.plist n with
  | none => d
  | some l =>
    if l.sel.isNone then d
    else if !l.merge then d.fillRow n g w.base w.cols
    else
      let d := d.setInf fun x => { x with rows := Tab.del x.rows n }
      let segs := rowSegments (Config.splitLen g.digest) w.cols.length
      (List.range segs.length).foldl (fun d i =>
        let s := segs.getD i (0, 0)
        d.segList w.r l.part w.row g i s.1 ((w.cols.drop s.1).take s.2)) d

/-- A top-k row goes to its list, at once where the list has its slots. -/
def Dev.rowList (d : Dev) (r part row : Nat) (g : Prog) (cols : List Nat) : Dev :=
  let segs := (rowSegments (Config.splitLen g.digest) cols.length).length
  let merge := decide (1 < segs)
  let (n, d) := d.newList (.row r row) part g.k g.mode merge
  let d := d.updRun r fun j => { j with lists := j.lists + 1, segs := segs }
  let w : RowWait := { r := r, prog := g, row := row, base := 0, cols := cols }
  (d.setInf fun x => { x with rows := Tab.ins x.rows n w }).openRow n w

/-- R273: the merge of a row closes once every segment has been taken. -/
def Dev.rowMergeDue (d : Dev) (r row n : Nat) : Dev :=
  match d.plist n, d.runJob r with
  | some l, some j =>
    let mine := j.parts.filter fun p => p.1 == row
    if mine.length < j.segs then d else d.closeList n (l.cutCount (mine.map fun p => p.2.2) - l.tieCnt)
  | _, _ => d

/-- The open merge of a row, and whether a segment of it has been taken, or the row has none of that number. -/
def Dev.rowMerge (d : Dev) (r row : Nat) : Option Nat :=
  (d.ix.lists.find? fun p => p.2.merge && !p.2.closed && (match p.2.owner with | .row r' w => r' == r && w == row | _ => false)).map (·.1)
def Dev.segTaken (d : Dev) (r row source : Nat) : Bool :=
  match d.runJob r with
  | some j => j.segs ≤ source || j.parts.any fun p => p.1 == row && p.2.1 == source
  | none => true

/-- R268 to R271: the list of a segment enters the merge of its row, or is discarded. -/
def Dev.acceptSeg (d : Dev) (r row source key ties count mode : Nat) (es : List PEnt) : Dev :=
  match d.rowMerge r row with
  | none => d.bump .POD_LATE_COUNT 1 (d.selOf none (match Tab.find d.reqs r with | some q => q.part | none => 0))
  | some n =>
    let l := d.plist n
    let bad := match l with | some l => mode != l.mode || l.k < count | none => true
    if bad || d.segTaken r row source then d.bump .POD_LATE_COUNT 1 (d.selOf l 0)
    else
      let d := es.foldl (fun d e => d.offer n { e with src := source }) d
      (d.updRun r fun j => { j with parts := j.parts ++ [(row, source, key, ties)] }).rowMergeDue r row n

/-- The list of a segment is delivered. -/
def Dev.segDelivered (d : Dev) (r row source : Nat) (l : PList) : Dev :=
  let key := match l.kth with | some z => z.key | none => 0
  d.acceptSeg r row source key (min 0xFFFF l.tieCnt) l.ents.length l.mode l.ents

/-- The RUN, and its row, whose open merge a partial list with EPOCH 0 names: the first row that has not taken the source. The
header names no row: DESIGN CHOICE (log 122). -/
def Dev.findRow (d : Dev) (tag gen bib source : Nat) : Option (Nat × Nat) :=
  d.ix.lists.findSome? fun p => match p.2.owner with
    | .row r row =>
      match Tab.find d.reqs r with
      | some q => if p.2.merge && !p.2.closed && q.live && u32 q.desc 4 == tag && q.gen == gen && q.bib == some bib
            && !d.segTaken r row source then some (r, row) else none
      | none => none
    | _ => none

/-- R264: the entries of a delivered list with its sentinels. -/
def rowBytesOf (l : PList) : Bytes :=
  let es := l.ents ++ List.replicate (l.k - l.ents.length) { key := 0xFFFF, idx := sentinelId, src := 0, rflags := 0 }
  (es.map fun e => le 5 e.idx ++ le 1 e.rflags ++ le 2 0 ++ le 4 e.key ++ le 4 0).flatten

/-- A row's list is delivered: its entries are written, and the RUN may end. -/
def Dev.rowDelivered (d : Dev) (r row : Nat) (l : PList) : Dev :=
  match Tab.find d.reqs r, d.runJob r with
  | some q, some j =>
    let ties := l.cutCount ((j.parts.filter fun p => p.1 == row).map fun p => p.2.2)
    let d := d.dmaWrite r (u64 q.desc 0x20 + row * (16 * l.k)) (rowBytesOf l)
    let d := d.updRun r fun j => { j with
      lists := j.lists - 1, short := j.short + ofBool (l.ents.length < l.k), ties := j.ties + ofBool (ties > 0)
      parts := j.parts.filter fun p => p.1 != row }
    d.runEnd r
  | _, _ => d

/-- The output elements of row i of a pass: those of its last layer. -/
def Pass.outputs (p : Pass) (g : Prog) (i : Nat) : List Nat :=
  let out := Tab.get [] p.tensors (g.layers.length * 1024 + i)
  (List.range g.outelems).map fun e => (out[e]?).getD (Config.shapeGap g.digest g.layers.length e % 2 ^ fmtBits g.outfmt)

/-- One row leaves a pass. -/
def Dev.outRow (d : Dev) (p : Pass) (g : Prog) (q : PassReq) (row : Nat) (cols : List Nat) : Dev :=
  match q.kind with
  | 0 =>
    if g.topk then d.rowList q.r p.part row g cols
    else match Tab.find d.reqs q.r with
      | some z => d.dmaWrite q.r (u64 z.desc 0x20 + row * g.outRow) (fit g.outRow (packElems g.outfmt cols))
      | none => d
  | _ => d.updRun q.r fun j => { j with out := Tab.ins j.out row cols }

/-- The last layer has ended: rows leave, tiles and pages are free. -/
def Dev.endPass (d : Dev) (n : Nat) : Dev :=
  match d.pass n with
  | none => d
  | some p =>
    match d.prog p.part p.slot with
    | none => d.leaveTiles n
    | some g =>
      let live (r : Nat) : Bool := match Tab.find d.reqs r with | some q => q.live | none => false
      let rows := p.rows
      let d := (List.range rows.length).foldl (fun d i => match rows[i]? with
        | some (q, row) => if live q.r then d.outRow p g q row (p.outputs g i) else d
        | none => d) d
      let d := p.reqs.foldl (fun d q => d.updRun q.r fun j => { j with done := j.done + q.rows }) d
      let d := d.leaveTiles n
      (p.reqs.filter fun q => live q.r).foldl (fun d q => d.runEnd q.r) d

/-- LAYER_END (R299): the layer's outputs stand, its tiles leave Track SRAM, and the layer WINDOW further on is asked for. -/
def Dev.layerEnd (d : Dev) (n : Nat) : Dev :=
  match d.pass n with
  | none => d
  | some p =>
    if !p.started then d
    else match d.prog p.part p.slot with
      | none => d
      | some g =>
        match g.layers[p.layer]? with
        | none => d
        | some y =>
          let d := d.runLayer n p g p.layer y
          if p.layer + 1 < g.layers.length then
            let d := d.updPass n fun p => { p with
              layer := p.layer + 1, started := false, since := d.now, weights := p.weights.filter fun w => w.layer != p.layer }
            (d.askLayer n (p.layer + g.window)).tryLayer n
          else d.endPass n

/-- A place of 16 pages that no weight tile of the pass holds; which one is free (log 57). -/
def Pass.freePlace (p : Pass) (k : Nat) : Nat :=
  let free := (List.range (pageCount p.pages / 16)).filter fun i => !(p.weights.any fun w => w.state == 3 && w.place == i)
  free.getD (Config.weightBank k % max 1 free.length) 0

/-- A weight tile's bytes enter the pages of its place. -/
def Dev.storeWeight (d : Dev) (pages : List PageRun) (place : Nat) (b : Bytes) : Dev :=
  (List.range 16).foldl (fun d i =>
    let k := pageAt pages (16 * place + i)
    (d.bump .TSRAM_IN_BYTES 4096 (k / 4096)).setInf fun x => { x with pageMem := Tab.put [] x.pageMem k (sub b (4096 * i) 4096) }) d

/-- WEIGHT_TILE_ARRIVAL (R299): a tile of the DRAM tier in the order asked, or one whose flash read has ended. -/
def Dev.weightArrival (d : Dev) (n l i : Nat) : Dev :=
  match d.pass n with
  | none => d
  | some p =>
    let first := p.weights.find? fun w => w.state == 0
    match p.weights.find? fun w => w.layer == l && w.tile == i with
    | none => d
    | some w =>
      if !(w.state = 2 || (w.state = 0 && first == some w)) then d
      else
        let (k, d) := d.draw
        let place := p.freePlace k
        let d := d.storeWeight p.pages place w.data
        (d.updPass n fun p => { p with weights := p.weights.map fun w =>
          if w.layer = l && w.tile = i then { w with state := 3, data := [], key := none, place := place } else w }).tryLayer n

/-- A weight tile's flash read has ended (R300, R418, R419); its retry levels are misses of the requests, and no tiles read (Table
12.7). -/
def Dev.weightRead (d : Dev) (n l i key levels target : Nat) (ok : Bool) : Dev :=
  match d.pass n with
  | none => d
  | some p =>
    let d := p.reqs.foldl (fun d q => d.updReq q.r fun q => { q with misses := q.misses + levels }) d
    if ok then d.updPass n fun p => { p with weights := p.weights.map fun w =>
        if w.layer = l && w.tile = i then { w with state := 2 } else w }
    else (d.reportMedia target key (some p.bib)).stopPass n ST_MEDIA_ERROR

/-- TILE_WDOG (R308). -/
def Dev.tileWdog (d : Dev) (t : Nat) : Dev :=
  match d.inf.passes.find? fun p => p.2.tiles.contains t with
  | none => d
  | some (n, p) =>
    if !p.started || d.now < p.since + d.rg .IGRP_CFG_WDOG (t / 8) * 1000 then d
    else ((d.report SRC_TILE_WDOG 0x11 t none p.slot 0).fenceUnit 0x11 t).stopPass n ST_INTERNAL

/-- R306: whether the passes of a bib must stop: the grace of its teardown has ended, it is HALTED, or the node is fenced. -/
def Dev.passesStop (d : Dev) (bib : Nat) : Bool :=
  let x := d.bib bib
  d.nodeFenced || (x.state != 2 && !(x.state = 4 && x.tdGrace))

/-- The passes that must stop do (R306, R308); a pass whose requests have ended otherwise runs to its end (R293). Ended requests
leave the queues. -/
def Dev.reapPasses (d : Dev) : Dev :=
  let live (r : Nat) : Bool := match Tab.find d.reqs r with | some q => q.live | none => false
  let d := d.inf.passes.foldl (fun d p => if d.passesStop p.2.bib then d.stopPass p.1 ST_FENCED else d) d
  let d := d.inf.passes.foldl (fun d p => if p.2.tiles.any d.tileFenced then d.stopPass p.1 ST_INTERNAL else d) d
  d.setInf fun x => { x with
    queue := (Tab.mapV x.queue fun _ l => l.filter fun w => live w.r).filter fun p => !p.2.isEmpty
    jobs := x.jobs.filter fun p => live p.1 }

/-- R307, R333: an uncorrected error stops the pass that read it: that of the tile, of the page, or of the tile whose bank of 64 KiB in
the rescale RAM (R317) holds the byte. -/
def Dev.stopPassOn (d : Dev) (ty inst addr : Nat) : Dev :=
  let page := addr / 4096
  let hit (p : Pass) : Bool :=
    (ty = 0x11 && p.tiles.contains inst) || (ty = 0x10 && p.tiles.contains (8 * inst + addr / 65536))
      || (ty = 0x12 && p.pages.any fun q => q.bank = inst && q.first ≤ page && page < q.first + q.count)
  match d.inf.passes.find? fun p => hit p.2 with
  | some p => d.stopPass p.1 ST_INTERNAL
  | none => d

/-- RUN_CANCEL (R297), at landing: how many RUNs it cancels; they complete with ST_BUDGET_EXHAUSTED. A RUN in its FIFO is
marked, and completes when it is admitted; so is one whose input is still being read, which completes once that has ended (R160). -/
def Dev.runCancel (d : Dev) (bib : Option Nat) (tag : Nat) : Nat × Dev :=
  let mine := d.reqs.filter fun p => !p.2.ended && p.2.bib == bib && u8 p.2.desc 0 == 0x22 && u32 p.2.desc 4 == tag
    && !((Tab.vals d.inf.passes).any fun x => x.reqs.any fun q => q.r == p.1) && p.2.aux != [1]
    && (match d.runJob p.1 with | some j => j.done == 0 | none => true)
  let d := mine.foldl (fun d p =>
    if p.2.waiting then d.updReq p.1 fun q => { q with aux := [1] }
    else
      let d := d.setInf fun x => { x with queue := Tab.mapV x.queue fun _ l => l.filter fun w => w.r != p.1 }
      if p.2.dmas > 0 then d.updReq p.1 fun q => { q with aux := [1] } else d.complete p.1 ST_BUDGET_EXHAUSTED 0) d
  (mine.length, d)

end Sys2Proof.Machine
end

