-- ==== Sys2Proof/Machine/Pool.lean ====
section
/-!
DEFINITION. The KV pool (spec file 15): segments at their home, requests at the admitting node, space, the aperture.
-/
namespace Sys2Proof.Machine

def Dev.poolOp (d : Dev) (n : Nat) : Option PoolOp := Tab.find d.pl.ops n
def Dev.updPool (d : Dev) (n : Nat) (f : PoolOp → PoolOp) : Dev := d.setPl fun x => { x with ops := Tab.upd x.ops n f }

/-- R358: the fields of a key. -/
def keyHome (k : Nat) : Nat := bits k 63 56
def keyNs (k : Nat) : Nat := bits k 55 40

/-! ## Space (R374, R375) -/

/-- Blocks in the DRAM share, those on their way out or back included; blocks in the flash tier; blocks that the flash holds,
or has room for. -/
def Dev.dramBlocks (d : Dev) : Nat := Tab.count d.pl.blocks fun b => b.place != 2
def Dev.spillBlocks (d : Dev) : Nat := Tab.count d.pl.blocks fun b => b.place == 2
def Dev.spillUse (d : Dev) : Nat := Tab.count d.pl.blocks fun b => b.place != 0

/-- The unpinned block of the DRAM share with the highest age, the lowest number first (R374). -/
def Dev.oldestBlock (d : Dev) : Option Nat :=
  match d.pl.blocks.filter fun p => p.2.place == 0 && !p.2.pinned with
  | [] => none
  | a :: r => some (r.foldl (fun (b p : Nat × PBlock) => if b.2.age < p.2.age then p else b) a).1

/-- The segment to evict: the one least recently published or read among those that may go (R374), but not the one of the
operation that needs the room (log 132). -/
def Dev.evictable (d : Dev) (keep : Nat) : Option Nat :=
  let reading (k : Nat) : Bool := k == keep || (Tab.vals d.pl.ops).any fun o => o.key == k && o.reading
  match d.pl.segs.filter fun p => !p.2.pinned && p.2.lease.isNone && p.2.offer.isNone && !reading p.1 with
  | [] => none
  | a :: r => some (r.foldl (fun (b p : Nat × Seg) => if p.2.used < b.2.used then p else b) a).1

/-- What becomes of a need for blocks. -/
inductive Room where
  | ok | wait | full | nv | closed
deriving DecidableEq, Repr

/-- A segment is evicted (R374). -/
def Dev.evict (d : Dev) (k : Nat) : Dev := ((d.setPl fun x => { x with segs := Tab.del x.segs k }).bump .POOL_EVICTED_COUNT).poolGc

/-- R374, R375, R421: room for n blocks is made: the oldest blocks are spilled, where a target is writable; else, or below the NV bar,
segments are evicted; by fuel. -/
def Dev.makeRoom (keep : Nat) : Nat → Dev → Nat → Room × Dev
  | 0, d, _ => (.wait, d)
  | f + 1, d, n =>
    let leaving := Tab.count d.pl.blocks fun b => b.place == 1
    if d.dramBlocks + n ≤ d.pl.cap then (.ok, d)
    else if d.dramBlocks + n ≤ d.pl.cap + leaving then (.wait, d)
    else
      let less (why : Room) : Room × Dev := match d.evictable keep with
        | some k => Dev.makeRoom keep f (d.evict k) n
        | none => (why, d)
      match (if d.pl.spillCap ≤ d.spillUse then none else d.oldestBlock) with
      | none => less .full
      | some b =>
        if d.rg .FTL_SUPPLY_NVLOW = 1 then less .nv
        else if (d.writables false).isEmpty then (.closed, d)
        else
          let d := d.updBlock b fun x => { x with place := 1 }
          Dev.makeRoom keep f (d.program (.spill b) (some (spillTile b)) 1 [] false) n

def Dev.room (d : Dev) (keep n : Nat) : Room × Dev := Dev.makeRoom keep (d.pl.blocks.length + d.pl.segs.length + 2) d n

/-- New blocks, of zeros or copies. -/
def Dev.newBlock (d : Dev) (pinned : Bool) (data : Tab Byte) (bad : Bool := false) : Nat × Dev :=
  let (b, d) := d.newId
  (b, d.setPl fun x => { x with blocks := Tab.ins x.blocks b { pinned := pinned, bad := bad, data := data } })

/-- R361: the blocks that a bib's segments homed here hold, and the pinned ones. The holder's are counted (log 58). -/
def Dev.bibBlocks (d : Dev) (slot bib : Nat) (pinned : Bool) : Nat :=
  sum ((Tab.vals d.pl.segs).map fun s =>
    if s.slot = slot && s.bib = bib && (!pinned || s.pinned) then s.pub.length + s.shadow.length else 0)

/-- R361: whether n more blocks exceed a bib's quota. -/
def Dev.overQuota (d : Dev) (slot bib n : Nat) (pinned : Bool) : Bool :=
  if slot != d.mt.slot then false
  else match Tab.find d.pl.ents bib with
    | none => false
    | some e => (e.quota > 0 && d.bibBlocks slot bib false + n > e.quota) || (pinned && d.bibBlocks slot bib true + n > e.pinQuota)

/-! ## Answers -/

/-- A POOL frame (Table 19.9). -/
def poolFrame (desc : Bytes) (bib gen kind status result : Nat) (data : Bytes) : Bytes :=
  fit 64 desc ++ le 2 bib ++ le 2 gen ++ le 1 kind ++ le 1 status ++ le 2 0 ++ le 8 0 ++ le 16 result ++ data

/-- The answer to an operation, at the admitting node: read data is written, and the request completes. -/
def Dev.poolFinish (d : Dev) (r status result : Nat) (data : Bytes) : Dev :=
  match Tab.find d.reqs r with
  | none => d
  | some q =>
    let d := if status = ST_OK && u8 q.desc 0 = 0x40 then
        let misses := bits result 47 32
        let d := (d.dmaWrite r (u64 q.desc 0x20) data).updReq r fun q => { q with misses := q.misses + misses }
        if misses > 0 then d.addFlag r FL_FLASH else d
      else d
    if status = ST_OK then d.finish r ST_OK result else d.complete r status result

/-- The answer to a read of the aperture (R379): completions of at most one Max Payload Size. -/
def Dev.aptAnswer (d : Dev) (port : Nat) (data : Option Bytes) : Dev :=
  let o := 2 + port
  match data with
  | some b =>
    let mps := max 1 (d.port port).mps
    (chunks mps (ceilDiv b.length mps) b).foldl (fun d c =>
      let n := (d.outlet o).counted c.length 1
      d.updOutlet o fun x => { x with apt := x.apt ++ [{ len := n, charge := n, emits := [.readData port c], since := d.now }] }) d
  | none => (d.bump .POOL_APTUR_COUNT).emit (.unsupported port)

/-- An operation ends. A read of the aperture has its data. -/
def Dev.poolAnswer (d : Dev) (o : PoolOp) (status result : Nat) (data : Bytes) : Dev :=
  let d := if status = ST_NOT_OWNER then d.bump .POOL_NOTOWNER_COUNT else d
  let d := if status = ST_VERSION_CONFLICT || status = ST_VERSION_OLD then d.bump .POOL_VCONFL_COUNT else d
  match o.who with
  | .req r => (d.updReq r fun q => { q with misses := q.misses + o.levels }).poolFinish r status result data
  | .relay slot gen => d.relayLong slot K_POOL (poolFrame o.desc o.bib gen 1 status result []) data
  | .apt port _ _ => d.aptAnswer port (if status = ST_OK then some data else none)

/-! ## Ownership and leases (R369 to R373) -/

/-- RESULT of ST_NOT_OWNER (Table 15.6). -/
def Seg.ownerResult (s : Seg) : Nat := s.grant + s.bib * 2 ^ 64 + s.slot * 2 ^ 80

/-- Split time at which a lease that starts or restarts now expires. -/
def Dev.leaseEnd (d : Dev) : Nat := d.now + d.pl.leaseMs * 1000000

/-- The holder's lease runs on, where one is open; a grant operation of the holder counts as activity. -/
def Dev.touchLease (d : Dev) (k : Nat) (start : Bool) : Dev :=
  d.updSeg k fun s => { s with idle := d.now, lease := if s.lease.isSome || start then some d.leaseEnd else none }

/-- R370, Table 15.7: a lease whose end has come expires, and an offer whose time is over lapses, before the next operation
on the segment is served. -/
def Dev.poolDue (d : Dev) (k : Nat) : Dev :=
  match d.seg k with
  | none => d
  | some s =>
    let d := match s.lease with | some e => if e ≤ d.now then d.expire k else d | none => d
    match s.offer with
    | some (_, _, _, at_) =>
      if at_ + d.pl.handoffMs * 1000000 ≤ d.now then (d.updSeg k fun s => { s with offer := none }).bump .POOL_OFFERTO_COUNT else d
    | none => d

/-- What the holder's operations meet first (R364, R370, R371, Table 15.7). -/
def Seg.ownerFails (s : Seg) (slot bib grant : Nat) : List (Nat × Nat) :=
  failIf (grant != s.grant || s.slot != slot || s.bib != bib || s.offer.isSome) ST_NOT_OWNER s.ownerResult

/-- SEG_STAT (Table 15.4). -/
def Seg.stat (s : Seg) : Nat :=
  s.version + s.bib * 2 ^ 32 + s.slot * 2 ^ 48 + (if s.offer.isSome then 1 else if s.expired then 2 else 0) * 2 ^ 56 + s.grant * 2 ^ 64

/-! ## Data -/

/-- Bytes of a range of a block map; a missing block is zeros. -/
def Dev.mapBytes (d : Dev) (m : Tab Nat) (off len : Nat) : Bytes :=
  (List.range len).map fun i =>
    let a := off + i
    match Tab.find m (a / 65536) with
    | some b => Tab.get 0 (d.block b).data (a % 65536)
    | none => 0

/-- The indices of blocks that a range touches. -/
def rangeBlocks (off len : Nat) : List Nat :=
  if len = 0 then [] else (List.range ((off + len - 1) / 65536 + 1 - off / 65536)).map (off / 65536 + ·)

/-- A write into the shadow (R365): each block's bytes. -/
def Dev.writeShadow (d : Dev) (k off : Nat) (data : Bytes) : Dev :=
  match d.seg k with
  | none => d
  | some s =>
    let idx := rangeBlocks off data.length
    let d := idx.foldl (fun d i =>
      if Tab.has s.shadow i then d
      else
        let src : PBlock := match Tab.find s.pub i with | some b => d.block b | none => { }
        let (b, d) := d.newBlock s.pinned src.data src.bad
        d.updSeg k fun s => { s with shadow := Tab.ins s.shadow i b }) d
    match d.seg k with
    | none => d
    | some s =>
      let d := idx.foldl (fun d i =>
        match Tab.find s.shadow i with
        | none => d
        | some b =>
          let lo := max off (i * 65536)
          let hi := min (off + data.length) ((i + 1) * 65536)
          d.updBlock b fun x => { x with age := 0, data := Tab.putRun 0 x.data (lo - i * 65536) (sub data (lo - off) (hi - lo)) }) d
      (d.updSeg k fun s => { s with dirty := true }).touchLease k true

/-! ## Operations at the home (R360 to R373) -/

/-- Blocks of an operation that stand in the flash tier are read back; the operation waits for them. -/
def Dev.fetchBlocks (d : Dev) (n : Nat) (bs : List Nat) : Dev :=
  let far := bs.filter fun b => (d.block b).place = 2 || (d.block b).place = 3
  far.foldl (fun d b =>
    let d := d.updPool n fun o => { o with wait := o.wait ++ [b], misses := o.misses + 1 }
    if (d.block b).place = 2 then (d.updBlock b fun x => { x with place := 3 }).rawRead (spillTile b) [.pool b] else d) d

/-- A read that has all its blocks answers; bytes that no code can correct are not delivered (R31). -/
def Dev.readDone (d : Dev) (n : Nat) : Dev :=
  match d.poolOp n with
  | none => d
  | some o =>
    let (off, len) := match o.who with
      | .apt _ off len => (off, len)
      | _ => (u32 o.desc 0x18, u32 o.desc 0x1C)
    let m : Tab Nat := ((rangeBlocks off len).zip o.blocks).foldl (fun t p => if p.2 = 0 then t else Tab.ins t p.1 p.2) []
    let data := d.mapBytes m off len
    let d := d.setPl fun x => { x with ops := Tab.del x.ops n }
    if (o.blocks.filter (· != 0)).any fun b => (d.block b).bad then (d.poolAnswer o ST_INTERNAL 0 []).poolGc
    else
    let d := match o.who with | .apt .. => d | _ => d.bump .POOL_READS_COUNT
    (d.poolAnswer o ST_OK (o.version + min 0xFFFF o.misses * 2 ^ 32) data).poolGc

/-- The blocks of a range of the published version; 0 stands for zeros. -/
def Seg.rangeOf (s : Seg) (off len : Nat) : List Nat := (rangeBlocks off len).map fun i => (Tab.find s.pub i).getD 0

/-- R408: the spilled blocks among some that stand on a sled that serves no reads. -/
def Dev.lostBlocks (d : Dev) (bs : List Nat) : List Nat :=
  bs.filter fun b => (d.block b).place = 2 && d.lostTile (d.tile (spillTile b))

/-- R408, R419: an operation whose blocks are lost fails; the loss is recorded once per sled. -/
def Dev.failLost (d : Dev) (o : PoolOp) (bs : List Nat) : Dev :=
  (bs.foldl (fun d b => d.reportLoss (spillTile b)) d).poolAnswer o ST_MEDIA_ERROR 0 []

/-- R368: a read takes the published version and its blocks. One that needs bytes which no code can correct fails (R31). -/
def Dev.startSegRead (d : Dev) (o : PoolOp) (s : Seg) (off len : Nat) : Dev :=
  let bs := s.rangeOf off len
  let lost := d.lostBlocks (bs.filter (· != 0))
  if !lost.isEmpty then d.failLost o lost
  else if (bs.filter (· != 0)).any fun b => (d.block b).bad then d.poolAnswer o ST_INTERNAL 0 []
  else
  let (n, d) := d.newId
  let d := d.setPl fun x => { x with ops := Tab.ins x.ops n { o with num := n, reading := true, blocks := bs, version := s.version } }
  let d := d.updSeg o.key fun s => { s with used := d.now }
  let d := (bs.filter (· != 0)).foldl (fun d b => d.updBlock b fun x => { x with age := 0 }) d
  let d := d.fetchBlocks n (bs.filter (· != 0))
  match d.poolOp n with
  | some o => if o.wait.isEmpty then d.readDone n else d
  | none => d

/-- The bytes that a write would overlay stand in blocks of the flash tier: those to read back first (R365). -/
def Dev.writeNeeds (d : Dev) (s : Seg) (off len : Nat) : List Nat × Nat :=
  let idx := (rangeBlocks off len).filter fun i => !(Tab.has s.shadow i)
  ((idx.filterMap fun i => Tab.find s.pub i).filter fun b => (d.block b).place = 2 || (d.block b).place = 3, idx.length)

/-- An operation waits at the home, in its place in the order of arrival. -/
def Dev.park (d : Dev) (o : PoolOp) : Nat × Dev :=
  let (n, d) := if o.num = 0 then d.newId else (o.num, d)
  (n, d.setPl fun x => { x with ops := Tab.ins x.ops n { o with num := n } })

/-- R365: a write of the segment that arrived before an operation still waits. -/
def Dev.writeAhead (d : Dev) (o : PoolOp) : Bool :=
  d.pl.ops.any fun p => p.2.key == o.key && u8 p.2.desc 0 == 0x49 && (o.num == 0 || decide (p.1 < o.num))

/-- R372: a grant operation of the holder has come, whatever becomes of it. -/
def Dev.issued (d : Dev) (o : PoolOp) : Dev :=
  if o.num = 0 && 0x49 ≤ u8 o.desc 0 then
    d.updSeg o.key fun s => if s.slot = o.slot && s.bib = o.bib then { s with idle := d.now } else s
  else d

/-- What becomes of an operation that needs room (R364, R374, R375, R421). -/
def Dev.withRoom (d : Dev) (o : PoolOp) (n : Nat) (go : Dev → Dev) : Dev :=
  match d.room o.key n with
  | (.ok, d) => go d
  | (.wait, d) => (d.park o).2
  | (.full, d) => d.poolAnswer o ST_REFUSED_RESOURCE 2 []
  | (.closed, d) => d.poolAnswer o ST_REFUSED_RESOURCE 7 []
  | (.nv, d) => (d.bump .FTL_NVBLK_COUNT).poolAnswer o ST_NV_BLOCKED 0 []

/-- One operation is served at the home, as far as it can be: what it meets first ends it; one that needs room, or blocks of
the flash tier, or that follows a write that waits, waits. -/
def Dev.poolServe (d : Dev) (o : PoolOp) : Dev :=
  let op := u8 o.desc 0
  let k := o.key
  let d := (d.poolDue k).issued o
  let answer (d : Dev) (st res : Nat) : Dev := d.poolAnswer o st res []
  let bail (d : Dev) (fs : List (Nat × Nat)) (go : Dev → Dev) : Dev := match pickFail fs with
    | some (st, res) => answer d st res
    | none => go d
  if op = 0x48 then
    let n := u32 o.desc 0x18 / 65536
    let pin := bit (u8 o.desc 0x1C) 0
    bail d (failIf (d.seg k).isSome ST_REFUSED_RESOURCE 4 ++ failIf (d.overQuota o.slot o.bib n pin) ST_REFUSED_RESOURCE 5
        ++ failIf (d.pl.segMax ≤ d.pl.segs.length) ST_REFUSED_RESOURCE 9) fun d =>
      d.withRoom o n fun d =>
        let (m, d) := (List.range n).foldl (fun (acc : Tab Nat × Dev) i =>
          let (b, d) := acc.2.newBlock pin []
          (Tab.ins acc.1 i b, d)) (([] : Tab Nat), d)
        let sg : Seg := { blocks := n, pinned := pin, slot := o.slot, bib := o.bib, idle := d.now, used := d.now, pub := m }
        let d := d.setPl fun x => { x with segs := Tab.ins x.segs k sg }
        answer d ST_OK 1
  else
    match d.seg k with
    | none => answer d ST_REFUSED_RESOURCE 1
    | some s =>
      let size := s.blocks * 65536
      let grant := u64 o.desc 0x18
      let own := s.ownerFails o.slot o.bib grant
      let late := failIf s.expired ST_LEASE_EXPIRED
      match op with
      | 0x40 =>
        let off := u32 o.desc 0x18
        let len := u32 o.desc 0x1C
        bail d (failIf (size < off + len) ST_BAD_DESC ++ failIf (s.version = 0) ST_REFUSED_RESOURCE 10) fun d =>
          d.startSegRead o s off len
      | 0x41 => answer d ST_OK s.stat
      | 0x49 =>
        let off := u32 o.desc 0x20
        let len := u32 o.desc 0x24
        let (far, n) := d.writeNeeds s off len
        bail d (failIf (size < off + len) ST_BAD_DESC ++ own ++ late ++ failIf (d.overQuota o.slot o.bib n s.pinned) ST_REFUSED_RESOURCE 5) fun d =>
          let lost := d.lostBlocks far
          if d.writeAhead o then (d.park o).2
          else if !lost.isEmpty then d.failLost o lost
          else if !far.isEmpty then
            let (m, d) := d.park { o with blocks := far }
            d.fetchBlocks m far
          else d.withRoom o n fun d =>
            let d := d.writeShadow k off o.data
            answer d ST_OK (match d.seg k with | some s => s.lease.getD 0 | none => 0)
      | 0x4A => bail d (own ++ late) fun d =>
          let d := (d.updSeg k fun s => { s with dirty := false }).touchLease k false
          match d.seg k with
          | some s => answer d ST_OK (s.lease.getD 0 % 2 ^ 64 + s.shadow.length * 2 ^ 64)
          | none => d
      | 0x4B =>
        let v := u32 o.desc 0x20
        bail d (failIf (v = 0) ST_BAD_DESC ++ own ++ late ++ failIf s.dirty ST_REFUSED_RESOURCE 6
            ++ failIf (s.version != 0 && v = s.version) ST_VERSION_CONFLICT s.version
            ++ failIf (s.version != 0 && v != s.version && !newer 32 v s.version) ST_VERSION_OLD s.version) fun d =>
          let d := d.updSeg k fun s => { s with
            version := v, pub := s.shadow.foldl (fun t p => Tab.ins t p.1 p.2) s.pub, shadow := [], lease := none
            idle := d.now, used := d.now }
          answer (d.bump .POOL_PUBLISH_COUNT).poolGc ST_OK v
      | 0x4C =>
        let restart := bit (u8 o.desc 0x20) 0
        bail d (own ++ failIf (s.expired && !restart) ST_LEASE_EXPIRED) fun d =>
          let d := if restart && s.expired then d.updSeg k fun s => { s with expired := false, shadow := [], lease := none, idle := d.now } else d
          let d := d.touchLease k false
          answer d ST_OK (match d.seg k with | some s => s.lease.getD 0 | none => 0)
      | 0x4E => bail d own fun d => answer (d.setPl fun x => { x with segs := Tab.del x.segs k }).poolGc ST_OK 0
      | 0x4D =>
        let act := u8 o.desc 0x20
        let mine := s.slot = o.slot && s.bib = o.bib
        let give (d : Dev) (g top : Nat) (f : Seg → Seg) : Dev :=
          (d.updSeg k fun s => f { s with grant := g, top := top, slot := o.slot, bib := o.bib, offer := none, idle := d.now }).bump .POOL_GRANTS_COUNT
        match act with
        | 0 => bail d (own ++ late) fun d =>
            let p := s.top + 1
            let d := d.updSeg k fun s => { s with
              top := p, offer := some (p, u8 o.desc 0x21, u16 o.desc 0x22, d.now), idle := d.now }
            answer d ST_OK p
        | 1 =>
          match s.offer with
          | some (p, sl, b, _) =>
            if sl = o.slot && b = o.bib then
              let d := give d p s.top fun s => { s with lease := s.lease.map fun _ => d.leaseEnd }
              answer d ST_OK p
            else if mine then answer d ST_OK s.grant
            else answer d ST_NOT_OWNER s.ownerResult
          | none => if mine then answer d ST_OK s.grant else answer d ST_NOT_OWNER s.ownerResult
        | 2 =>
          let idle := s.lease.isNone && s.idle + d.pl.handoffMs * 1000000 ≤ d.now
          if s.offer.isNone && (s.expired || (idle && !mine)) then
            let g := s.top + 1
            answer (give d g g fun s => { s with expired := false, lease := none }) ST_OK g
          else answer d ST_NOT_OWNER s.ownerResult
        | _ =>
          if s.offer.isSome && mine && grant = s.grant then
            answer (d.updSeg k fun s => { s with offer := none, idle := d.now }) ST_OK s.grant
          else answer d ST_NOT_OWNER s.ownerResult
      | _ => answer d ST_BAD_DESC 0

/-- Operations that wait for room, or for an earlier write, are tried again, in order of arrival; one whose request has ended has
no effect. -/
def Dev.poolRetry (d : Dev) : Dev :=
  (d.pl.ops.filter fun p => p.2.wait.isEmpty && !p.2.reading).foldl (fun d p =>
    let d := d.setPl fun x => { x with ops := Tab.del x.ops p.1 }
    if (match p.2.who with | .req r => d.liveJob r | _ => true) then d.poolServe { p.2 with blocks := [] } else d) d

/-- An operation comes to the home. -/
def Dev.poolTake (d : Dev) (o : PoolOp) : Dev := (d.poolServe o).poolRetry

/-- A block's spill program has ended (R374). -/
def Dev.spilled (d : Dev) (b : Nat) : Dev :=
  if (d.block b).place = 1 then d.updBlock b fun x => { x with place := 2 } else d

/-- R375: at the NV bar, spill programs that have not started do not; their blocks stay in the DRAM share. -/
def Dev.unspill (d : Dev) : Dev :=
  let spill (o : FOp) : Option Nat := match o.why with | some (.spill b) => some b | _ => none
  let bs := d.fl.wait.filterMap spill
  let d : Dev := { d with fl := { d.fl with wait := d.fl.wait.filter fun o => (spill o).isNone } }
  bs.foldl (fun d b => d.updBlock b fun x => { x with place := if x.place = 1 then 0 else x.place }) d

/-- A block comes back from the flash tier, or cannot be read (R374, R419). -/
def Dev.blockBack (d : Dev) (b levels target : Nat) (ok : Bool) : Dev :=
  if (d.block b).place != 3 then d
  else
    let waiting := d.pl.ops.filter fun p => p.2.wait.contains b
    if ok then
      let d := (d.updBlock b fun x => { x with place := 0, age := 0 }).setTile (spillTile b) {}
      let d := if d.pl.cap < d.dramBlocks then (d.room ((d.pl.segs.find? fun p => (Tab.vals p.2.pub).contains b).elim 0 (·.1)) 0).2 else d
      waiting.foldl (fun d p =>
        let d := d.updPool p.1 fun o => { o with wait := o.wait.filter (· != b), levels := o.levels + levels }
        match d.poolOp p.1 with
        | none => d
        | some o =>
          if o.wait.isEmpty && o.reading then d.readDone p.1 else d) d
    else
      let d := d.updBlock b fun x => { x with place := 2 }
      waiting.foldl (fun d p =>
        let d := d.setPl fun x => { x with ops := Tab.del x.ops p.1 }
        (d.reportMedia target (spillTile b) (match p.2.who with | .req _ => some p.2.bib | _ => none)).poolAnswer p.2 ST_MEDIA_ERROR 0 []) d

/-! ## Requests at the admitting node (R360, R363, R366) -/

def poolUsed (op : Nat) : List (Nat × Nat) :=
  match op with
  | 0x40 => [(0x10, 24)]
  | 0x41 => [(0x10, 8)]
  | 0x48 => [(0x10, 13)]
  | 0x49 => [(0x10, 32)]
  | 0x4B => [(0x10, 20)]
  | 0x4C => [(0x10, 17)]
  | 0x4D => [(0x10, 20)]
  | _ => [(0x10, 16)]

/-- A field out of range (R359, R363, R364). -/
def poolBad (x : Bytes) : Bool :=
  let op := u8 x 0
  let range (off len : Nat) : Bool := off % 64 = 0 && len % 64 = 0 && 64 ≤ len
  let act := u8 x 0x20
  keyNs (u64 x 0x10) = 0xFFFF ||
  match op with
  | 0x40 => !(range (u32 x 0x18) (u32 x 0x1C)) || u64 x 0x20 % 64 != 0
  | 0x48 => !(u32 x 0x18 % 65536 = 0 && 65536 ≤ u32 x 0x18 && u32 x 0x18 ≤ 1073741824) || u8 x 0x1C > 1
  | 0x49 => !(range (u32 x 0x20) (u32 x 0x24)) || u64 x 0x28 % 64 != 0
  | 0x4B => u32 x 0x20 = 0
  | 0x4C => u8 x 0x20 > 1
  | 0x4D => act > 3 || ((act = 1 || act = 2) && u64 x 0x18 != 0) || (act != 0 && (u8 x 0x21 != 0 || u16 x 0x22 != 0))
  | _ => false

/-- A request goes to its home. -/
def Dev.poolSend (d : Dev) (r : Nat) (q : Req) (j : PoolJob) : Dev :=
  let home := keyHome j.key
  let d := d.setPl fun x => { x with jobs := Tab.upd x.jobs r fun j => { j with sent := true } }
  if home = d.mt.slot then
    d.poolTake { who := .req r, desc := q.desc, slot := d.mt.slot, bib := j.bib, data := j.data, key := j.key }
  else if !d.memberLive home then d.complete r ST_TIMEOUT
  else d.relayLong home K_POOL (poolFrame q.desc j.bib q.gen 0 0 0 []) j.data

/-- R366: of one bib's requests on one segment, a flush and the writes go in admission order: each waits for those of the
other kind that were admitted before it. -/
def Dev.poolBlocked (d : Dev) (j : PoolJob) : Bool :=
  let live (p : Nat × PoolJob) : Bool := match Tab.find d.reqs p.1 with | some q => q.live | none => false
  d.pl.jobs.any fun p => p.2.order < j.order && p.2.bib == j.bib && p.2.key == j.key && live p
    && ((j.op == 0x4A && p.2.op == 0x49) || (j.op == 0x49 && p.2.op == 0x4A))

/-- Requests that may go, go, in admission order; by fuel. -/
def Dev.poolPump : Nat → Dev → Dev
  | 0, d => d
  | f + 1, d =>
    let live (p : Nat × PoolJob) : Bool := match Tab.find d.reqs p.1 with | some q => q.live | none => false
    match (sortBy (fun (a b : Nat × PoolJob) => a.2.order < b.2.order) d.pl.jobs).find? fun p =>
        p.2.ready && !p.2.sent && live p && !d.poolBlocked p.2 with
    | none => d
    | some p => match Tab.find d.reqs p.1 with
      | some q => Dev.poolPump f (d.poolSend p.1 q p.2)
      | none => d

def Dev.pumpPool (d : Dev) : Dev := Dev.poolPump (d.pl.jobs.length + 1) d

/-- Whatever of the pool can go on does (R365, R366, R374). -/
def Dev.poolGo (d : Dev) : Dev :=
  if d.pl.ops.isEmpty && d.pl.jobs.isEmpty then d
  else (d.setPl fun x => { x with jobs := x.jobs.filter fun p => d.liveJob p.1 }).poolRetry.pumpPool

/-- The home of a key is a member of the meet (R358, R360). -/
def Dev.poolHomeOk (d : Dev) (key : Nat) : Bool := if d.mt.on then Tab.has d.mt.members (keyHome key) else keyHome key = 0

/-- A pool request is admitted (R363, R364). -/
def Dev.poolAdmit (d : Dev) (r : Nat) (q : Req) : Dev :=
  let op := u8 q.desc 0
  let key := u64 q.desc 0x10
  let kind3 := match d.parts.find? fun p => p.num == q.part with | some p => p.kind == 3 | none => false
  d.checked r (failIf (!payloadOk (poolUsed op) q.desc || poolBad q.desc) ST_BAD_DESC
      ++ failIf (d.meetFenced && keyHome key != d.mt.slot) ST_FENCED
      ++ failIf (!d.poolHomeOk key) ST_REFUSED_RESOURCE 3 ++ failIf (!kind3) ST_REFUSED_RESOURCE 8) fun d =>
    let j : PoolJob := { op := op, key := key, bib := q.bib.getD 1024, order := d.pl.order, ready := op != 0x49 }
    let d := d.setPl fun x => { x with order := x.order + 1, jobs := Tab.ins x.jobs r j }
    if op = 0x49 then
      let d := d.dmaRead r 0 (u64 q.desc 0x28) (u32 q.desc 0x24)
      match Tab.find d.reqs r with
      | some q => if q.dmas = 0 then d.finish r ST_OK else d
      | none => d
    else d.pumpPool

/-- The data of a SEG_WRITE has arrived. -/
def Dev.poolData (d : Dev) (r : Nat) (b : Bytes) : Dev :=
  match Tab.find d.reqs r with
  | none => d
  | some q =>
    if q.fails.isEmpty then (d.setPl fun x => { x with jobs := Tab.upd x.jobs r fun j => { j with ready := true, data := b } }).pumpPool
    else (d.finish r ST_OK).pumpPool

/-! ## POOL frames -/

/-- POOL at its receiver: a request at the home, or an answer at the admitting node. -/
def Dev.onPool (d : Dev) (src : Nat) (b : Bytes) : Dev :=
  let desc := b.take 64
  let bib := u16 b 0x40
  let gen := u16 b 0x42
  if u8 b 0x44 = 0 then
    if d.meetFenced then d.relaySend src K_POOL (poolFrame desc bib gen 1 ST_FENCED 0 [])
    else d.poolTake { who := .relay src gen, desc := desc, slot := src, bib := bib, data := b.drop 0x60, key := u64 desc 0x10 }
  else
    match d.pl.jobs.find? fun p => p.2.sent && (match Tab.find d.reqs p.1 with
        | some q => q.live && q.desc == desc && q.gen == gen && q.bib == some bib && keyHome p.2.key == src
        | none => false) with
    | none => d
    | some p => (d.poolFinish p.1 (u8 b 0x45) (un 16 b 0x50) (b.drop 0x60)).pumpPool

/-- A home is declared lost (R376). -/
def Dev.poolLost (d : Dev) (slot : Nat) : Dev :=
  ((d.pl.jobs.filter fun p => p.2.sent && keyHome p.2.key == slot).foldl (fun d p => d.complete p.1 ST_TIMEOUT) d).pumpPool

/-- R378: the key that a result entry of a bib's search carries. -/
def Dev.poolLink (d : Dev) (bib gid : Nat) : Option Nat :=
  match Tab.find d.pl.ents bib with
  | none => none
  | some e =>
    if e.ns = 0xFFFF then none
    else
      let k := d.mt.slot * 2 ^ 56 + e.ns * 2 ^ 40 + gid
      match d.seg k with
      | some s => if s.version != 0 then some k else none
      | none => none

/-! ## Commands -/

end Sys2Proof.Machine
end

