-- ==== Sys2Proof/Machine/Search.lean ====
section
/-!
DEFINITION. Searches on the admitting node (R38, spec files 08, 11, 19): admission, the query block, encoding, shard
queries and their copies, the merge, reranking, the final cut, results, CANCEL; shard queries received over Relay.
-/
namespace Sys2Proof.Machine

def Dev.srch (d : Dev) (r : Nat) : Option Srch := Tab.find d.ix.srch r
def Dev.updSrch (d : Dev) (r : Nat) (f : Srch → Srch) : Dev := d.setIx fun x => { x with srch := Tab.upd x.srch r f }
def Dev.updSource (d : Dev) (r i : Nat) (f : Source → Source) : Dev := d.updSrch r fun s => { s with sources := updAt s.sources i f }

/-! ## The descriptor (R189 to R191, Table 08.2) -/

/-- The fields of a search descriptor with the values in force. -/
def Dev.readSearch (d : Dev) (q : Req) : Srch :=
  let x := q.desc
  let w := d.wlkInst q.part
  let k := u16 x 0x10
  let lk := u16 x 0x12
  let or0 (v dflt : Nat) : Nat := if v = 0 then dflt else v
  { epoch := d.curEpoch, k := k, localK := or0 lk k, beam := or0 (u16 x 0x14) (d.rg .WLK_CFG_BEAM w), cand := u16 x 0x16
    mode := u8 x 0x18 % 8, keys := bit (u8 x 0x18) 3, seeds := or0 (u8 x 0x19) (d.rg .WLK_SEED_COUNT w)
    hops := or0 (u16 x 0x1A) (d.rg .WLK_DEF_HOPS w), miss := if u16 x 0x1C = 0xFFFF then d.rg .WLK_DEF_MISS w else u16 x 0x1C
    est := u16 x 0x1E, evals := or0 (u32 x 0x20) (d.rg .WLK_DEFE_EVALS w) }

/-- R190, Table 08.2: a field outside its range. -/
def Dev.searchBad (d : Dev) (q : Req) (s : Srch) : Bool :=
  let x := q.desc
  let w := d.wlkInst q.part
  let enc := u8 x 0 = 0x10
  s.k = 0 || s.k > 128 || s.localK > 128 || s.beam < s.localK || s.beam > d.rg .WLK_CFG_BEAM w
    || !(s.cand = 0 || (s.k ≤ s.cand && s.cand ≤ 1024)) || s.mode % 4 = 3 || u8 x 0x18 ≥ 16 || u8 x 0x19 > 64
    || u16 x 0x1A > d.rg .WLK_CEIL_HOPS w || (u16 x 0x1C > 4095 && u16 x 0x1C != 0xFFFF) || u32 x 0x20 > d.rg .WLK_CEILE_EVALS w
    || u32 x 0x24 % 64 != 0 || u32 x 0x24 < 128 || u64 x 0x28 % 64 != 0 || u64 x 0x30 % 64 != 0
    || (u8 x 0x38 = 0) = enc || (u8 x 0x39 = 0) = (s.cand != 0) || !zeros x 0x3A 6

/-- R191: the search contract of the bib has SCAN clear. -/
def Dev.scanDenied (d : Dev) (q : Req) : Bool :=
  match d.contractOf (q.bib.getD 1024) 0 with
  | some (_, c) => !c.scan
  | none => false

/-- R288, R302 to R304: what ENC and RR name. -/
def Dev.searchProgFails (d : Dev) (q : Req) (s : Srch) : List (Nat × Nat) :=
  let one (slot role : Nat) : List (Nat × Nat) :=
    d.slotFails q slot ++ match d.prog q.part slot with
      | some p => failIf (p.role != role) ST_BAD_FORMAT
      | none => []
  (if u8 q.desc 0 = 0x10 then one (u8 q.desc 0x38) 1 else []) ++ (if s.cand != 0 then one (u8 q.desc 0x39) 2 else [])

/-! ## Results (R193 to R195) -/

/-- Table 08.5. -/
def searchResult (valid tiecut epoch exhausted scanned misses : Nat) : Nat :=
  valid + min 0xFFFF tiecut * 2 ^ 16 + epoch % 2 ^ 32 * 2 ^ 32 + min 0xFFFF exhausted * 2 ^ 64 + min 0xFFFF scanned * 2 ^ 80
    + min 0xFFFF misses * 2 ^ 96

/-- Table 08.4: a result entry. -/
def resultEntry (id dist rflags score key : Nat) : Bytes := le 8 id ++ le 2 dist ++ le 1 rflags ++ le 1 0 ++ le 4 score ++ le 8 key ++ le 8 0

/-- R378: the entries of a final list whose segment's key is reported. -/
def Dev.linkedOf (d : Dev) (q : Req) (s : Srch) (es : List PEnt) : List PEnt :=
  if s.keys then es.filter fun e => (q.bib.bind fun b => d.poolLink b e.idx).isSome else []

/-- The entries of the result buffer: the final list, then sentinels. With KEYS a global ID may carry its segment's key
(R40, R378). -/
def Dev.resultBytes (d : Dev) (q : Req) (s : Srch) (es : List PEnt) : Bytes :=
  let one (e : PEnt) : Bytes :=
    let c := if s.cand = 0 then e else (s.cands.find? fun c => c.idx == e.idx).getD e
    let key := if s.keys then (q.bib.bind fun b => d.poolLink b e.idx) else none
    resultEntry e.idx c.key (c.rflags / 2 * 2 + ofBool key.isSome) (if s.cand = 0 then 0 else e.key) (key.getD 0)
  (es.map one).flatten ++ (List.replicate (s.k - es.length) (resultEntry sentinelId sentinelDist 0 0 0)).flatten

/-- R266: a shard query is ended from outside. Its list, where it has its slots, closes: it is delivered unless the query is
to send nothing more (`mute`), and what its engines still offer comes late. A CANCEL counts as a budget does (Table 08.8). -/
def Dev.stopSq (d : Dev) (mute cancel : Bool) (n : Nat) : Dev :=
  match d.sq n with
  | none => d
  | some s =>
    if s.stage ≥ 4 then (if mute then d.updSq n fun s => { s with mute := true } else d)
    else
      let d := if cancel then d.bump .WLK_EXHAUST_COUNT 1 (if s.stage < 2 then d.wlkInst s.part else s.engine) else d
      match s.list.bind d.plist with
      | none => d.setIx fun x => { x with sqs := Tab.del x.sqs n }
      | some p =>
        if p.sel.isNone then (match s.list with | some l => d.dropList l | none => d).setIx fun x => { x with sqs := Tab.del x.sqs n }
        else
          let d := match s.list with | some l => d.closeList l 0 | none => d
          let d := d.lateOffers s.list s.part s.gotPassing
          d.updSq n fun s => { s with stage := 4, mute := mute, walkDone := true, sideDone := true, flying := [], exhausted := cancel
                                      status := ST_BUDGET_EXHAUSTED }

def SQ.isHere (s : SQ) (r i : Nat) : Bool := match s.origin with | .here r' i' => r' == r && i' == i | _ => false

/-- The shard query of a source that runs here is ended. -/
def Dev.stopHere (d : Dev) (mute cancel : Bool) (r i : Nat) : Dev :=
  (d.ix.sqs.filter fun p => p.2.isHere r i).foldl (fun d p => d.stopSq mute cancel p.1) d

/-- R266: what a search holds goes with it; lists that are open close. -/
def Dev.dropSrch (d : Dev) (r : Nat) : Dev :=
  let d := (d.ix.sqs.filter fun p => match p.2.origin with | .here r' _ => r' == r | _ => false).foldl (fun d p => d.stopSq true false p.1) d
  let ls := d.ix.lists.filter fun p => match p.2.owner with
    | .merge r' => r' == r
    | .final r' => r' == r
    | _ => false
  let d := ls.foldl (fun d p => d.endList p.1) d
  d.setIx fun x => { x with srch := Tab.del x.srch r }

/-- The completion of a search whose final list is known. -/
def Dev.searchEnd (d : Dev) (r : Nat) (es : List PEnt) (ties : Nat) : Dev :=
  match d.srch r, Tab.find d.reqs r with
  | some s, some q =>
    let d := if es.length < s.k then d.addFlag r FL_SHORT else d
    let d := if ties > 0 then d.addFlag r FL_TIE_CUT else d
    let d := if s.flash then d.addFlag r FL_FLASH else d
    let d := if s.hedged then d.addFlag r FL_HEDGED else d
    let q := (Tab.find d.reqs r).getD q
    let d := if q.fails.isEmpty then
        (d.dmaWrite r (u64 q.desc 0x30) (d.resultBytes q s es)).bump .POOL_LINKS_COUNT (d.linkedOf q s es).length
      else d
    let st := if s.exhausted > 0 then ST_BUDGET_EXHAUSTED else ST_OK
    (d.finish r st (searchResult es.length ties s.epoch s.exhausted s.scanned s.misses)).dropSrch r
  | _, _ => d

/-- R196: a search cancelled before any shard query exists: K sentinels, VALID 0, SHORT. -/
def Dev.searchVoid (d : Dev) (r : Nat) : Dev :=
  match d.srch r, Tab.find d.reqs r with
  | some s, some q =>
    let d := if s.k = 0 || s.k > 128 || u64 q.desc 0x30 % 64 != 0 then d else d.dmaWrite r (u64 q.desc 0x30) (d.resultBytes q s [])
    ((d.addFlag r FL_SHORT).finish r ST_BUDGET_EXHAUSTED (searchResult 0 0 s.epoch 0 0 0)).dropSrch r
  | _, _ => d

/-! ## Copies (R484 to R487) -/

/-- R484: the copies of a heat that may serve a shard query, best first. -/
def Dev.copiesOf (d : Dev) (heat : Nat) (not_ : List Nat) : List Nat :=
  let own := match (d.heatIdx heat).bind d.heat with | some h => h.state == 0 | none => false
  let all := if !d.mt.on then (if own then [d.mt.slot] else [])
    else match d.roleOf heat with
      | some r => r.serving.filter fun m => m != 0xFF && d.memberLive m && (m != d.mt.slot || own)
      | none => []
  let lvl (m : Nat) : Nat := 2 * (d.member m).slevel + ofBool (m != d.mt.slot)
  sortBy (fun a b => lvl a < lvl b) (all.filter fun m => !not_.contains m)

/-- The heat number of a source. -/
def Srch.heatOf (s : Srch) (i : Nat) : Nat := match s.sources[i]? with | some x => x.heat | none => 0

/-- SHARD_QUERY (Table 19.9). -/
def shardQueryBytes (q : Req) (s : Srch) (i : Nat) : Bytes :=
  let mode := if s.denied then (if s.mode % 4 = 0 then s.mode + 1 else s.mode) else s.mode
  le 4 (u32 q.desc 4) ++ le 2 q.gen ++ le 2 i ++ le 4 (s.epoch % 2 ^ 32) ++ le 2 (q.bib.getD 0xFFFF) ++ le 2 (s.heatOf i)
    ++ le 2 s.localK ++ le 2 s.beam ++ le 2 s.hops ++ le 2 s.miss ++ le 4 s.evals ++ le 2 s.est ++ le 1 s.seeds ++ le 1 mode
    ++ (le 2 1 ++ sub s.block 2 6 ++ le 4 s.code.length ++ le 4 0 ++ sub s.block 0x10 64) ++ s.code

/-- SHARD_CANCEL, and the head of SHARD_FAIL. -/
def shardRef (tag gen source epoch bib : Nat) : Bytes := le 4 tag ++ le 2 gen ++ le 2 source ++ le 4 (epoch % 2 ^ 32) ++ le 2 bib

/-- A shard query goes to a copy. -/
def Dev.sendShard (d : Dev) (r i slot : Nat) : Dev :=
  match d.srch r, Tab.find d.reqs r with
  | some s, some q =>
    let d := d.updSource r i fun x => { x with
      sent := x.sent ++ [slot], first := if x.sent.isEmpty then d.now else x.first, last := d.now }
    if slot = d.mt.slot then
      match d.heatIdx (s.heatOf i) with
      | none => d
      | some h => (d.newSq
          { origin := .here r i, heat := h, part := q.part, epoch := s.epoch, filter := sub s.block 0 0x50, code := s.code
            localK := s.localK, beam := s.beam, maxHops := s.hops, maxMiss := s.miss, maxEvals := s.evals, est := s.est
            seeds := s.seeds, mode := s.mode, denied := s.denied }).2
    else d.relaySend slot K_SHARD_QUERY (shardQueryBytes q s i)
  | _, _ => d

/-- R273: the merge closes when every source has a list or is given up. -/
def Dev.mergeDue (d : Dev) (r : Nat) : Dev :=
  match d.srch r with
  | none => d
  | some s =>
    match s.list with
    | none => d
    | some n =>
      if s.step != 2 || !(s.sources.all fun x => x.settled) then d
      else match d.plist n with
        | none => d
        | some l => if l.sel.isNone then d else d.closeList n (l.cutCount s.parts - l.tieCnt)

/-- A source is given up (R273, R487). -/
def Dev.giveUp (d : Dev) (r i : Nat) (noCopy : Bool) : Dev :=
  match d.srch r with
  | none => d
  | some s =>
    if (match s.sources[i]? with | some x => x.settled | none => true) then d
    else
      let d := if noCopy then d.bump .RLY_NOCOPY_COUNT else d
      ((d.updSource r i fun x => { x with settled := true }).updSrch r fun s => { s with exhausted := s.exhausted + 1 }).mergeDue r

/-- R486, R487: the second send of a source. -/
def Dev.hedge (d : Dev) (r i : Nat) : Dev :=
  match d.srch r with
  | none => d
  | some s =>
    match s.sources[i]? with
    | none => d
    | some x =>
      if x.settled || x.sent.length ≥ 2 then d
      else match d.copiesOf x.heat x.sent with
        | [] => d.giveUp r i true
        | m :: _ => (d.bump .RLY_HEDGES_COUNT).sendShard r i m

/-- R486: a copy has failed: the hedge goes at once, or the source is given up when every copy it was sent to has
failed. -/
def Dev.sourceFailed (d : Dev) (r i slot : Nat) : Dev :=
  match d.srch r with
  | none => d
  | some s =>
    match s.sources[i]? with
    | none => d
    | some x =>
      if x.settled || !x.sent.contains slot || x.failed.contains slot then d
      else
        let d := d.updSource r i fun x => { x with failed := slot :: x.failed }
        if x.sent.length < 2 then d.hedge r i
        else if x.sent.all fun m => m == slot || x.failed.contains m then d.giveUp r i false
        else d

/-- Step 2 of R38: once the merge has its slots, every source is sent. A search waits with its merge (R258), so that no list
comes to one without slots: DESIGN CHOICE (log 119). -/
def Dev.sendShards (d : Dev) (r : Nat) : Dev :=
  match d.srch r with
  | none => d
  | some s =>
    if s.step != 2 || s.begun || !((s.list.bind d.plist).any fun l => l.sel.isSome) then d
    else
      let d := d.updSrch r fun s => { s with begun := true }
      (List.range s.sources.length).foldl (fun d i =>
        if (s.sources[i]?.map (·.settled)).getD true then d
        else match d.copiesOf (s.heatOf i) [] with
          | [] => d.giveUp r i true
          | m :: _ => d.sendShard r i m) d

/-- Step 2 of R38: the merge opens. -/
def Dev.startSearch (d : Dev) (r : Nat) : Dev :=
  match d.srch r, Tab.find d.reqs r with
  | some s, some q =>
    let (n, d) := d.newList (.merge r) q.part (if s.cand = 0 then s.k else s.cand) 0 true
    (d.updSrch r fun s => { s with step := 2, list := some n }).sendShards r
  | _, _ => d

/-! ## Admission (R189 to R192) -/

/-- SEARCH or SEARCH_CODE is admitted. -/
def Dev.searchAdmit (d : Dev) (r : Nat) (q : Req) : Dev :=
  let s := { d.readSearch q with denied := d.scanDenied q }
  let d := d.setIx fun x => { x with srch := Tab.ins x.srch r s }
  if q.aux = [1] then d.searchVoid r
  else
    let part := d.part q.part
    let kind0 := match part with | some p => p.kind == 0 | none => false
    let tiles := match part with | some p => p.tiles != 0 | none => false
    let enc := u8 q.desc 0 = 0x10
    let fails := failIf (d.searchBad q s) ST_BAD_DESC ++ failIf d.meetFenced ST_FENCED
      ++ failIf (!d.ix.hosting || !kind0 || ((enc || s.cand != 0) && !tiles)) ST_REFUSED_RESOURCE
      ++ failIf (s.denied && (s.mode % 4 = 2 || bit s.mode 2)) ST_REFUSED_RESOURCE
      ++ (if kind0 then d.searchProgFails q s else [])
    match pickFail (fails.filter fun p => p.1 = ST_BAD_DESC) with
    | some (st, res) => (d.complete r st res).dropSrch r
    | none =>
      let d := d.updReq r fun q => { q with pre := fails }
      let d := d.dmaRead r 0 (u64 q.desc 0x28) (u32 q.desc 0x24)
      match Tab.find d.reqs r with
      | some q => if q.dmas = 0 then (d.finish r ST_OK).dropSrch r else d
      | none => d

/-- The query block has arrived (Table 08.3): its checks, then step 1. -/
def Dev.searchBlock (d : Dev) (r : Nat) (b : Bytes) : Dev :=
  match d.srch r, Tab.find d.reqs r with
  | some s, some q =>
    if !q.fails.isEmpty then (d.finish r ST_OK).dropSrch r
    else if q.aux = [1] then d.searchVoid r
    else
      let enc := u8 q.desc 0 = 0x10
      let n := u16 b 0
      let inlen := u32 b 8
      let at_ := ceilDiv (0x50 + 2 * n) 64 * 64
      let heats := (List.range n).map fun i => u16 b (0x50 + 2 * i)
      -- a heat number that no heat can have is a field out of its range: DESIGN CHOICE (log 139)
      let bad := n = 0 || n > 1024 || u32 q.desc 0x24 != at_ + ceilDiv inlen 64 * 64 || !filterOk b || !zeros b 0xC 4
        || dups heats || (heats.any fun h => h > 1023)
      let widths := heats.filterMap fun h => ((d.heatIdx h).bind d.heat).map fun h => codeBytes h.code
      let encP := d.prog q.part (u8 q.desc 0x38)
      let width := if enc then (match encP with | some p => p.outelems / 8 | none => 0) else inlen
      let form := (!enc && !([32, 64, 128, 256].contains inlen)) || (widths.any fun w => w != width)
        || (enc && (match encP with | some p => elemBytes p.infmt p.inelems != inlen | none => false))
        || (s.cand != 0 && match d.prog q.part (u8 q.desc 0x39) with
            | some p => (match (d.tableIdx p.ftable).bind d.table with
              | some t => p.q t != ceilDiv inlen 64 * 64
              | none => false)
            | none => false)
      let fails := if bad then [(ST_BAD_DESC, 0)]
        else failIf form ST_BAD_FORMAT ++ failIf (heats.any fun h => (d.roleOf h).isNone) ST_REFUSED_RESOURCE
          ++ (if q.pre.isEmpty then d.searchProgFails q s else q.pre)
      match pickFail fails with
      | some (st, res) => (d.complete r st res).dropSrch r
      | none =>
        let d := d.updSrch r fun s => { s with
          step := 1, block := b.take (at_ + inlen), code := if enc then [] else sub b at_ inlen
          sources := heats.map fun h => { heat := h } }
        if enc then
          d.awaitPass r q.part 1 (q.bib.getD 1024) (u8 q.desc 0x38) 1
        else d.startSearch r
  | _, _ => d

/-! ## The merge (R269 to R271) -/

/-- A partial list of a source arrives whole from a copy: it is accepted, or discarded. -/
def Dev.acceptList (d : Dev) (r i slot : Nat) (h : PartHdr) (es : List PEnt) : Dev :=
  match d.srch r with
  | none => d
  | some s =>
    let list := s.list.bind d.plist
    let sel := d.selOf list (match Tab.find d.reqs r with | some q => q.part | none => 0)
    match s.sources[i]?, s.list with
    | some x, some n =>
      if s.step != 2 || (list.any fun l => l.closed) || x.settled || h.mode != 0 || s.localK < h.count then d.bump .POD_LATE_COUNT 1 sel
      else
        let second := x.sent.length ≥ 2 && x.sent.getLast? = some slot
        let d := (es.foldl (fun d e => d.offer n { e with src := i }) d).updReq r fun q => { q with misses := q.misses + h.misses }
        let d := if second then d.bump .RLY_HEDGEWON_COUNT else d
        let lat := d.now - (if second then x.last else x.first)
        let g := Tab.get ({} : Hedge) d.ix.hedges x.heat
        let g := { g with lats := (g.lats ++ [lat]).drop (g.lats.length - 1023) }
        let d := d.setIx fun y => { y with hedges := Tab.ins y.hedges x.heat g }
        let d := (d.updSource r i fun x => { x with settled := true }).updSrch r fun s => { s with
          exhausted := s.exhausted + ofBool (h.status == ST_BUDGET_EXHAUSTED || bit h.lflags 2)
          scanned := s.scanned + ofBool (bit h.lflags 3), misses := s.misses + h.misses, flash := s.flash || bit h.lflags 4
          hedged := s.hedged || second, parts := if h.tieCnt > 0 then s.parts ++ [(h.tieKey, h.tieCnt)] else s.parts }
        let d := (x.sent.filter fun m => m != slot && !x.failed.contains m).foldl (fun d m =>
          if m = d.mt.slot then d.stopHere true false r i
          else match Tab.find d.reqs r with
            | some q => d.relaySend m K_SHARD_CANCEL (shardRef (u32 q.desc 4) q.gen i s.epoch (q.bib.getD 0xFFFF))
            | none => d) d
        d.mergeDue r
    | _, _ => d.bump .POD_LATE_COUNT 1 sel

/-- The header of the list that a shard query closed. -/
def SQ.partHdr (s : SQ) (l : PList) (tag gen source bib : Nat) : PartHdr :=
  let last := match l.kth with | some z => z.key | none => 0
  { tag := tag, gen := gen, source := source, epoch := s.epoch % 2 ^ 32, count := l.ents.length, status := s.status
    lflags := ofBool (l.ents.length < l.k) + 2 * ofBool (l.tieCnt > 0) + 4 * ofBool s.exhausted + 8 * ofBool s.scanned + 16 * ofBool s.flash
    tieKey := last, tieCnt := min 0xFFFF l.tieCnt, misses := min 0xFFFF s.misses, mode := l.mode, bib := bib }

/-- Local IDs become global ones (R165). -/
def globalEnts (heat : Nat) (l : PList) : List PEnt := l.ents.map fun e => { e with idx := globalId heat e.idx }

/-- A shard query's list is delivered (R266): to the merge here, over Relay, or to the build walk's copy. -/
def Dev.deliverShard (d : Dev) (n sqn : Nat) (l : PList) : Dev :=
  match d.sq sqn with
  | none => d.dropList n
  | some s =>
    let num := match d.heat s.heat with | some h => h.number | none => 0
    let d := (d.dropList n).setIx fun x => { x with sqs := Tab.del x.sqs sqn }
    if s.mute then d
    else match s.origin with
    | .here r i => d.acceptList r i d.mt.slot (s.partHdr l 0 0 i 0) (globalEnts num l)
    | .relay slot tag gen source bib =>
      d.relaySend slot K_PARTIAL_LIST (partBytes (s.partHdr l tag gen source bib) (globalEnts num l))
    | .build slot => d.buildDone sqn s.heat slot (some (l.ents.map (·.idx))) |>.stageGo s.heat

/-! ## Reranking and the final cut (R274, R303, R305) -/

/-- Step 4: the candidates' rows are gathered, and the reranker's step waits for a pass. -/
def Dev.startRerank (d : Dev) (r : Nat) : Dev :=
  match d.srch r, Tab.find d.reqs r with
  | some s, some q =>
    let slot := u8 q.desc 0x39
    match (d.prog q.part slot).filter fun g => !g.freeing with
    | none => (d.complete r ST_REFUSED_RESOURCE 4).dropSrch r
    | some g =>
      let d := d.updSrch r fun s => { s with step := 4 }
      let rows := match (d.tableIdx g.ftable).bind d.table with | some t => t.rows | none => 0
      let d := if s.cands.any fun e => rows ≤ e.idx then d.addFlag r FL_UNDEFINED else d
      let d := (d.awaitPass r q.part 2 (q.bib.getD 1024) slot s.cands.length).updRun r fun j => { j with held := false }
      let idx := (List.range s.cands.length).filterMap fun i => match s.cands[i]? with
        | some e => if e.idx < rows then some (i, e.idx) else none
        | none => none
      if idx.isEmpty then d.updRun r fun j => { j with held := true } else d.rerankRows r g.ftable idx
  | _, _ => d

/-- The final list's scores are offered once it has its slots. -/
def Dev.finalFill (d : Dev) (r : Nat) : Dev :=
  match d.srch r with
  | none => d
  | some s =>
    match s.list with
    | none => d
    | some n =>
      match d.plist n with
      | some l =>
        if s.step != 5 || l.sel.isNone || l.closed then d
        else
          let out := match d.runJob r with | some j => j.out | none => []
          let d := (List.range s.cands.length).foldl (fun d i => match s.cands[i]? with
            | some e => d.offer n { key := (Tab.get [] out i).headD 0, idx := e.idx, src := 0, rflags := e.rflags }
            | none => d) d
          d.closeList n 0
      | none => d

/-- R274: the list of cut size K that makes the final cut opens. -/
def Dev.openFinal (d : Dev) (r : Nat) : Dev :=
  match d.srch r, Tab.find d.reqs r with
  | some s, some q =>
    let (n, d) := d.newList (.final r) q.part s.k 5 false
    (d.updSrch r fun s => { s with step := 5, list := some n }).finalFill r
  | _, _ => d

/-- The merged list is delivered: the result, or the candidates of step 4. -/
def Dev.mergeDelivered (d : Dev) (r n : Nat) (l : PList) : Dev :=
  match d.srch r with
  | none => d.dropList n
  | some s =>
    let ties := l.cutCount s.parts
    let d := (d.dropList n).updSrch r fun s => { s with list := none }
    if s.cand = 0 then (d.updSrch r fun s => { s with step := 5 }).searchEnd r l.ents ties
    else if l.ents.isEmpty then d.openFinal r
    else (d.updSrch r fun s => { s with cands := l.ents }).startRerank r

/-- The reranker has run: step 5 opens the final list. -/
def Dev.rerankDone (d : Dev) (r : Nat) (j : RunJob) : Dev :=
  let gathered := match d.embJob r with | some e => e.misses | none => 0
  (d.updSrch r fun s => { s with flash := s.flash || j.misses + gathered > 0 }).openFinal r

/-- A search goes on where the pass or the rows that it waited for are there. -/
def Dev.searchOn (d : Dev) (r : Nat) : Dev :=
  match d.srch r with
  | none => d
  | some s =>
    if s.step = 1 then
      match d.runJob r with
      | some j =>
        if j.ready then
          let bits := (Tab.get [] j.out 0)
          let code := le (bits.length / 8) (bits.reverse.foldl (fun a b => 2 * a + b % 2) 0)
          ((d.updSrch r fun s => { s with code := code }).setInf fun x => { x with jobs := Tab.del x.jobs r }).startSearch r
        else d
      | none => d
    else if s.step = 4 then
      match d.runJob r with
      | none => d
      | some j =>
        if j.ready then d.rerankDone r j
        else if j.held then d
        else match d.embJob r with
          | some e =>
            if !e.ready then d
            else
              let d := d.updReq r fun q => { q with misses := q.misses + e.misses }
              match pickFail e.fails with
              | some (st, res) => (d.complete r st res).dropSrch r
              | none => d.updRun r fun j => { j with held := true }
          | none => d
    else if s.step = 5 then d.finalFill r
    else if s.step = 2 then (d.sendShards r).mergeDue r
    else d

/-- LIST_DELIVERY (R266): a closed list is delivered and its slots are free. -/
def Dev.deliverList (d : Dev) (n : Nat) : Dev :=
  match d.plist n with
  | none => d
  | some l =>
    if !l.closed then d
    else match l.owner with
      | .shard s => d.deliverShard n s l
      | .merge r => d.mergeDelivered r n l
      | .final r => (d.dropList n).searchEnd r l.ents l.tieCnt
      | .seg r row source => (d.dropList n).segDelivered r row source l
      | .row r row => (d.dropList n).rowDelivered r row l

/-! ## Failed shard queries, ended requests, fenced units -/

/-- R468: SHARD_FAIL. -/
def Dev.shardFail (d : Dev) (slot tag gen source epoch bib st : Nat) : Dev :=
  d.relaySend slot K_SHARD_FAIL (shardRef tag gen source epoch bib ++ le 1 st ++ le 1 0)

/-- Shard queries that ended without a list tell where they came from. -/
def Dev.reapFailed (d : Dev) : Dev :=
  (d.ix.sqs.filter fun p => p.2.stage == 5).foldl (fun d p =>
    let d := d.setIx fun x => { x with sqs := Tab.del x.sqs p.1 }
    match p.2.origin with
    | .here r i => d.sourceFailed r i d.mt.slot
    | .relay slot tag gen source bib => d.shardFail slot tag gen source p.2.epoch bib p.2.status
    | .build slot => (d.buildDone p.1 p.2.heat slot none).stageGo p.2.heat) d

/-- R509: a shard query that stands on a fenced unit ends its request with ST_FENCED; the shard query of another node's
request, or of a build walk, ends with that status. -/
def Dev.fenceSq (d : Dev) (n : Nat) : Dev :=
  match d.sq n with
  | none => d
  | some q => match q.origin with
    | .here r _ => (d.complete r ST_FENCED).dropSrch r
    | _ => if q.stage = 4 then d.updSq n fun q => { q with stage := 5, status := ST_FENCED, list := none } else d.failSq n ST_FENCED

/-- R509: work that stands on a fenced Walk engine or selector, or that finds every one of its partition fenced, ends with
ST_FENCED. -/
def Dev.reapFenced (d : Dev) : Dev :=
  let noWalk (p : Nat) : Bool := (d.walksOf p).all fun w => d.isFenced 0x20 w
  let noSel (p : Nat) : Bool := (d.selsOf p).all fun s => d.isFenced 0x22 s
  let onFenced (l : PList) : Bool := match l.sel with | some s => d.isFenced 0x22 s | none => noSel l.part
  let dead := d.ix.lists.filter fun p => onFenced p.2
  let d := (d.ix.sqs.filter fun p => (p.2.stage == 2 && !p.2.walkDone && d.isFenced 0x20 p.2.engine)
      || (p.2.stage == 1 && noWalk p.2.part && p.2.mode % 4 != 2)).foldl (fun d p => d.fenceSq p.1) d
  dead.foldl (fun d p => match p.2.owner with
    | .shard s => (d.fenceSq s).dropList p.1
    | .merge r => ((d.complete r ST_FENCED).dropSrch r).dropList p.1
    | .final r => ((d.complete r ST_FENCED).dropSrch r).dropList p.1
    | .seg r _ _ => (d.complete r ST_FENCED).dropList p.1
    | .row r _ => (d.complete r ST_FENCED).dropList p.1) d

/-- R509: one wait for a flash channel that is fenced ends: its requests, and those of other nodes, with ST_FENCED. -/
def Dev.fenceWait (d : Dev) (w : Wait) : Dev :=
  match w with
  | .req r _ => d.complete r ST_FENCED
  | .group g =>
    let qs : List Nat := match Tab.find d.ix.groups g with | some x => x.reqs.map fun q => q.1 | none => []
    qs.foldl Dev.fenceSq d
  | .scan n e u =>
    let qs : List Nat := match d.batch n with | some b => Tab.get [] b.noticed (unitKey e u) | none => []
    (qs.foldl Dev.fenceSq d).unitDone n e u
  | .weight p _ _ => d.stopPass p ST_FENCED
  | .gather g =>
    match d.gather g with
    | none => d
    | some x =>
      let d := d.setEm fun e => { e with gathers := Tab.del e.gathers g }
      match x.who with
      | .req r => d.complete r ST_FENCED
      | .relay slot desc bib gen => d.embSend slot desc bib gen 1 ST_FENCED 0 0 []
  | .pool b =>
    (d.pl.ops.filter fun p => p.2.wait.contains b).foldl (fun d p =>
      (d.setPl fun x => { x with ops := Tab.del x.ops p.1 }).poolAnswer p.2 ST_FENCED 0 []) (d.updBlock b fun x => { x with place := 2 })
  | .copy (.rewrite _ (some r)) => d.complete r ST_FENCED
  | .copy _ => d
  | .internal => d

/-- R509: what waits on fenced flash channels, or on the operation tracker once it is fenced, ends, and so does the work of a PF0 admin window whose ADMIN block is fenced. -/
def Dev.reapUnits (d : Dev) : Dev :=
  let d := d.endAll (fun q => winIsPf0 q.win && d.isFenced 7 (q.win - 16384)) ST_FENCED
  let d := if d.isFenced 0x24 0 then (Tab.keys d.fl.jobs).foldl (fun d r => if d.liveJob r then d.complete r ST_FENCED else d) d else d
  let on (o : FOp) : Bool := o.kind == 0 && !o.waiters.isEmpty && (d.isFenced 0x41 (chanOf o.target) || d.isFenced 0x24 0)
  let ws := ((Tab.vals d.fl.ops ++ d.fl.stalled).filter on).flatMap (·.waiters)
  let clear (o : FOp) : FOp := if on o then { o with waiters := [] } else o
  ws.foldl Dev.fenceWait { d with fl := { d.fl with ops := Tab.mapV d.fl.ops fun _ o => clear o, stalled := d.fl.stalled.map clear } }

/-- What ended requests leave: searches, passes, rows of lists. -/
def Dev.reapEnded (d : Dev) : Dev :=
  let live (r : Nat) : Bool := match Tab.find d.reqs r with | some q => q.live | none => false
  let d := (d.ix.srch.filter fun p => !live p.1).foldl (fun d p => d.dropSrch p.1) d
  let d := (d.ix.lists.filter fun p => match p.2.owner with | .row r _ => !live r | .seg r _ _ => !live r | _ => false).foldl (fun d p => d.endList p.1) d
  d.reapPasses

/-- Everything that goes on by itself once nothing external is awaited: ended work is cleared, failures are told,
searches go on. Failures can hedge to this node, so it runs twice. -/
def Dev.settleSearch (d : Dev) : Dev :=
  let once (d : Dev) : Dev :=
    let d := d.reapEnded
    let d := if d.fenced.isEmpty then d else d.reapUnits.quitFenced.reapFenced
    let d := d.reapFailed
    (Tab.keys d.ix.srch).foldl Dev.searchOn d
  once (once d)

/-- R276: an uncorrected error in a selector's store ends one of its lists' queries; which one is free (log 59). -/
def Dev.listError (d : Dev) (sel : Nat) : Dev :=
  let ls := d.ix.lists.filter fun p => p.2.sel == some sel
  if ls.isEmpty then d
  else
    let (k, d) := d.draw
    match ls[Config.errorList k % ls.length]? with
    | none => d
    | some (n, l) =>
      match l.owner with
      | .shard s => (match d.sq s with
        | some q => if q.stage = 4 then d.updSq s fun q => { q with stage := 5, status := ST_INTERNAL, list := none } else d.failSq s ST_INTERNAL
        | none => d).dropList n
      | .merge r => (d.complete r ST_INTERNAL).dropSrch r
      | .final r => (d.complete r ST_INTERNAL).dropSrch r
      | .seg r _ _ => (d.complete r ST_INTERNAL).dropList n
      | .row r _ => (d.complete r ST_INTERNAL).dropList n

/-! ## CANCEL (R196) -/

/-- CANCEL at landing: how many requests it cancels. Their shard queries end; what they had found so far the merge discards as it
comes. One whose query block is still being read ends once that read has (R160). -/
def Dev.cancelSearch (d : Dev) (bib : Option Nat) (tag : Nat) : Nat × Dev :=
  let mine := d.reqs.filter fun p => !p.2.ended && p.2.bib == bib && (u8 p.2.desc 0 == 0x10 || u8 p.2.desc 0 == 0x11)
    && u32 p.2.desc 4 == tag && p.2.aux != [1]
    && (p.2.waiting || match d.srch p.1 with
      | some s => s.step ≤ 2
      | none => false)
  let d := mine.foldl (fun d p =>
    let d := d.updReq p.1 fun q => { q with aux := [1] }
    if p.2.waiting then d
    else match d.srch p.1 with
      | none => d
      | some s =>
        if s.step = 0 && p.2.dmas > 0 then d
        else if s.step < 2 then
          (d.setInf fun x => { x with queue := Tab.mapV x.queue fun _ l => l.filter fun w => w.r != p.1 }).searchVoid p.1
        else
          let d := (List.range s.sources.length).foldl (fun d i => match s.sources[i]? with
            | none => d
            | some x =>
              if x.settled then d
              else
                let d := x.sent.foldl (fun d m =>
                  if m = d.mt.slot then d.stopHere false true p.1 i
                  else d.relaySend m K_SHARD_CANCEL (shardRef tag p.2.gen i s.epoch (bib.getD 0xFFFF))) d
                (d.updSource p.1 i fun x => { x with settled := true }).updSrch p.1 fun s => { s with exhausted := s.exhausted + 1 }) d
          (d.updSrch p.1 fun s => { s with cancelled := true }).mergeDue p.1) d
  (mine.length, d)

/-! ## Shard queries over Relay (R466, R468, R486) -/

/-- SHARD_QUERY at a copy. Its epoch is placed against the copy's floor (R181). A code of another width than the heat's is refused (R164). The query takes none of the node's query
contexts: DESIGN CHOICE (log 121). -/
def Dev.onShardQuery (d : Dev) (src : Nat) (b : Bytes) : Dev :=
  let tag := u32 b 0
  let gen := u16 b 4
  let source := u16 b 6
  let bib := u16 b 0xC
  let epoch (h : Heat) : Nat := epochFrom (d.floorOf h) (u32 b 8)
  let refuse (st : Nat) : Dev := d.shardFail src tag gen source (u32 b 8) bib st
  match (d.heatIdx (u16 b 0xE)), (d.heatIdx (u16 b 0xE)).bind d.heat with
  | some i, some h =>
    if !d.inMeet || d.nodeFenced || h.state != 0 || d.loader = 4 then refuse ST_FENCED
    else if u32 b 0x28 != codeBytes h.code || b.length != 0x70 + codeBytes h.code then refuse ST_BAD_FORMAT
    else (d.newSq
      { origin := .relay src tag gen source bib, heat := i, part := d.mt.servePart, epoch := epoch h, filter := sub b 0x20 80
        code := sub b 0x70 (codeBytes h.code), localK := u16 b 0x10, beam := u16 b 0x12, maxHops := u16 b 0x14, maxMiss := u16 b 0x16
        maxEvals := u32 b 0x18, est := u16 b 0x1C, seeds := u8 b 0x1E, mode := u8 b 0x1F % 8 }).2
  | _, _ => refuse ST_FENCED

/-- The open search that a frame's TAG, GEN, EPOCH and BIB name. -/
def Dev.findSrch (d : Dev) (tag gen epoch bib : Nat) : Option Nat :=
  (d.ix.srch.find? fun p => match Tab.find d.reqs p.1 with
    | some q => q.live && u32 q.desc 4 == tag && q.gen == gen && q.bib == some bib && p.2.epoch % 2 ^ 32 == epoch
    | none => false).map (·.1)

/-- PARTIAL_LIST at the admitting node. -/
def Dev.onPartialList (d : Dev) (src : Nat) (b : Bytes) : Dev :=
  let h := readPartHdr b
  let es := readPartEnts b h.count h.source
  match d.findSrch h.tag h.gen h.epoch h.bib with
  | some r => d.acceptList r h.source src h es
  | none =>
    match (if h.epoch = 0 then d.findRow h.tag h.gen h.bib h.source else none) with
    | some (r, row) => d.acceptSeg r row h.source h.tieKey h.tieCnt h.count h.mode es
    | none => d.bump .POD_LATE_COUNT 1 (d.selOf none (d.bib h.bib).part)

/-- SHARD_FAIL at the admitting node. A copy that refuses the code's width ends the search (R164, Table 08.3). -/
def Dev.onShardFail (d : Dev) (src : Nat) (b : Bytes) : Dev :=
  match d.findSrch (u32 b 0) (u16 b 4) (u32 b 8) (u16 b 0xC) with
  | none => d
  | some r =>
    if u8 b 0xE = ST_BAD_FORMAT then (d.complete r ST_BAD_FORMAT).dropSrch r
    else d.sourceFailed r (u16 b 6) src

/-- SHARD_CANCEL at a copy: the query ends and sends nothing more. It counts as one ended by CANCEL, whatever made its node
send the frame: DESIGN CHOICE (log 120). -/
def Dev.onShardCancel (d : Dev) (src : Nat) (b : Bytes) : Dev :=
  let hit (s : SQ) : Bool := match s.origin with
    | .relay slot tag gen source bib => slot == src && tag == u32 b 0 && gen == u16 b 4 && source == u16 b 6 && bib == u16 b 0xC
        && s.epoch % 2 ^ 32 == u32 b 8
    | _ => false
  (d.ix.sqs.filter fun p => hit p.2).foldl (fun d p => d.stopSq true true p.1) d

/-- R473, R486: every shard query outstanding at a slot has failed. -/
def Dev.failSlot (d : Dev) (slot : Nat) : Dev :=
  d.ix.srch.foldl (fun d p => (List.range p.2.sources.length).foldl (fun d i => d.sourceFailed p.1 i slot) d) d

/-- R486: shard queries outstanding at copies that ROLES no longer lists as SERVING have failed. -/
def Dev.failDown (d : Dev) : Dev :=
  d.ix.srch.foldl (fun d p => (List.range p.2.sources.length).foldl (fun d i => match p.2.sources[i]? with
    | none => d
    | some x =>
      let ok := match d.roleOf x.heat with | some r => r.serving | none => []
      (x.sent.filter fun m => !ok.contains m).foldl (fun d m => d.sourceFailed p.1 i m) d) d) d

/-! ## The hedge threshold (R485, R486) -/

/-- A heat's threshold on this node, ns. -/
def Dev.threshold (d : Dev) (heat : Nat) : Nat :=
  let t := (Tab.get ({} : Hedge) d.ix.hedges heat).threshold
  if t = 0 then d.mt.hedgeInit * 1000 else t

/-- HEDGE_RECOMPUTE: the 95th percentile of the last 1,024 latencies, as the 973rd smallest. -/
def Dev.hedgeRecompute (d : Dev) : Dev :=
  if d.now % 1000000 != 0 then d
  else d.setIx fun x => { x with hedges := Tab.mapV x.hedges fun _ g =>
    if g.lats.length < 1024 then g
    else { g with threshold := min (d.mt.hedgeMax * 1000) ((sortBy (· < ·) g.lats).getD 972 0 + d.mt.margin * 1000) } }

/-- HEDGE_THRESHOLD. -/
def Dev.hedgeDue (d : Dev) (r i : Nat) : Dev :=
  match d.srch r with
  | none => d
  | some s => match s.sources[i]? with
    | none => d
    | some x => if s.step = 2 && !x.settled && x.sent.length = 1 && x.first + d.threshold x.heat ≤ d.now then d.hedge r i else d

/-- SOURCE_GIVE_UP: 4 × the threshold since the first send. -/
def Dev.giveUpDue (d : Dev) (r i : Nat) : Dev :=
  match d.srch r with
  | none => d
  | some s => match s.sources[i]? with
    | none => d
    | some x => if s.step = 2 && !x.settled && !x.sent.isEmpty && x.first + 4 * d.threshold x.heat ≤ d.now then d.giveUp r i false else d

end Sys2Proof.Machine
end

