-- ==== Sys2Proof/Machine/Meet.lean ====
section
/-!
DEFINITION. The meet (spec file 19): heartbeats and beacons, membership, roles, takeover, the baton, restarts, planned
handoff, interrupted time, the meet operations.
-/
namespace Sys2Proof.Machine

/-- The instant of R472 that a frame arriving now counts for, if it arrives in time. -/
def Dev.instant (d : Dev) : Option Nat := if d.now % 50000 < 25000 then some (d.now / 50000) else none

/-- R473: the heartbeats or beacons for the four instants after the last that counted have all missed. -/
def missed4 (inst now : Nat) : Bool := 50000 * (inst + 4) + 25000 ≤ now

/-- The epoch of a 32-bit field on this node's clock. -/
def e32 (e : Nat) : Nat := e % 2 ^ 32

/-! ## Heartbeats and beacons (R472) -/

/-- LINKS: the lane groups up, in ADDR order. -/
def Dev.linksUp (d : Dev) : Nat := sum ((List.range 4).map fun i => ofBool (bit (d.rg .ETH_LINK_UP (i / 2)) (i % 2)) * 2 ^ i)

/-- STATE of HEARTBEAT and JOIN. -/
def Dev.hbState (d : Dev) : Nat :=
  d.rg .PTP_STAT_LOCKED + 2 * d.rg .PTP_STAT_HOLDOVER + 4 * ofBool (d.loader = 3 || d.loader = 4) + 8 * ofBool (d.mt.fenced || d.nodeFenced)

/-- What a heartbeat says of a copy's state: 0 SERVING, 1 CATCHING_UP, 2 DOWN (R481, R482). -/
def Dev.copyState (d : Dev) (h : Heat) : Nat :=
  if h.state = 2 || h.state = 3 then 2 else if !d.synced || h.state != 0 then 1 else 0

def Dev.ownCopies (d : Dev) : List CopyRec :=
  (Tab.vals d.ix.heats).map fun h => { heat := h.number, state := d.copyState h, role := h.role, applied := h.applied }

/-- Table 19.5, HEARTBEAT. -/
def Dev.heartbeatBytes (d : Dev) (level : Nat) : Bytes :=
  let cs := d.ownCopies
  le 1 d.hbState ++ le 1 (level % 16 + min 15 d.em.level * 16) ++ le 1 cs.length ++ le 1 d.linksUp ++ fit 8 d.mt.digest ++ le 4 0
    ++ (cs.map fun c => le 2 c.heat ++ le 1 c.state ++ le 1 c.role ++ le 4 (e32 c.applied)).flatten

/-- Table 19.5, BEACON. -/
def Dev.beaconBytes (d : Dev) : Bytes :=
  le 1 d.mt.slot ++ le 1 d.linksUp ++ le 2 0 ++ le 4 d.mt.memSeq ++ le 4 d.mt.roleSeq ++ le 4 0

/-! ## Tables that the holder keeps (R472, R476) -/

/-- Table 19.9, MEMBERS. -/
def Dev.membersBytes (d : Dev) : Bytes :=
  le 4 d.mt.memSeq ++ le 2 d.mt.members.length ++ le 2 0
    ++ (d.mt.members.map fun p => le 4 (p.1 + p.2.state * 2 ^ 8 + p.2.slevel % 16 * 2 ^ 12 + p.2.elevel % 16 * 2 ^ 16)).flatten

/-- Table 19.9, ROLES. -/
def Dev.rolesBytes (d : Dev) : Bytes :=
  le 4 d.mt.roleSeq ++ le 2 d.mt.roles.length ++ le 2 0
    ++ (d.mt.roles.map fun p => le 2 p.1 ++ le 1 (p.2.primary.getD 0xFF) ++ le 1 (ofBool (p.2.busy || d.mt.moves.any fun m => m.heat == p.1 && !m.told))
      ++ ((List.range 4).map fun i => le 1 (p.2.serving.getD i 0xFF)).flatten).flatten

/-- The holder sends MEMBERS to every slot. -/
def Dev.sendMembers (d : Dev) : Dev :=
  let d := d.setMt fun x => { x with memSeq := (x.memSeq + 1) % 2 ^ 32 }
  d.relayAll K_MEMBERS d.membersBytes fun _ => true

/-- R481, R483: what a primary does where ROLES names it no longer, or names it again. -/
def Dev.takeRole (d : Dev) (i : Nat) (primary : Option Nat) : Dev :=
  d.updHeat i fun h =>
    if h.handoff.isSome then h
    else if primary = some d.mt.slot then { h with role := 0 }
    else { h with role := 1 }

/-- ROLES is installed on this node (R476, R477, R486). -/
def Dev.rolesInstalled (d : Dev) : Dev :=
  let d := d.ix.heats.foldl (fun d p => match Tab.find d.mt.roles p.2.number with
    | some r => d.takeRole p.1 r.primary
    | none => d) d
  let done (d : Dev) (r : Nat) : Option Nat := match Tab.find d.reqs r with
    | some q => if u8 q.desc 0 = 0x6D then (match Tab.find d.mt.roles (u16 q.desc 0x10) with
        | some x => if !x.busy && x.primary = some (u8 q.desc 0x12) then some r else none
        | none => none) else none
    | none => none
  let rs := d.mt.waits.filterMap (done d)
  let d := rs.foldl (fun d r => let (k, d) := d.draw; d.complete r ST_OK (e32 (Config.roleEpoch k))) d
  let d := d.setMt fun x => { x with waits := x.waits.filter fun r => !rs.contains r }
  d.afterRoles.failDown

/-- The holder's roles have changed: ROLES goes to every member and stands here. -/
def Dev.sendRoles (d : Dev) : Dev :=
  let d := d.setMt fun x => { x with roleSeq := (x.roleSeq + 1) % 2 ^ 32 }
  (d.relayAll K_ROLES d.rolesBytes fun m => m.state == 0).rolesInstalled

/-- The copies of a heat in the order of COPIES, as the holder knows it. -/
def Dev.orderOf (d : Dev) (heat : Nat) : List Nat :=
  match (d.heatIdx heat).bind d.heat with
  | some h => h.copies.filter (· != 0xFF)
  | none => Tab.get [] d.mt.order heat

/-- The latest word of a slot on its copy of a heat. -/
def Dev.copyRec (d : Dev) (m heat : Nat) : Option CopyRec := (d.member m).copies.find? fun c => c.heat == heat

/-- R476, R493: the LIVE slots that hold a heat SERVING and are not reloading. -/
def Dev.servingOf (d : Dev) (heat : Nat) : List Nat :=
  (d.orderOf heat).filter fun m => d.memberLive m && !bit (d.member m).hbState 2
    && (match d.copyRec m heat with | some c => c.state == 0 | none => false)

/-! ## Takeover (R476 to R478) -/

/-- The successor's steps 1 to 4 of R476. -/
def Dev.takeOver (d : Dev) (heat : Nat) : Dev :=
  match d.heatIdx heat with
  | none => d
  | some i =>
    match d.heat i with
    | none => d
    | some h =>
      let seenAt (e : Nat) : Bool := d.mt.members.any fun p => p.2.state == 0 && p.2.copies.any fun c => c.heat == heat && e ≤ c.applied
      let keep := (sortBy (fun (a b : Group) => a.epoch < b.epoch) h.recv).filter fun g => h.applied < g.epoch && seenAt g.epoch
      let d := keep.foldl (fun d g =>
        let d := d.updHeat i fun h => h.apply g.epoch (d.floorOf h) (d.batchBefore i) g.upds
        let d := d.journalApplied i h g.epoch g.upds
        let (acks, d) := d.sendCommit h g.epoch false
        d.updHeat i fun h => { h with dones := h.dones ++ [{ epoch := g.epoch, upds := g.upds, acks := acks }] }) d
      let cur := d.curEpoch
      let d := d.updHeat i fun h => { h with recv := [], role := 0, handoff := none, opens := [] }
      let d := match d.heat i with
        | some h => if h.applied < cur then
            (d.updHeat i fun h => h.apply cur (d.floorOf h) (d.batchBefore i) []).sendCommit h cur true |>.2 else d
        | none => d
      let d := (((d.excuse none).bump .RLY_TAKEOVER_COUNT).settleDones i).releaseHeld i
      match Tab.find d.mt.members d.mt.slot with
      | some _ => d.updMember d.mt.slot fun m => { m with copies := d.ownCopies }
      | none => d

/-- Table 19.9, TAKEOVER. -/
def takeoverBytes (heat from_ dest reason tl k : Nat) : Bytes :=
  le 2 heat ++ le 1 from_ ++ le 1 dest ++ le 1 reason ++ le 3 0 ++ le 8 tl ++ le 4 (e32 k)

/-- R476: the holder moves a heat whose primary is lost or down to its successor, the first of bytes 1 to 3 of COPIES that is
LIVE and SERVING; without one the heat has no primary. -/
def Dev.moveHeat (d : Dev) (heat from_ tl reason : Nat) : Dev :=
  let succ := (((d.orderOf heat).drop 1).filter fun m => m != from_ && (d.servingOf heat).contains m).head?
  let put (d : Dev) (r : Role) : Dev := d.setMt fun x => { x with roles := Tab.ins x.roles heat r }
  match succ with
  | none => put d { primary := none, busy := false, serving := d.servingOf heat }
  | some s =>
    let d := put d { primary := some from_, busy := true, serving := d.servingOf heat }
    let d := d.setMt fun x => { x with moves :=
      (x.moves.filter fun m => m.heat != heat) ++ [{ heat := heat, from_ := from_, dest := s, tl := tl, k := none }] }
    if s = d.mt.slot then d.takeOver heat else d.relaySend s K_TAKEOVER (takeoverBytes heat from_ s reason tl 0)

/-- R478, R483: moves whose new primary has reported itself: ROLES names it. -/
def Dev.reportMoves (d : Dev) : Dev :=
  let up := d.mt.moves.filter fun m => !m.told && (match d.copyRec m.dest m.heat with | some c => c.role == 0 | none => false)
  if up.isEmpty then d
  else
    let d := if up.any fun m => m.k.isNone then d.excuse none else d
    let d := up.foldl (fun d m =>
      d.setMt fun x => { x with
        roles := Tab.ins x.roles m.heat { primary := some m.dest, busy := false, serving := d.servingOf m.heat }
        moves := x.moves.map fun y => if y.heat = m.heat then { y with told := true } else y }) d
    d.sendRoles

/-- R478, Table 19.7: a move ends once every LIVE member has acknowledged ROLES. -/
def Dev.settleMoves (d : Dev) : Dev :=
  let busy := d.mt.peers.any fun p => d.memberLive p.1 && p.2.unacked.any fun u => u.kind == K_ROLES
  if busy then d
  else
    let (gone, rest) := d.mt.moves.partition fun m => m.told
    gone.foldl (fun d m =>
      let d := match m.k with
        | none => d.setRg .RLY_LASTTO_US ((d.now - m.tl) / 1000)
        | some _ => d
      m.reqs.foldl (fun d r => d.complete r ST_OK (e32 (m.k.getD 0))) d) (d.setMt fun x => { x with moves := rest })

/-! ## Losses (R473) -/

/-- What every member does when a slot is lost: a meet failover, which excuses what is in flight (R99). -/
def Dev.slotLost (d : Dev) (slot tl : Nat) : Dev :=
  if (d.member slot).state = 1 || !Tab.has d.mt.members slot then d
  else
    let d := (d.excuse none).updMember slot fun m => { m with state := 1, lostAt := tl }
    let d := d.setPeer slot { d.peer slot with unacked := [] }
    let d := d.setMt fun x => { x with roles := Tab.mapV x.roles fun _ r => if r.primary = some slot then { r with busy := true } else r }
    let d := ((d.failSlot slot).embLost slot tl).poolLost slot
    (Tab.keys d.ix.heats).foldl Dev.settleDones d

/-- R473: the holder declares a slot lost. `tell` false where a BATON frame carries the declaration (R479). -/
def Dev.declareLost (d : Dev) (slot tl cause : Nat) (tell : Bool) : Dev :=
  if !d.memberLive slot then d
  else
    let d := (d.bump .RLY_LOST_COUNT).slotLost slot tl
    let d := if tell then d.relayAll K_LOST (le 1 slot ++ le 1 cause ++ le 6 0 ++ le 8 tl) fun m => m.state == 0 else d
    let hs := (d.mt.roles.filter fun p => p.2.primary == some slot).map (·.1)
    let ms := (d.mt.moves.filter fun m => m.dest == slot && !m.told).map (·.heat)
    let d := (hs ++ ms).eraseDups.foldl (fun d h => d.moveHeat h slot tl 0) d
    let d := d.setMt fun x => { x with roles := Tab.mapV x.roles fun h r => { r with serving := d.servingOf h } }
    d.sendRoles.sendMembers.reportMoves

/-- What a heartbeat, or this node's own state at an instant, tells the holder or a standby. -/
def Dev.takeHeartbeat (d : Dev) (m : Nat) (b : Bytes) : Dev :=
  let cs := (List.range (min 16 (u8 b 2))).map fun i =>
    let o := 0x10 + 8 * i
    ({ heat := u16 b o, state := u8 b (o + 2), role := u8 b (o + 3), applied := d.wholeEpoch (u32 b (o + 4)) } : CopyRec)
  let was := d.member m
  let inst := d.instant
  let d := d.updMember m fun x => { x with
    hbState := u8 b 0, slevel := u8 b 1 % 16, elevel := u8 b 1 / 16, links := u8 b 3 % 16, hbAt := d.now, copies := cs
    hbInst := if inst.isSome then inst else x.hbInst }
  if !d.isHolder || was.state != 0 then d
  else if bit (u8 b 0) 3 then
    if m = d.mt.slot then d else d.declareLost m d.now 1 true
  else
    -- a primary that reports DOWN, or CATCHING_UP on an unsynchronised node (R476, R482)
    let down := cs.filter fun c => c.state != 0 && (match Tab.find d.mt.roles c.heat with
      | some r => r.primary == some m && !r.busy
      | none => false)
    let d := down.foldl (fun d c => d.moveHeat c.heat m d.now 1) d
    let fresh := cs.any fun c => match Tab.find d.mt.roles c.heat with
      | some r => r.serving != d.servingOf c.heat
      | none => false
    let d := d.setMt fun x => { x with roles := Tab.mapV x.roles fun h r => { r with serving := d.servingOf h } }
    let d := if fresh || !down.isEmpty then d.sendRoles else d
    d.reportMoves

/-! ## Self-fence (R474) -/

/-- Opcodes whose requests need the meet (R474, R492). -/
def needsMeet (op : Nat) : Bool := op = 0x10 || op = 0x11 || op = 0x18 || op = 0x19 || (0x30 ≤ op && op ≤ 0x33) || (0x6C ≤ op && op ≤ 0x6F)

/-- Requests that need the meet, pool operations on other nodes among them, end with ST_FENCED; its primaries commit nothing. -/
def Dev.endMeetWork (d : Dev) : Dev :=
  let d := { d with ix := { d.ix with sentUpd := [], held := [] } }
  let d := d.ix.heats.foldl (fun d p => d.updHeat p.1 fun h => { h with opens := [], early := [], closed := [], dones := [] }) d
  let far (r : Nat) : Bool := match Tab.find d.pl.jobs r with | some j => keyHome j.key != d.mt.slot | none => false
  let d := (d.reqs.filter fun p => p.2.live && far p.1).foldl (fun d p => d.complete p.1 ST_FENCED) d
  d.endAll (fun q => !q.waiting && needsMeet (u8 q.desc 0)) ST_FENCED

/-- A member fences itself: a fault, under which the node is fenced (R474, R510). -/
def Dev.selfFenceNow (d : Dev) : Dev :=
  let d := d.setMt fun x => { x with fenced := true, run := none, moves := [] }
  let d := d.updMember d.mt.slot fun m => { m with state := 3 }
  (d.report SRC_MEET_FENCE 0x53 0 none (d.mt.restart % 2 ^ 32) 0).endMeetWork

/-- R467, R473, R492: the node turns OUTSIDE, or learns that it is LOST (1). -/
def Dev.goOutside (d : Dev) (st : Nat := 2) : Dev :=
  if !d.mt.member then d
  else
    let d := d.setMt fun x => { x with member := false, run := none, moves := [], holder := if x.holder = some x.slot then none else x.holder }
    (d.updMember d.mt.slot fun m => { m with state := st }).endMeetWork

/-! ## The baton (R479, R480) -/

/-- Table 19.9, BATON. -/
def batonBytes (n prev reason tl : Nat) : Bytes := le 4 n ++ le 1 prev ++ le 1 reason ++ le 2 0 ++ le 8 tl

/-- The node takes the baton with a number and tells every slot. -/
def Dev.takeBaton (d : Dev) (n prev reason tl : Nat) : Dev :=
  let d := d.setMt fun x => { x with holder := some x.slot, baton := n % 2 ^ 32 }
  d.relayAll K_BATON (batonBytes n prev reason tl) fun _ => true

/-- The holder hands the baton over: BATON goes to the new holder, which takes it and tells every slot (log 62). -/
def Dev.passBaton (d : Dev) (dest reason : Nat) : Dev :=
  let n := (d.mt.baton + 1) % 2 ^ 32
  if dest = d.mt.slot then (d.takeBaton n d.mt.slot reason 0).setMt fun x => { x with batonTo := none }
  else
    let d := d.relaySend dest K_BATON (batonBytes n d.mt.slot reason 0)
    d.setMt fun x => { x with holder := some dest, baton := n, moves := [], batonTo := none, beaconAt := d.now, heardAt := d.now
                              beaconInst := d.now / 50000 }

/-- BATON_MOVE requests that have what they asked for. -/
def Dev.batonWaits (d : Dev) : Dev :=
  let done (r : Nat) : Bool := match Tab.find d.reqs r with
    | some q => u8 q.desc 0 == 0x6F && d.mt.holder == some (u8 q.desc 0x10)
    | none => false
  let rs := d.mt.waits.filter done
  rs.foldl (fun d r => d.complete r ST_OK d.mt.baton) (d.setMt fun x => { x with waits := x.waits.filter fun r => !done r })

/-- A holder that has handed the baton to itself has what BATON_MOVE asks for. -/
def Dev.batonSelf (d : Dev) : Dev := if d.isHolder then d.batonWaits else d

/-- The standby that BATON_MOVE named is no longer LIVE at the beacon instant: its request is refused as one that named none:
DESIGN CHOICE (log 156). -/
def Dev.batonLost (d : Dev) : Dev :=
  let mine (r : Nat) : Bool := match Tab.find d.reqs r with
    | some q => u8 q.desc 0 == 0x6F && some (u8 q.desc 0x10) == d.mt.batonTo
    | none => false
  let rs := d.mt.waits.filter mine
  rs.foldl (fun d r => d.complete r ST_REFUSED_RESOURCE 3)
    (d.setMt fun x => { x with batonTo := none, waits := x.waits.filter fun r => !rs.contains r })

/-- BATON at a node (R479, R480). -/
def Dev.onBaton (d : Dev) (src : Nat) (b : Bytes) : Dev :=
  let n := u32 b 0
  let prev := u8 b 4
  let reason := u8 b 5
  if !newer 32 n d.mt.baton then (if n = d.mt.baton && d.mt.holder == some src then d.batonWaits else d)
  else
    let acting := d.isHolder
    if prev = src && reason != 0 && !acting then
      -- the baton is handed to this node
      (d.takeBaton n prev reason 0).batonWaits
    else
      let d := d.setMt fun x => { x with holder := some src, baton := n, beaconAt := d.now, heardAt := d.now, beaconInst := d.now / 50000 }
      let d := if reason = 0 && prev != d.mt.slot then d.slotLost prev (u64 b 8) else d
      if acting || (reason = 0 && prev = d.mt.slot) then d.selfFenceNow else d.batonWaits

/-! ## Restarts (R489 to R493) -/

/-- A JOIN of this node (Table 19.9). -/
def Dev.joinBytes (d : Dev) (epoch : Nat) (nonce : Bytes) : Bytes :=
  let e := if newer 32 d.mt.restart epoch then d.mt.restart else epoch
  let hs := Tab.vals d.ix.heats
  let head := le 4 e ++ le 1 d.mt.slot ++ le 1 hs.length ++ le 1 d.hbState ++ le 1 0 ++ fit 64 d.mt.digest
  let key := edPublic d.fuses.seed
  head ++ key ++ edSign d.fuses.seed (sha512 (head ++ nonce))
    ++ (hs.map fun h => le 2 h.number ++ le 1 h.role ++ le 1 (d.copyState h) ++ le 4 (e32 h.applied) ++ le 4 (e32 (d.floorOf h)) ++ le 4 0).flatten

def readJoin (b : Bytes) : JoinRec :=
  { slot := u8 b 4, restart := u32 b 0, digest := sub b 8 64, key := sub b 0x48 32, sig := sub b 0x68 64, signed := sub b 0 0x48
    copies := (List.range (min 16 (u8 b 5))).map fun i =>
      let o := 0xA8 + 16 * i
      (u16 b o, u8 b (o + 2), u8 b (o + 3), u32 b (o + 4), u32 b (o + 8)) }

/-- R489: the holder begins a restart. -/
def Dev.beginRestart (d : Dev) (above : Nat) (reqs : List Nat) : Dev :=
  let e := (above + 1) % 2 ^ 32
  let (nonce, d) := d.undefBytes 32
  let mine := readJoin (d.joinBytes e nonce)
  let old := match d.mt.run with | some r => r.reqs | none => []
  let d := d.setMt fun x => { x with run := some { epoch := e, nonce := nonce, began := d.now, joins := [mine], reqs := old ++ reqs } }
  d.relayAll K_RESTART (le 4 e ++ le 4 0 ++ nonce) fun _ => true

/-- R490. -/
def Dev.joinOk (d : Dev) (nonce : Bytes) (j : JoinRec) : Bool :=
  j.digest == fit 64 d.mt.digest && fingerprintOf j.key == (d.member j.slot).fpr && edVerify j.key (sha512 (j.signed ++ nonce)) j.sig

/-- JOIN at the holder. -/
def Dev.onJoin (d : Dev) (src : Nat) (b : Bytes) : Dev :=
  match d.mt.run with
  | none => d
  | some r =>
    let j := readJoin b
    if j.slot != src then d
    else if newer 32 j.restart r.epoch then d.beginRestart j.restart []
    else d.setMt fun x => { x with run := some { r with joins := r.joins.filter (fun y => y.slot != src) ++ [j] } }

/-- R491: the role of a heat among the admitted JOINs. -/
def Dev.roleAtRestart (d : Dev) (joins : List JoinRec) (heat : Nat) : Role :=
  let have_ := joins.filterMap fun j => (j.copies.find? fun c => c.1 == heat).map fun c => (j.slot, c.2.1, c.2.2.1, d.wholeEpoch c.2.2.2.1)
  let order := d.orderOf heat
  let inOrder := order.filterMap fun m => have_.find? fun c => c.1 == m
  let ok := inOrder.filter fun c => c.2.2.1 == 0
  let newest := maxOf (ok.map (·.2.2.2))
  let best := ok.filter fun c => c.2.2.2 == newest
  let prim := (best.head?).map (·.1)
  { primary := prim, busy := false, serving := best.map (·.1) }

/-- What a member does when it is admitted at a restart. -/
def Dev.admitted (d : Dev) (epoch : Nat) : Dev :=
  let was := d.mt.fenced
  let d := d.setMt fun x => { x with
    restart := epoch, member := true, fenced := false, beaconAt := d.now, heardAt := d.now, beaconInst := d.now / 50000, silentDone := false }
  -- R510: a node fence raised by MEET_FENCE ends
  let d := if was && !(d.recs.any fun p => p.2.cls == 4 && p.2.source != SRC_MEET_FENCE) then d.setRg .REF_STAT_FENCED 0 else d
  let d := d.ix.heats.foldl (fun d p => d.updHeat p.1 fun h =>
    { h with handoff := none, recv := [], closed := [], dones := [], state := if h.state = 3 then 1 else h.state }) d
  let rs := d.mt.waits.filter fun r => match Tab.find d.reqs r with | some q => u8 q.desc 0 == 0x6E | none => false
  let d := rs.foldl (fun d r => d.complete r ST_OK epoch) d
  d.setMt fun x => { x with waits := x.waits.filter fun r => !rs.contains r }

/-- R491: once ROLES stands, a copy that is not SERVING catches up, and a primary brings the others up to date. -/
def Dev.afterRestart (d : Dev) : Dev :=
  d.ix.heats.foldl (fun d p => match Tab.find d.mt.roles p.2.number with
    | none => d
    | some r =>
      let mine := r.serving.contains d.mt.slot
      let d := d.updHeat p.1 fun h => if h.state = 0 && !mine && d.mt.member then { h with state := 1 }
        else if h.state = 1 && mine && d.synced then { h with state := 0 } else h
      match d.heat p.1 with
      | none => d
      | some h =>
        if r.primary != some d.mt.slot || !h.started then d
        else (h.copies.filter fun m => m != 0xFF && m != d.mt.slot && d.memberLive m && !r.serving.contains m).foldl (fun d m =>
          match d.copyRec m h.number with
          | some c => if d.floorOf h ≤ c.applied && c.state != 2 then d.sendGroups h m c.applied else d.sendRefill h m
          | none => d.sendRefill h m) d) d

/-- JOIN_WINDOW_END (R489 to R491). -/
def Dev.joinWindow (d : Dev) : Dev :=
  match d.mt.run with
  | none => d
  | some r =>
    if !d.isHolder || d.now < r.began + d.mt.joinMs * 1000000 then d
    else
      let ok := r.joins.filter fun j => j.slot == d.mt.slot || d.joinOk r.nonce j
      let live (m : Nat) : Bool := ok.any fun j => j.slot == m
      let d := d.setMt fun x => { x with
        run := none, moves := [], peers := [], restart := r.epoch, memSeq := 0, roleSeq := 0
        members := Tab.mapV x.members fun n m => { m with
          state := if live n then 0 else 2, hbInst := some (d.now / 50000), hbAt := d.now, intrFrom := none
          copies := match ok.find? fun j => j.slot == n with
            | some j => j.copies.map fun c => { heat := c.1, role := c.2.1, state := c.2.2.1, applied := d.wholeEpoch c.2.2.2.1 }
            | none => [] } }
      let heats := (ok.flatMap fun j => j.copies.map (·.1)).eraseDups
      let order (h : Nat) : List Nat :=
        let l := ok.filterMap fun j => (j.copies.find? fun c => c.1 == h).map fun c => (c.2.1 * 256 + j.slot, j.slot)
        (sortBy (fun (a b : Nat × Nat) => a.1 < b.1) l).map (·.2)
      let d := d.setMt fun x => { x with order := heats.foldl (fun t h => Tab.ins t h (order h)) [] }
      let d := d.setMt fun x => { x with roles := heats.foldl (fun t h => Tab.ins t h (d.roleAtRestart ok h)) [] }
      let d := (d.admitted r.epoch).sendMembers.sendRoles.afterRestart
      let d := r.reqs.foldl (fun d q => d.complete q ST_OK r.epoch) d
      let rank := (d.mt.anchor :: d.mt.standby).filter fun m => m != 0xFF && live m
      match rank with
      | m :: _ => d.passBaton m 2
      | [] => d

/-- RESTART at a node: it answers with JOIN. -/
def Dev.onRestart (d : Dev) (src : Nat) (b : Bytes) : Dev := d.relaySend src K_JOIN (d.joinBytes (u32 b 0) (sub b 8 32))

/-- MEMBERS at a node (R472, R489). -/
def Dev.onMembers (d : Dev) (h : RHdr) (b : Bytes) : Dev :=
  let recs := (List.range (u16 b 4)).map fun i => u32 b (8 + 4 * i)
  let stateOf (m : Nat) : Option Nat := (recs.find? fun x => x % 256 == m).map fun x => bits x 9 8
  let fresh := newer 32 h.restart d.mt.restart
  let own := (stateOf d.mt.slot).getD 2
  let put (d : Dev) : Dev := d.setMt fun x => { x with
    memSeq := u32 b 0
    members := Tab.mapV x.members fun n m => match recs.find? fun y => y % 256 == n with
      | some y => { m with state := if m.state = 3 && n = x.slot then 3 else bits y 9 8, slevel := bits y 15 12, elevel := bits y 19 16 }
      | none => m }
  if fresh then
    if own = 0 then (put (d.setMt fun x => { x with holder := some h.src, members := Tab.mapV x.members fun _ m => { m with state := 2 } })).admitted h.restart
    else d.goOutside own
  else
    let lost := (recs.filter fun x => bits x 9 8 = 1 && (d.member (x % 256)).state == 0 && x % 256 != d.mt.slot).map (· % 256)
    let d := lost.foldl (fun d m => d.slotLost m (d.member m).hbAt) d
    let d := put d
    if own = 1 || own = 2 then d.goOutside own else d

/-- ROLES at a member; a primary that takes over from a lost slot excuses what is in flight (R99). -/
def Dev.onRoles (d : Dev) (b : Bytes) : Dev :=
  let first := d.mt.roleSeq = 0 || !(d.mt.roles.any fun _ => true)
  let rs := (List.range (u16 b 4)).map fun i =>
    let o := 8 + 8 * i
    (u16 b o, ({ primary := if u8 b (o + 2) = 0xFF then none else some (u8 b (o + 2)), busy := bit (u8 b (o + 3)) 0
                 serving := ((List.range 4).map fun j => u8 b (o + 4 + j)).filter (· != 0xFF) } : Role))
  let taken (p : Nat × Role) : Bool := p.2.busy || match Tab.find d.mt.roles p.1 with
    | some r => r.primary != p.2.primary && (r.busy || r.primary.any fun s => (d.member s).state == 1)
    | none => false
  let d := if rs.any taken then d.excuse none else d
  let d := d.setMt fun x => { x with roleSeq := u32 b 0, roles := rs.foldl (fun t p => Tab.ins t p.1 p.2) [] }
  let d := d.rolesInstalled
  if first || u32 b 0 = 1 then d.afterRestart else d

/-! ## Planned handoff (R483) -/

/-- TAKEOVER: at the successor of a lost copy, and at both ends of a planned handoff (log 63). -/
def Dev.onTakeover (d : Dev) (b : Bytes) : Dev :=
  let heat := u16 b 0
  if u8 b 4 = 2 then
    match d.heatIdx heat with
    | none => d
    | some i => d.updHeat i fun h => { h with handoff := some (d.wholeEpoch (u32 b 0x10), u8 b 3) }
  else if u8 b 3 = d.mt.slot then d.takeOver heat
  else d

/-- The holder begins a planned handoff. -/
def Dev.planHandoff (d : Dev) (heat dest : Nat) (reqs : List Nat) : Dev :=
  match Tab.find d.mt.roles heat with
  | none => d
  | some r =>
    let from_ := r.primary.getD 0xFF
    let k := ceilDiv (d.now + 2 * d.ivl) d.ivl + 4294967296
    let b := takeoverBytes heat from_ dest 2 0 k
    let d := d.setMt fun x => { x with
      roles := Tab.ins x.roles heat { r with busy := false }
      moves := (x.moves.filter fun m => m.heat != heat) ++ [{ heat := heat, from_ := from_, dest := dest, tl := 0, k := some k, reqs := reqs }] }
    [from_, dest].foldl (fun d m => if m = d.mt.slot then d.onTakeover b else d.relaySend m K_TAKEOVER b) d

/-- PLANNED_HANDOFF_BOUNDARY at k × I: the new primary begins with group k + 1. -/
def Dev.handoffBoundary (d : Dev) (i : Nat) : Dev :=
  match d.heat i with
  | none => d
  | some h =>
    match h.handoff with
    | some (k, s) =>
      if s = d.mt.slot && k ≤ d.now / d.ivl + 4294967296 && h.role = 1 then
        d.updHeat i fun h => { h with role := 0 }
      else d
    | none => d

/-! ## Interrupted time (R494) -/

/-- A heat that a slot's image hosts has no SERVING copy in the meet, or no primary while updates to it wait here. -/
def Dev.heatDark (d : Dev) (heat : Nat) : Bool :=
  match Tab.find d.mt.roles heat with
  | none => false
  | some r => !(r.serving.any fun m => d.memberLive m) || ((r.primary.isNone || r.busy) && d.ix.held.any fun p => p.1 == heat)

/-- Interrupted time is brought up to now: of this slot, and at the holder of the lost slots. -/
def Dev.intrTick (d : Dev) : Dev :=
  if !d.mt.on then d
  else
    let dark := (Tab.vals d.ix.heats).any fun h => d.heatDark h.number
    let d := match d.mt.intrFrom with
      | some t => d.setRg .RLY_INTR_NS (d.rg .RLY_INTR_NS + (d.now - t))
      | none => d
    let d := d.setMt fun x => { x with intrFrom := if dark then some d.now else none }
    if !d.isHolder then d
    else d.setMt fun x => { x with members := Tab.mapV x.members fun _ m =>
      let m := match m.intrFrom with | some t => { m with intr := m.intr + (d.now - t) } | none => m
      { m with intrFrom := if m.state = 1 && m.copies.any (fun c => d.heatDark c.heat) then some d.now else none } }

/-- INTERRUPTED_HOUR_ROLL (R496). -/
def Dev.hourRoll (d : Dev) : Dev :=
  if d.now % 3600000000000 != 0 then d
  else
    let d := d.intrTick
    let d := (d.setRg .RLY_INTRPREV_NS (d.rg .RLY_INTR_NS)).setRg .RLY_INTR_NS 0
    d.setMt fun x => { x with members := Tab.mapV x.members fun _ m => { m with intr := 0 } }

/-! ## Timed events -/

/-- Copies that have caught up, or whose node is disciplined again, turn SERVING (R481, R482, R491). -/
def Dev.copiesUp (d : Dev) : Dev :=
  d.ix.heats.foldl (fun d p =>
    let h := p.2
    let cur := h.started && d.curEpoch ≤ h.applied
    if d.inMeet && cur && ((h.state = 1 && d.synced) || (h.state = 2 && d.rg .PTP_STAT_LOCKED = 1)) then
      d.updHeat p.1 fun h => { h with state := 0 } else d) d

/-- HEARTBEAT_INSTANT (R472). -/
def Dev.heartbeatNow (d : Dev) : Dev :=
  if d.now % 50000 != 0 || !d.mt.on || !d.mt.member then d
  else
    let d := if d.synced then d.setMt fun x => { x with synced := true } else d
    let d := d.copiesUp
    let b := d.heartbeatBytes (loadLevel (d.busyTime d.mt.servePart))
    let dest := (d.mt.holder.toList ++ d.mt.standby).eraseDups.filter fun m => m != 0xFF && m != d.mt.slot
    let d := dest.foldl (fun d m => d.relaySend m K_HEARTBEAT b) d
    let d := if d.isHolder || d.mt.standby.contains d.mt.slot then d.takeHeartbeat d.mt.slot b else d
    let d := if d.isHolder && !d.mt.fenced then d.relayAll K_BEACON d.beaconBytes fun _ => true else d
    match d.mt.batonTo with
    | some m => if !d.isHolder then d else if m = d.mt.slot || d.memberLive m then (d.passBaton m 1).batonSelf else d.batonLost
    | none => d

/-- STANDBY_TAKES_BATON (R479). -/
def Dev.standbyTakes (d : Dev) : Dev :=
  let before := d.mt.standby.takeWhile (· != d.mt.slot)
  let mine := d.mt.standby.contains d.mt.slot && d.inMeet && !d.isHolder
  let gone (m : Nat) : Bool := m = 0xFF || !d.memberLive m || missed4 ((d.member m).hbInst.getD 0) d.now
  if !mine || !missed4 d.mt.beaconInst d.now || !(before.all fun m => some m == d.mt.holder || gone m) then d
  else
    let prev := d.mt.holder.getD d.mt.anchor
    let tl := d.mt.beaconAt
    let d := d.takeBaton (d.mt.baton + 1) prev 0 tl
    let d := d.setMt fun x => { x with members := Tab.mapV x.members fun _ m => { m with hbInst := m.hbInst.or (some (d.now / 50000)) } }
    d.declareLost prev tl 2 false

/-- COLD_START_LISTEN_END (R493). -/
def Dev.coldStart (d : Dev) : Dev :=
  let wait := match findIdx? (· == d.mt.slot) (d.mt.anchor :: d.mt.standby) with
    | some 0 => some (2 * d.mt.joinMs)
    | some j => some ((j + 1) * 2 * d.mt.joinMs)
    | none => none
  match wait with
  | none => d
  | some w =>
    if !d.mt.on || d.mt.member || d.isHolder || d.mt.run.isSome || d.now < max d.mt.coldAt d.mt.heardAt + w * 1000000 then d
    else ((d.setMt fun x => { x with holder := some x.slot, baton := 1 })).beginRestart d.mt.restart []

/-- R481: in holdover for more than 1 s, every copy reports DOWN. -/
def Dev.holdoverDown (d : Dev) : Dev :=
  if d.rg .PTP_STAT_HOLDOVER = 1 && d.mt.holdover.any (fun t => t + 1000000000 ≤ d.now) then
    d.ix.heats.foldl (fun d p => d.updHeat p.1 fun h => if h.state ≤ 1 && d.mt.on then { h with state := 2 } else h) d
  else d

/-! ## The meet operations (R495, Table 19.7) -/

/-- MEET_STAT's record. -/
def Dev.meetRecord (d : Dev) : Bytes :=
  let m (n : Nat) : Nat := match Tab.find d.mt.members n with | some x => x.state + x.slevel % 16 * 16 | none => 2
  let h (n : Nat) : Nat := match Tab.find d.mt.roles n with
    | some r => (r.primary.getD 0) + ofBool r.primary.isSome * 256 + ofBool (r.serving.any fun s => some s != r.primary) * 512
    | none => 0
  le 4 d.mt.restart ++ le 4 d.mt.baton ++ le 1 (d.mt.holder.getD 0) ++ le 1 d.mt.slot ++ le 6 0
    ++ ((List.range 256).map fun n => le 1 (m n)).flatten ++ ((List.range 1024).map fun n => le 2 (h n)).flatten
    ++ fill (4096 - 0x110 - 2048) 0

/-- A meet operation as admitted. -/
def Dev.meetOp (d : Dev) (r : Nat) (q : Req) : Dev :=
  let op := u8 q.desc 0
  let used := if op = 0x6C then [(0x10, 8)] else if op = 0x6D then [(0x10, 3)] else if op = 0x6F then [(0x10, 1)] else []
  let heat := u16 q.desc 0x10
  let dest := if op = 0x6D then u8 q.desc 0x12 else u8 q.desc 0x10
  let role := Tab.find d.mt.roles heat
  let busy := d.mt.run.isSome || (d.mt.moves.any fun m => !m.told) || (d.mt.roles.any fun p => p.2.busy) || d.mt.batonTo.isSome
  let replica := match role with | some x => x.serving.contains dest && x.primary != some dest && x.primary.isSome | none => false
  let standby := d.mt.standby.contains dest && dest != 0xFF && d.memberLive dest
  d.checked r
    (failIf (!payloadOk used q.desc || (op = 0x6D && heat > 1023)) ST_BAD_DESC
      ++ failIf (op != 0x6C && (q.bib != some d.mt.operBib || d.mt.operBib = 0xFFFF)) ST_NOT_OWNER
      ++ failIf q.loaderBusy ST_REFUSED_RESOURCE 1
      ++ failIf (!d.mt.on || !d.mt.member) ST_REFUSED_RESOURCE 2
      ++ failIf ((op = 0x6D && !replica) || (op = 0x6F && !standby)) ST_REFUSED_RESOURCE 3
      ++ failIf (op != 0x6C && busy) ST_REFUSED_RESOURCE 4) fun d =>
    match op with
    | 0x6C => (d.dmaWrite r (u64 q.desc 0x10) d.meetRecord).finish r ST_OK 0
    | 0x6D =>
      let d := d.measureChange q
      if d.isHolder then d.planHandoff heat dest [r] else d.setMt fun x => { x with waits := x.waits ++ [r] }
    | 0x6E => if d.isHolder then d.beginRestart d.mt.restart [r] else d.setMt fun x => { x with waits := x.waits ++ [r] }
    | _ =>
      let d := d.setMt fun x => { x with waits := x.waits ++ [r] }
      if d.isHolder then d.setMt fun x => { x with batonTo := some dest } else d

end Sys2Proof.Machine
end

