-- ==== Sys2Proof/Machine/Panel.lean ====
section
/-!
DEFINITION. The service panel (spec file 21): buttons, presence, the removal sequence of Table 21.2, insertion and
surprise removal of a sled.
-/
namespace Sys2Proof.Machine

def Dev.slot (d : Dev) (n : Nat) : PanelSlot := Tab.get {} d.panel n
def Dev.updSlot (d : Dev) (n : Nat) (f : PanelSlot → PanelSlot) : Dev := { d with panel := Tab.ins d.panel n (f (d.slot n)) }

/-- The slot's state of Table 21.2. -/
def Dev.seqOf (d : Dev) (n : Nat) : Nat := d.rg .PANEL_SLED_SEQ 0 n
def Dev.setSeq (d : Dev) (n q : Nat) : Dev := d.setRg .PANEL_SLED_SEQ q 0 n
def Dev.sledPresent (d : Dev) (n : Nat) : Bool := d.rg .PANEL_SLED_PRSNT 0 n = 1
def Dev.powered (d : Dev) (n : Nat) : Bool := d.rg .PANEL_SLED_PWREN 0 n = 1
def Dev.serving (d : Dev) (n : Nat) : Bool := d.sledState n = 2 || d.sledState n = 3

/-- The abort window, ns (Table 21.2). -/
def abortWindow : Nat := 5000000000

/-- How long SLED_PWR_EN is low before the slot is OFF, ns. -/
def powerOffTime : Nat := 100000000

def Dev.ignored (d : Dev) (n : Nat) : Dev := d.bump .PANEL_IGNORED_COUNT 1 0 n

/-- R522: flush mode or a node fence stops every sequence where it stands; so does the surprise removal of another
sled. -/
def Dev.stopSlots (d : Dev) (but : Option Nat) : Dev :=
  (List.range 4).foldl (fun d n =>
    if 1 ≤ d.seqOf n && d.seqOf n ≤ 4 && but != some n then d.updSlot n fun x => { x with stopped := true } else d) d

/-- R521: a removal request is refused. -/
def Dev.removalRefused (d : Dev) (n : Nat) : Bool :=
  ((List.range 4).any fun m => m != n && 1 ≤ d.seqOf m && d.seqOf m ≤ 5) || d.loader != 5
    || (d.mt.on && (d.member d.mt.slot).state = 2) || d.mt.run.isSome || !d.mt.moves.isEmpty
    || ((Tab.vals d.mt.roles).any fun r => r.busy)
    || ((List.range 4).filter fun m => d.serving m).length ≤ 1

/-- SLED_PWR_EN goes low, and the sled leaves (Tables 21.2, 17.2). -/
def Dev.powerOff (d : Dev) (n : Nat) : Dev :=
  ((d.setRg .PANEL_SLED_PWREN 0 0 n).updSlot n fun x => { x with offAt := some d.now }).sledGone n 0

/-- SLED_PWR_EN goes high, and discovery begins (R406). -/
def Dev.powerOn (d : Dev) (n : Nat) : Dev :=
  ((d.setRg .PANEL_SLED_PWREN 1 0 n).setSeq n 7).setRg .SLED_STAT_STATE 1 n

/-- R522, R523, R524: whether an inserted sled may be powered: not in a held slot, in flush mode, HALT or recovery, under a
node fence, or before boot step 6. -/
def Dev.mayPower (d : Dev) (n : Nat) : Bool :=
  d.coreOn && !d.nodeFenced && d.rg .PANEL_SLED_HELD 0 n = 0 && !(d.power = 2 && d.rg .BOOT_STAT_PHASE < 4)

/-- A removal request (R520, Table 21.2). A sled in FAILED is unpowered at once. -/
def Dev.removeRequest (d : Dev) (n : Nat) : Dev :=
  if d.seqOf n != 0 then d.ignored n
  else if d.sledState n = 5 && d.powered n then d.powerOff n
  else if !d.serving n then d.ignored n
  else if d.removalRefused n then (d.ignored n).updSlot n fun x => { x with refusedAt := some d.now }
  else (d.setSeq n 1).updSlot n fun _ => { tp := d.now }

/-- A removal in the abort window is cancelled. -/
def Dev.cancelRemoval (d : Dev) (n : Nat) : Dev := (d.setSeq n 0).bump .PANEL_CANCELS_COUNT 1 0 n

def Dev.inWindow (d : Dev) (n : Nat) : Bool :=
  d.seqOf n = 1 && !(d.slot n).stopped && decide (d.now < (d.slot n).tp + abortWindow)

/-- Programs in progress on a sled. -/
def Dev.sledPrograms (d : Dev) (n : Nat) : Bool :=
  (Tab.vals d.fl.ops).any fun o => o.kind == 1 && sledOf o.target == n

/-- Programs of a sled's removal that have not ended. -/
def Dev.removalPrograms (d : Dev) (n : Nat) : Bool :=
  let mine (o : FOp) : Bool := match o.why with
    | some (.panelPage m) => m == n
    | some (.panelSegs m _) => m == n
    | some (.removal m) => m == n
    | _ => false
  ((Tab.vals d.fl.ops).any mine) || d.fl.wait.any mine

/-- Table 21.2, QUIESCE: the open buffer pages and every dirty map segment, to the other sleds. -/
def Dev.writeAway (d : Dev) (n : Nat) : Dev :=
  let pages := d.fl.targets.filter fun p => (p.2.openBlk false).isSome
  let d := pages.foldl (fun d _ => d.program (.panelPage n) none 1 [] false) d
  let l := d.fl.dirtySegs
  let d : Dev := { d with fl := { d.fl with dirtySegs := [] } }
  (groups 16 (l.length + 1) l).foldl (fun d g => d.program (.panelSegs n g) none 1 [] false) d

/-- Table 21.2, HANDOFF: every heat whose primary the node held has a successor, or there is no meet. -/
def Dev.handedOff (d : Dev) : Bool :=
  !d.mt.on || (Tab.vals d.ix.heats).all fun h => match d.roleOf h.number with
    | some r => r.primary != some d.mt.slot && !r.busy
    | none => true

/-- One slot's sequence goes on as far as it can (Table 21.2); the NV bar holds its programs (R522). -/
def Dev.slotStep (d : Dev) (n : Nat) : Dev :=
  if (d.slot n).stopped then d
  else
    let d := if d.seqOf n = 2 && d.handedOff then d.setSeq n 3 else d
    let d := if d.seqOf n = 3 && !d.sledPrograms n && d.mayProgram then (d.writeAway n).setSeq n 4 else d
    if d.seqOf n = 4 && d.powered n && !d.removalPrograms n && d.mayProgram then d.program (.removal n) none 1 [] false
    else d

/-- The sequences go on after anything that they may wait for. -/
def Dev.panelStep (d : Dev) : Dev :=
  let d := if d.nodeFenced || d.rg .FTL_SUPPLY_FLUSH = 1 then d.stopSlots none else d
  (List.range 4).foldl Dev.slotStep d

/-- Table 21.2, the end of the abort window: QUIESCING, copies DOWN until the next restart, HANDOFF. -/
def Dev.abortEnd (d : Dev) (n : Nat) : Dev :=
  if d.seqOf n = 1 && !(d.slot n).stopped && (d.slot n).tp + abortWindow ≤ d.now then
    let d := ((d.setRg .SLED_STAT_STATE 4 n).setSeq n 2).rebound
    let d : Dev := { d with ix := { d.ix with heats := Tab.mapV d.ix.heats fun _ h => { h with state := 3 } } }
    d.panelStep
  else d

/-- Table 21.2, FLUSH: the removal record is programmed. -/
def Dev.removalRecorded (d : Dev) (n : Nat) : Dev :=
  if d.seqOf n = 4 && !(d.slot n).stopped then d.powerOff n else d

/-- An insertion counts (R517, Table 21.2). -/
def Dev.inserted (d : Dev) (n : Nat) : Dev :=
  let d := d.setRg .PANEL_SLED_PRSNT 1 0 n
  if d.powered n || !d.mayPower n then d else d.powerOn n

/-- A press in a state (Table 21.2). -/
def Dev.press (d : Dev) (n : Nat) : Dev :=
  let q := d.seqOf n
  if (d.slot n).stopped then d.ignored n
  else if q = 0 then d.removeRequest n
  else if q = 1 then (if d.inWindow n then d.cancelRemoval n else (d.ignored n).abortEnd n)
  else if q = 5 then
    (if d.sledPresent n && d.mayPower n then d.powerOn n else d.ignored n)
  else d.ignored n

/-- R523: a sled pulled while its slot was in any state but OFF. -/
def Dev.surprise (d : Dev) (n : Nat) : Dev :=
  let d := ((d.setRg .PANEL_SLED_PWREN 0 0 n).setRg .PANEL_SLED_HELD 1 0 n).bump .PANEL_SURPRISE_COUNT 1 0 n
  let d := ((d.setSeq n 0).updSlot n fun _ => {}).sledGone n 0
  let d := d.updHealth n fun h => { h with lostSaid := true }
  let d := d.report SRC_SLED_LOST 0x40 n none n 6
  let d : Dev := { d with ix := { d.ix with heats := Tab.mapV d.ix.heats fun _ h => { h with state := 3 } } }
  d.stopSlots (some n)

/-- A removal counts (R517, Table 21.2, R523). -/
def Dev.removed (d : Dev) (n : Nat) : Dev :=
  if !d.sledPresent n then d
  else
    let d := d.setRg .PANEL_SLED_PRSNT 0 0 n
    if d.seqOf n != 5 then d.surprise n
    else ((d.setSeq n 0).updSlot n fun _ => {}).setRg .SLED_STAT_STATE 0 n

/-- The slots whose bits of a mask are set. -/
def maskSlots (mask : Nat) : List Nat := (List.range 4).filter fun n => bit mask n

/-! ## The commands -/

/-- PANEL_REMOVE (R520, R521). -/
def execPanelRemove (t mask : Nat) (s : State) : Host.Outcome State Fault Refusal :=
  s.runIf t Dev.portsOn fun d => d.onBlock 0x65 0 fun d => ((maskSlots mask).foldl Dev.removeRequest d).panelStep

/-- PANEL_CANCEL (R520): acts only in the abort window. -/
def execPanelCancel (t mask : Nat) (s : State) : Host.Outcome State Fault Refusal :=
  s.runIf t Dev.portsOn fun d => d.onBlock 0x65 0 fun d =>
    (maskSlots mask).foldl (fun d n => if d.inWindow n then d.cancelRemoval n else d) d

/-- IDENTIFY_WRITE (R518): PANEL_CFG is written, with its LOCK field (Table 21.3). -/
def execIdentifyWrite (t value : Nat) (s : State) : Host.Outcome State Fault Refusal :=
  s.runIf t Dev.portsOn fun d => d.onBlock 0x65 0 fun d =>
    (d.setRg .PANEL_CFG_ID (bits value 8 8)).setRg .PANEL_CFG_LOCK (bits value 3 0)

/-- ATTN_BUTTON_PRESS (R516, R520): a short press. A locked slot ignores its button. -/
def execAttnButtonPress (t slot : Nat) (s : State) : Host.Outcome State Fault Refusal :=
  s.runIf t Dev.mgmtOn fun d =>
    if slot > 3 then d
    else
      let d := d.setRg .PANEL_PRESS_TIME d.now 0 slot
      if bit (d.rg .PANEL_CFG_LOCK) slot then d.ignored slot else (d.press slot).panelStep

/-- ATTN_LONG_PRESS (R516, R518): identify is toggled. -/
def execAttnLongPress (t slot : Nat) (s : State) : Host.Outcome State Fault Refusal :=
  s.runIf t Dev.mgmtOn fun d => if slot > 3 then d else d.setRg .PANEL_CFG_ID (1 - d.rg .PANEL_CFG_ID)

/-- SLED_INSERTION (R517, R523, R524). -/
def execSledInsertion (t slot : Nat) (s : State) : Host.Outcome State Fault Refusal :=
  s.runIf t Dev.mgmtOn fun d => if slot > 3 then d else d.inserted slot

/-- SLED_REMOVAL (R517, R523). -/
def execSledRemoval (t slot : Nat) (s : State) : Host.Outcome State Fault Refusal :=
  s.runIf t Dev.mgmtOn fun d => if slot > 3 then d else (d.removed slot).panelStep

/-- ABORT_WINDOW_END (Table 21.2). -/
def execAbortWindowEnd (t slot : Nat) (s : State) : Host.Outcome State Fault Refusal :=
  s.runIf t Dev.coreOn fun d => if slot > 3 then d else d.abortEnd slot

/-- SLED_POWER_OFF_DONE (Table 21.2): 100 ms after SLED_PWR_EN went low the slot is OFF. -/
def execSledPowerOffDone (t slot : Nat) (s : State) : Host.Outcome State Fault Refusal :=
  s.runIf t Dev.coreOn fun d =>
    match (d.slot slot).offAt with
    | some at_ =>
      if at_ + powerOffTime ≤ d.now && d.sledPresent slot then (d.setSeq slot 5).updSlot slot fun x => { x with offAt := none }
      else d
    | none => d

/-- NV_BAR_EXIT (R425, R522). -/
def execNvBarExit (t main : Nat) (s : State) : Host.Outcome State Fault Refusal :=
  s.runIf t Dev.mgmtOn fun d => (d.nvBarExit main).panelStep

end Sys2Proof.Machine
end

