-- ==== Sys2Proof/Machine/Relay.lean ====
section
/-!
DEFINITION. Relay frames as they arrive (spec file 19): the checks of R467, acknowledgement and order, the messages, and
the commands of the meet.
-/
namespace Sys2Proof.Machine

/-! ## Payloads (R469) -/

/-- Reserved bytes and bits of a payload (Tables 11.2, 11.3, 19.5, 19.9). -/
def bodyOk (kind : Nat) (b : Bytes) (codeLen : Nat) : Bool :=
  let each (n off size : Nat) (f : Nat → Bool) : Bool := (List.range n).all fun i => f (off + size * i)
  match kind with
  | 0x01 => u8 b 0 < 16 && zeros b 0xC 4 && u8 b 2 ≤ 16
  | 0x02 => zeros b 2 2 && zeros b 0xC 4
  | 0x03 => zeros b 6 2 && each (u16 b 4) 8 4 fun o => bits (u32 b o) 11 10 = 0 && bits (u32 b o) 31 20 = 0
  | 0x04 => zeros b 6 2 && each (u16 b 4) 8 8 fun o => u8 b (o + 3) < 2
  | 0x05 => zeros b 2 6
  | 0x06 => zeros b 5 3
  | 0x07 => zeros b 6 2
  | 0x08 => zeros b 4 4
  | 0x09 => u8 b 7 = 0 && u8 b 6 < 16 && u8 b 5 ≤ 16 && each (u8 b 5) 0xA8 16 fun o => u32 b (o + 12) = 0
  | 0x0A => u8 b 3 = 0
  | 0x10 => u8 b 0x1F < 8
  | 0x11 => u8 b 0xF < 32 && u8 b 0x19 = 0 && zeros b 0x1C 4
      && each (u16 b 0xC) 32 16 fun o => zeros b (o + 6) 2 && zeros b (o + 12) 4
  | 0x12 => u8 b 0xF = 0
  | 0x20 => u8 b 7 = 0 && zeros b 0xD 3
  | 0x21 => u8 b 7 = 0 && zeros b 9 3
  | 0x22 => zeros b 2 2 && zeros b 0xC 4 && updsOk codeLen (u32 b 8) (b.drop 16)
  | 0x23 => zeros b 2 2
  | 0x24 => u8 b 3 = 0 && u8 b 2 ≤ 1
  | 0x30 => zeros b 0x46 2
  | 0x40 => zeros b 0x46 2
  | _ => true

/-- R467: whether a frame asks for an answer: shard queries, updates, and EMBED and POOL requests and markers. -/
def isRequest (kind : Nat) (b : Bytes) : Bool :=
  kind = K_SHARD_QUERY || kind = K_UPDATE || ((kind = K_EMBED || kind = K_POOL) && (u8 b 0x44 = 0 || u8 b 0x44 = 3))

/-- The answer of a request frame that is not served. -/
def Dev.refuseFrame (d : Dev) (src kind st : Nat) (b : Bytes) : Dev :=
  if !isRequest kind b then d
  else if kind = K_SHARD_QUERY then
    d.relayAnswer src K_SHARD_FAIL (shardRef (u32 b 0) (u16 b 4) (u16 b 6) (u32 b 8) (u16 b 0xC) ++ le 1 st ++ le 1 0)
  else if kind = K_UPDATE then d.relayAnswer src K_OUTCOME (outcomeBytes (u64 b 0) st 0 0)
  else d.relayAnswer src kind (fit 64 b ++ sub b 0x40 4 ++ le 1 1 ++ le 1 st ++ fill 26 0)

/-! ## Delivery -/

/-- R470: an OUTCOME ends the retransmission of its UPDATE. -/
def Dev.stopUpdate (d : Dev) (src id : Nat) : Dev :=
  let p := d.peer src
  d.setPeer src { p with unacked := p.unacked.filter fun u => !(u.kind == K_UPDATE && u64 u.body 0 == id) }

/-- R480: types that a node discards where their baton number is older than its own. -/
def batonChecked (kind : Nat) : Bool := kind = K_BEACON || kind = K_MEMBERS || kind = K_ROLES || kind = K_BATON

/-- Types that a node handles whether or not it is part of its meet. -/
def always (kind : Nat) : Bool :=
  kind = K_BEACON || kind = K_MEMBERS || kind = K_BATON || kind = K_RESTART || kind = K_JOIN || kind = K_ACK

/-- A whole message is delivered. -/
def Dev.relayMsg (d : Dev) (kind : Nat) (h : RHdr) (b : Bytes) : Dev :=
  let cb := match (d.heatIdx (u16 b 0)).bind d.heat with | some x => codeBytes x.code | none => 0
  if !bodyOk kind b cb then d.bump .RLY_BADFRAME_COUNT
  else if batonChecked kind && stale 32 h.baton d.mt.baton then d
  else if !always kind && (!d.inMeet || d.nodeFenced) then d.refuseFrame h.src kind ST_FENCED b
  else match kind with
    | 0x01 => d.takeHeartbeat h.src b
    | 0x02 =>
      if d.isHolder then d
      else
        let d := d.setMt fun x => { x with
          beaconAt := d.now, heardAt := d.now, holder := some h.src, baton := h.baton, silentDone := false
          beaconInst := match d.instant with | some n => n | none => x.beaconInst }
        d.updMember h.src fun m => { m with links := u8 b 1 % 16 }
    | 0x03 => d.onMembers h b
    | 0x04 => d.onRoles b
    | 0x05 => if u8 b 0 = d.mt.slot then d.goOutside 1 else d.slotLost (u8 b 0) (u64 b 8)
    | 0x06 => d.onTakeover b
    | 0x07 => d.onBaton h.src b
    | 0x08 => d.onRestart h.src b
    | 0x09 => d.onJoin h.src b
    | 0x0A => d.onRefill b
    | 0x10 => d.onShardQuery h.src b
    | 0x11 => d.onPartialList h.src b
    | 0x12 => d.onShardFail h.src b
    | 0x13 => d.onShardCancel h.src b
    | 0x20 => d.onUpdate b
    | 0x21 => (d.stopUpdate h.src (u64 b 0)).onOutcome b
    | 0x22 => d.onGroup h.src b
    | 0x23 => d.onGroupAck h.src b
    | 0x24 =>
      let d := d.onCommit b
      match d.heatIdx (u16 b 0) with
      | some i => d.copiesUp.releaseHeld i
      | none => d
    | 0x30 =>
      match d.takeLong h.src kind b with
      | (some b, d) => d.onEmbed h.src b
      | (none, d) => d
    | 0x40 =>
      match d.takeLong h.src kind b with
      | (some b, d) => d.onPool h.src b
      | (none, d) => d
    | _ => d

/-- R470: the acknowledgement that a frame carries. UPDATE frames stay until their OUTCOME. -/
def Dev.takeAck (d : Dev) (src ack : Nat) : Dev :=
  if !Tab.has d.mt.peers src then d
  else
    let p := d.peer src
    let d := d.setPeer src { p with unacked := p.unacked.filter fun u => ack < u.seq || u.kind == K_UPDATE }
    ((Tab.keys d.ix.heats).foldl Dev.settleDones d).settleSteps.settleMoves

/-- Held frames of a pair go on in SEQ order (R469); by fuel. -/
def Dev.drainPeer : Nat → Dev → RHdr → Dev
  | 0, d, _ => d
  | f + 1, d, h =>
    let p := d.peer h.src
    match Tab.find p.held p.rx with
    | none => d
    | some (kind, more, baton, x) =>
      let whole := p.joining ++ x
      let d := d.setPeer h.src { p with rx := p.rx + 1, held := Tab.del p.held p.rx, joining := if more then whole else [] }
      Dev.drainPeer f (if more then d else d.relayMsg kind { h with baton := baton } whole) h

/-- A frame that has passed R467: acknowledged, put in order, and delivered. -/
def Dev.relayTake (d : Dev) (kind : Nat) (h : RHdr) (b : Bytes) : Dev :=
  let d := d.takeAck h.src h.ack
  if !reliable kind then d.relayMsg kind h b
  else
    let p := d.peer h.src
    let d := if h.seq < p.rx then d else d.setPeer h.src { p with held := Tab.ins p.held h.seq (kind, h.more, h.baton, b) }
    let d := Dev.drainPeer ((d.peer h.src).held.length + 1) d h
    d.relayFrame h.src K_ACK 0 false false []

/-- A Relay frame reaches the node (R467). RESTART, JOIN, MEMBERS, BEACON and ACK pass the checks of the restart epoch and
of the slot's state, since a restart could not run otherwise (log 60). -/
def Dev.relayIn (d : Dev) (kind : Nat) (h : RHdr) (b : Bytes) : Dev :=
  if !d.mt.on then d
  else if !Tab.has d.mt.members h.src then d.bump .RLY_BADFRAME_COUNT
  else if h.src = d.mt.slot then d
  else
    let free := kind = K_RESTART || kind = K_JOIN || kind = K_MEMBERS || kind = K_BEACON || kind = K_ACK
    let old := stale 32 h.restart d.mt.restart
    let fresh := newer 32 h.restart d.mt.restart
    let st := (d.member h.src).state
    if old && kind != K_JOIN && kind != K_RESTART then (d.bump .RLY_STALE_COUNT).refuseFrame h.src kind ST_STALE_EPOCH b
    else if (st = 1 || st = 2) && !free then d.refuseFrame h.src kind ST_FENCED b
    else if fresh && kind = K_MEMBERS then
      let d := if h.seq = 1 then d.setMt fun x => { x with peers := [] } else d
      d.relayTake kind h b
    else if fresh && kind != K_JOIN && kind != K_RESTART then
      let d := if kind = K_BEACON then d.setMt fun x => { x with heardAt := d.now } else d
      d.goOutside
    else d.relayTake kind h b

/-- RELAY_RETRANSMIT (R470). -/
def Dev.retransmit (d : Dev) (dst seq : Nat) : Dev :=
  let p := d.peer dst
  match p.unacked.find? fun u => u.seq == seq with
  | none => d
  | some u =>
    if d.now < u.sentAt + d.mt.retx * 1000 then d
    else if u.tries ≥ 3 && u.kind != K_UPDATE then
      let d := d.setPeer dst { p with unacked := p.unacked.filter fun x => x.seq != seq }
      let d := if u.kind = K_SHARD_QUERY then (match d.findSrch (u32 u.body 0) (u16 u.body 4) (u32 u.body 8) (u16 u.body 0xC) with
          | some r => d.sourceFailed r (u16 u.body 6) dst
          | none => d) else d
      ((Tab.keys d.ix.heats).foldl Dev.settleDones d).settleSteps.settleMoves
    else
      let d := d.setPeer dst { p with unacked := p.unacked.map fun x =>
        if x.seq = seq then { x with sentAt := d.now, tries := x.tries + 1 } else x }
      (d.bump .RLY_RETX_COUNT).relayFrame dst u.kind seq true u.more u.body

/-! ## Frames as commands -/

/-- What follows an event of the meet: interrupted time is kept. -/
def Dev.meetEnd (d : Dev) : Dev := d.intrTick

/-- A frame as a command: what it does, and what follows of itself. -/
def Dev.relayCmd (kind : Nat) (h : RHdr) (b : Bytes) (d : Dev) : Dev := (d.relayIn kind h b).meetEnd

end Sys2Proof.Machine
end

