-- ==== Sys2Proof/Machine/Flags.lean ====
section
/-!
DEFINITION. Registers as a host sees them: the status fields that the structures of the state give, and reads and writes
by access type (spec file 00, Table 00.3; R15, R16, R75, R76, R91, R568).
-/
namespace Sys2Proof.Machine

/-! ## Heads and contexts (R32, R33, R153) -/

/-- R32: the contexts of the node. -/
def contexts : Nat := 16384

/-- R33: contexts of a partition in use, reserved and shared. -/
def Dev.ctxOf (d : Dev) (part : Nat) : Nat := Tab.count d.reqs fun q => q.ctx != 0 && q.part == part

/-- R33: contexts of the shared remainder in use, and their number. -/
def Dev.ctxShared (d : Dev) : Nat := Tab.count d.reqs fun q => q.ctx == 2
def Dev.ctxRemainder (d : Dev) : Nat := contexts - sum (d.parts.map (·.ctx))

/-- R33: the context that a head would take: 1 of its partition's reserve, 2 of the remainder, 0 none. -/
def Dev.ctxFor (d : Dev) (part : Nat) : Nat :=
  let reserve := match d.part part with | some p => p.ctx | none => 0
  if d.ctxOf part < reserve then 1 else if d.ctxShared < d.ctxRemainder then 2 else 0

/-- The first unadmitted descriptor of every window (R33), by request number. -/
def Dev.waitingHeads (d : Dev) : List (Nat × Req) :=
  d.wins.filterMap fun w => w.2.fifo.head?.bind fun r => (Tab.find d.reqs r).map fun q => (r, q)

/-- R153: FENCE waits until every earlier descriptor of the window has completed. -/
def Dev.fenceClear (d : Dev) (r : Nat) (q : Req) : Bool :=
  !bit (u8 q.desc 2) 1 || !(d.reqs.any fun p => p.1 < r && p.2.win == q.win && !p.2.ended)

/-- A head that may be admitted now, contexts apart: PF0 descriptors from READY on (R543). -/
def Dev.mayAdmit (d : Dev) (r : Nat) (q : Req) : Bool :=
  q.waiting && (!winIsPf0 q.win || d.power ≥ 3) && d.fenceClear r q

/-- R216: the heads held only for want of a context. -/
def Dev.heldHeads (d : Dev) : List (Nat × Req) :=
  d.waitingHeads.filter fun p => d.mayAdmit p.1 p.2 && needsCtx (u8 p.2.desc 0) && d.ctxFor p.2.part == 0

/-- R32, R216: the descriptors that those heads leave in their FIFOs, and the heads themselves. -/
def Dev.heldCount (d : Dev) : Nat :=
  let heads := d.heldHeads.map (·.1)
  sum (d.wins.map fun w => if w.2.fifo.head?.any heads.contains then w.2.fifo.length else 0)

/-! ## Status fields by chapter -/

/-- Eight-byte word i of a byte string, byte 0 lowest. -/
def word8 (b : Bytes) (i : Nat) : Nat := u64 b (8 * i)

/-- R505: the highest class among the uncleared records, 7 for none. -/
def Dev.highClass (d : Dev) : Nat := if d.recs.isEmpty then 7 else maxOf ((Tab.vals d.recs).map (·.cls))

/-- R560, R519: the position of a split time within a blink of a period: lit in its first half. -/
def blinkOn (now period : Nat) : Bool := now % period < period / 2

/-- R519, Table 21.1: ATTN_LED of a slot. -/
def Dev.attnLed (d : Dev) (n : Nat) : Bool :=
  let p := Tab.get ({} : PanelSlot) d.panel n
  if d.rg .PANEL_SLED_HELD 0 n = 1 || d.rg .SLED_STAT_STATE n = 5 then true
  else if d.rg .PANEL_SLED_SEQ 0 n = 1 then blinkOn d.now 1000000000
  else match p.refusedAt with
    | some t => decide (d.now < t + 2000000000) && blinkOn d.now 250000000
    | none => false

/-- R519, Table 21.1: PWR_LED of a slot. -/
def Dev.pwrLed (d : Dev) (n : Nat) : Bool :=
  let q := d.rg .PANEL_SLED_SEQ 0 n
  let st := d.rg .SLED_STAT_STATE n
  if q = 2 || q = 3 || q = 4 || q = 7 || st = 1 then blinkOn d.now 500000000
  else d.rg .PANEL_SLED_PWREN 0 n = 1 && (st = 2 || st = 3)

/-- The fields of the service panel. -/
def Dev.panelView (d : Dev) (f : Fld) (rec : Nat) : Option Nat :=
  match f with
  | .PANEL_SLED_ATTN => some (ofBool (d.attnLed rec))
  | .PANEL_SLED_PWRLED => some (ofBool (d.pwrLed rec))
  | _ => none

/-- Tables 03.7, 02.9, 22.11, 22.12: what fuses, ROM, straps and the measurement log show. -/
def Dev.idView (d : Dev) (f : Fld) (rec : Nat) : Option Nat :=
  match f with
  | .CI_SECVER_FLOOR => some d.fuses.ciFloor
  | .ID_PART_STEP => some d.fuses.step
  | .ID_ROM_VERSION => some d.rom.version
  | .ID_SERIAL_SERIAL => some d.fuses.serial
  | .ID_FPR0_WORD => some (word8 (le 16 (leNat d.fuses.fingerprint)) 0)
  | .ID_FPR1_WORD => some (word8 (le 16 (leNat d.fuses.fingerprint)) 1)
  | .PWR_STRAP_TEST_EN => some (ofBool d.straps.testEn)
  | .PWR_STRAP_SMB_ADDR0 => some (ofBool d.straps.smbAddr0)
  | .PWR_STRAP_XSPI_QUAD => some (ofBool d.straps.xspiQuad)
  | .PWR_STRAP_BOOT_MODE => some d.straps.bootMode
  | .MEAS_FWFLOOR_FLOOR => some d.fuses.fwFloor
  | .MEAS_KEYS_ROMREV => some d.fuses.romRevoked
  | .MEAS_KEYS_SLOTS => some (sum ((List.range 4).map fun i => ((d.fuses.slots.map (·.state)).getD i 0) * 4 ^ i))
  | .MEAS_RAISES_FW => some d.fuses.fwRaises
  | .MEAS_RAISES_CI => some d.fuses.ciRaises
  | .MEAS_IDKEY_WORD => some (word8 d.idKey rec)
  | .MEAS_RUN_WORD => some (word8 d.measRun rec)
  | .MEAS_FWDIG_WORD => some (word8 d.fwDigest rec)
  | .PTP_TIME_NS => some d.now
  | .REF_STAT_HIGH => some d.highClass
  | .REF_STAT_OPEN => some (Tab.count d.recs fun r => decide (0 < r.cls))
  | _ => none

/-- Table 20.7: a record of the Referee; a FREE record reads 0. -/
def Dev.refView (d : Dev) (f : Fld) (rec : Nat) : Option Nat :=
  let at_ (g : RefRec → Nat) : Option Nat := some (match Tab.find d.recs rec with | some r => g r | none => 0)
  match f with
  | .REF_ADDR_ADDR => at_ (·.addr)
  | .REF_TIME_NS => at_ (·.time)
  | .REF_MASTER_TYPE => at_ (·.utype)
  | .REF_MASTER_INST => at_ (·.uinst)
  | .REF_MASTER_BIBV => at_ fun r => ofBool r.bib.isSome
  | .REF_MASTER_BIB => at_ fun r => r.bib.getD 0
  | .REF_MASTER_GEN => at_ (·.gen)
  | .REF_REC_COUNT => at_ (·.count)
  | .REF_REC_SOURCE => at_ (·.source)
  | .REF_REC_ACCESS => at_ (·.access)
  | .REF_REC_CLASS => at_ (·.cls)
  | .REF_REC_STATE => at_ (·.state)
  | .REF_REC_STEPS => at_ (·.steps)
  | _ => none

/-- The bib whose binding in force is a VF of a port (R129, R130). -/
def Dev.boundBib (d : Dev) (port vf : Nat) : Option (Nat × Bib) :=
  d.bibs.find? fun p => p.2.state != 0 && p.2.bind.kind == 1 && p.2.bind.port == port && p.2.bind.vf == vf

/-- CW_STAT and ADM_STAT (Table 06.2) of a window. -/
def Win.stat (w : Win) : Nat := w.dropped * 2 ^ 48 + w.nocredit * 2 ^ 32 + w.accum * 2 ^ 16 + w.fifo.length

/-- Tables 03.2, 05.6, 06.2, 06.8, 04.6: bibs, windows, rings, contracts. Window numbers stand as instances of CW_STAT. -/
def Dev.bibView (d : Dev) (f : Fld) (inst rec : Nat) : Option Nat :=
  let b := d.bib rec
  let w := d.win inst
  let r := d.ring (pf0Win inst)
  let c (g : Contract → Nat) : Option Nat := some (match Tab.find d.contracts rec with | some x => g x | none => 0)
  match f with
  | .VF_INFO_BIB => some (match d.boundBib inst rec with | some x => x.1 | none => 0xFFFF)
  | .VF_INFO_GEN => some (match d.boundBib inst rec with | some x => x.2.gen | none => 0)
  | .BIB_STAT_GEN => some b.gen
  | .BIB_STAT_MAP => some b.map
  | .BIB_STAT_PARTITION => some b.part
  | .BIB_STAT_PORT => some b.bind.port
  | .BIB_STAT_KIND => some b.bind.kind
  | .BIB_STAT_DRAIN => some (ofBool b.old.isSome)
  | .BIB_STAT_PENDING => some b.pending
  | .BIB_STAT_STATE => some b.state
  | .BIB_TARGET_TARGET => some (if b.bind.kind = 1 then b.bind.vf else if b.bind.kind = 2 then b.bind.qpn else 0)
  | .BIB_RESETS_SW => some (min 65535 b.sw)
  | .BIB_RESETS_HW => some (min 65535 b.hw)
  | .BIB_TDSTART_TIME => some b.tdStart
  | .BIB_T0_TIME => some b.t0
  | .CW_STAT_DROPPED => some w.dropped
  | .CW_STAT_NOCREDIT => some w.nocredit
  | .CW_STAT_ACCUM => some w.accum
  | .CW_STAT_FIFO => some w.fifo.length
  | .ADM_RING_BASE_ADDR => some (r.base / 4096)
  | .ADM_RING_CFG_EN => some (ofBool r.en)
  | .ADM_RING_CFG_MOD_TIME => some r.modTime
  | .ADM_RING_CFG_MOD_COUNT => some r.modCount
  | .ADM_RING_CFG_VECTOR => some r.vec
  | .ADM_RING_CFG_SIZE_LOG2 => some r.size
  | .ADM_STAT_ALL => some (d.win (pf0Win inst)).stat
  | .ADM_WRITTEN_COUNT => some r.written
  | .CONTR_COUNT_COUNT => some d.contracts.length
  | .CONTR_ID_SERVICE => c (·.svc)
  | .CONTR_ID_BIB => c (·.bib)
  | .CONTR_BND999_US => c (·.bound)
  | _ => none

/-- The copy of a heat entry. -/
def Dev.heatAt (d : Dev) (i : Nat) : Option Heat := Tab.find d.ix.heats i

/-- Tables 07.6, 08.7 to 08.9, 09.3, 09.4, 10.6, 11.3: the index. -/
def Dev.indexView (d : Dev) (f : Fld) (inst rec : Nat) : Option Nat :=
  let h (g : Heat → Nat) : Option Nat := some (match d.heatAt inst with | some x => g x | none => 0)
  let ctx (k : Nat) : Nat := Tab.count d.reqs fun q => q.ctx == k
  let e := d.engine inst
  match f with
  | .HEAT_ID_DEGREE => h (·.degree)
  | .HEAT_ID_CODE => h (·.code)
  | .HEAT_ID_ROLE => h (·.role)
  | .HEAT_ID_NUMBER => h (·.number)
  | .HEAT_CAP_LIDS => h (·.cap)
  | .HEAT_EPOCH_APPLIED => h fun x => x.applied % 2 ^ 32
  | .HEAT_EPOCH_FLOOR => h fun x => d.floorOf x % 2 ^ 32
  | .HEAT_LIVE_COUNT => h fun x => Tab.count x.st (· == 1)
  | .HEAT_DELETED_COUNT => h fun x => Tab.count x.st (· == 2)
  | .HEAT_TIMING_RETAIN => h fun _ => d.ix.pre.retain
  | .HEAT_TIMING_INTERVAL_US => h fun _ => d.ix.pre.interval
  | .HEAT_TIMING2_HOLD_US => h fun _ => d.ix.pre.hold
  | .HEAT_TIMING2_PUBLISH_US => h fun _ => d.ix.pre.publish
  | .SIDE_POS_HEAD => h fun x => x.head % 2 ^ 32
  | .SIDE_POS_TAIL => h fun x => x.tail % 2 ^ 32
  | .SIDE_RUI_COUNT => h fun x => x.rui.length
  | .SIDE_PAUSENO_COUNT => h fun x => x.pauseNo % 2 ^ 32
  | .WLK_ACTIVE_COUNT => some (d.walkingOn inst)
  | .PACK_OPEN_COUNT => some (min 65535 (Tab.count d.ix.groups fun g => !g.closed || !(g.running || g.tileWait)))
  | .QCT_USE_TOTAL => some (ctx 1 + ctx 2)
  | .QCT_SHARED_INUSE => some (ctx 2)
  | .QCT_WAITING_COUNT => some d.heldCount
  | .QCT_PART_RESERVE => some (match d.part rec with | some p => p.ctx | none => 0)
  | .QCT_PART_INUSE => some (if (d.part rec).isNone then 0 else Tab.count d.reqs fun q => q.ctx != 0 && q.part == rec)
  | .STR_STAT_OWNER => some e.owner
  | .STR_STAT_SLICE => some (d.now / 2000 % 64)
  | .STR_STAT_SAVED => some e.saved.length
  | .STR_STAT_LIVE => some (ofBool e.live.isSome)
  | .STR_STAT_LENT => some (ofBool e.lent)
  | .STK_FENCE_ENGINES => some (sum ((List.range 16).map fun j => if d.engFenced (16 * inst + j) then 2 ^ j else 0))
  | .STR_STAT_FENCED => some (ofBool (d.engFenced inst))
  | .STR_MAP_OWNER => some (d.sliceOwner inst rec)
  | .POD_STAT_FREE => some (d.selFree inst)
  | .POD_STAT_LISTS => some (Tab.count d.ix.lists fun l => l.sel == some inst)
  | _ => none

/-- The pass that a tile holds. -/
def Dev.tilePass (d : Dev) (t : Nat) : Option Pass := (Tab.vals d.inf.passes).find? fun x => x.tiles.contains t

/-- R309: a bit for each tile of a group that satisfies a test. -/
def groupBits (g : Nat) (p : Nat → Bool) : Nat := sum ((List.range 8).map fun j => ofBool (p (8 * g + j)) * 2 ^ j)

/-- R317, R334: rescale entries loaded in the banks of a group's tiles that hold passes. -/
def Dev.rescUse (d : Dev) (g : Nat) : Nat :=
  min 0x3FFF (sum ((List.range 8).map fun j =>
    if (d.tilePass (8 * g + j)).isSome then (Tab.get [] d.inf.resc (8 * g + j)).length else 0))

/-- Tables 12.6 to 12.8, 13.5: Infield. -/
def Dev.infView (d : Dev) (f : Fld) (inst : Nat) : Option Nat :=
  let p (g : Pass → Nat) : Option Nat := some (match d.tilePass inst with | some x => g x | none => 0)
  let more (g : Pass → Nat) : Option Nat := some (d.rg f inst + (match d.tilePass inst with | some x => g x | none => 0))
  match f with
  | .IGRP_STAT_FENCED => some (groupBits inst d.tileFenced)
  | .IGRP_STAT_BUSY => some (groupBits inst d.tileBusy)
  | .IGRP_RESCUSE_ENTRIES => some (d.rescUse inst)
  | .ITILE_STAT_BIB => p (·.bib)
  | .ITILE_STAT_SLOT => p (·.slot)
  | .ITILE_STAT_LAYER => p (·.layer)
  | .ITILE_STAT_WAIT => p fun x => ofBool (!x.started)
  | .ITILE_STAT_BUSY => some (ofBool (d.tileBusy inst))
  | .ITILE_STAT_FENCED => some (ofBool (d.tileFenced inst))
  | .ITILE_BUSY_CYCLES => more fun x => d.now - x.granted
  | .ITILE_WAIT_CYCLES => more fun x => if x.started then 0 else d.now - x.since
  | .TSRAM_STAT_FREE => some (d.bankFree inst)
  | _ => none

/-- Tables 14.9, 15.6, 16.9, 16.10, 17.8, 17.10: embedding tables, KV pool, tiers, sleds, the map. -/
def Dev.tierView (d : Dev) (f : Fld) (inst rec : Nat) : Option Nat :=
  let t (g : Table → Nat) : Option Nat := some (match Tab.find d.em.tables rec with | some x => g x | none => 0)
  let key := d.rg .POOL_APTKEY_KEY 0 rec
  match f with
  | .EMB_MIG_SRC => some (d.em.migs.filter fun p => !p.2.tail).length
  | .EMB_MIG_DST => some d.coming
  | .EMB_REDIR_COUNT => some d.liveRedirs.length
  | .EMB_TID_REPL => t fun x => ofBool x.repl
  | .EMB_TID_TABLE => t (·.num)
  | .EMB_STEP_APPLIED => t fun x => x.applied % 2 ^ 32
  | .POOL_CFG_LEASE_MS => some (if d.pl.on then d.pl.leaseMs else 0)
  | .POOL_CFG_HANDOFF_MS => some (if d.pl.on then d.pl.handoffMs else 0)
  | .POOL_SEGS_COUNT => some d.pl.segs.length
  | .POOL_DRAM_BLOCKS => some d.dramBlocks
  | .POOL_SPILL_BLOCKS => some d.spillBlocks
  | .POOL_APTCTL_LIVE => some (ofBool (keyHome key == d.mt.slot &&
      (match Tab.find d.pl.segs key with | some s => decide (0 < s.version) | none => false)))
  | .TIER_PINNED_TILES => some d.pinnedTiles
  | .TIER_CACHED_TILES => some (Tab.count d.fl.map fun x => x.resident && !x.pinned)
  | .TIER_DIRTY_TILES => some d.dirtyTiles
  | .TIER_HELD_TILES => some (min 36992 d.heldTiles.length)
  | .TIER_PUSE_TILES => some (d.allocPins (some rec) + Tab.get 0 d.fl.packs rec)
  | .TIER_FUSE_TILES => some (d.allocated (some rec))
  | .OPT_STALL_CYCLES => some (min (2 ^ 64 - 1) (d.rg .OPT_STALL_CYCLES + (match d.fl.stallAt with
    | some a => (d.now - a) * 3 / 2
    | none => 0)))
  | .OPT_USE_COUNT => some (min 32768 d.fl.ops.length)
  | .SLED_HEALTH_SPARE => some (Tab.get ({} : Health) d.fl.health inst).spareMille
  | .SLED_HEALTH_WEAR => some (d.wear inst).1
  | .SLED_TEMPH_SECONDS => some ((Tab.get ({} : Health) d.fl.health inst).temp.getD rec 0)
  | .FTL_JOURNAL_DIRTY_KIB => some (4 * d.dirtyCount)
  | .FTL_SLC_USED_TILES => some d.bufUsed
  | .FTL_TBOUND_US => some (if d.fl.format.isNone then 0
      else ceilDiv (d.tBound (d.rg .FTL_JOURNAL_BOUND_MIB * 1048576)) 1000)
  | _ => none

/-- Whole bytes of a Pacer's tokens. -/
def Dev.pacerBytes (d : Dev) (k : Nat) : Nat :=
  match Tab.find d.pacers k with | some p => p.tokens / 65536 | none => 0

/-- Table 18.9: token fields of a subscriber; subscriber 1,024 shows the Relay Pacers. -/
def Dev.svcTok (d : Dev) (sub k : Nat) : Nat :=
  if sub = 1024 then (if k < 2 then d.pacerBytes (relayPacer k) else 0) else d.pacerBytes (pacerKey sub k)

/-- A bit for each service whose queue of a subscriber satisfies a test of its head. -/
def Dev.urgentBits (d : Dev) (sub : Nat) : Nat :=
  sum ((List.range 8).map fun s => ofBool ((List.range 4).any fun o =>
    match (Tab.find d.queues (queueKey o sub s)).getD [] with | f :: _ => f.urgent | [] => false) * 2 ^ s)

/-- Tables 18.9, 18.10: the traffic manager and the Ethernet ports. -/
def Dev.fabricView (d : Dev) (f : Fld) (inst rec : Nat) : Option Nat :=
  let o := d.outlet rec
  match f with
  | .TM_INFO_SUBS => some ((d.bibs.filter fun p => Tab.has d.pacers (pacerKey p.1 8)).length)
  | .TM_OCFG_OVERHEAD => some (unsigned 9 o.overhead)
  | .TM_OCFG_PROMO => some o.promoShare
  | .TM_ORATE_MBPS => some o.rate
  | .TM_GCL_COUNT => some o.gates.length
  | .TM_OLAT_NS => some (if rec < 2 then 0 else Config.outletLatency rec)
  | .TM_PBUCKET_NS => some (d.bucketNow rec / 1000)
  | .TM_SUBTOK_BYTES => some (if rec = 1024 then 0 else d.pacerBytes (pacerKey rec 8))
  | .TM_SVCTOK0_BYTES => some (d.svcTok rec 0)
  | .TM_SVCTOK1_BYTES => some (d.svcTok rec 1)
  | .TM_SVCTOK2_BYTES => some (d.svcTok rec 2)
  | .TM_SVCTOK3_BYTES => some (d.svcTok rec 3)
  | .TM_SVCTOK4_BYTES => some (d.svcTok rec 4)
  | .TM_SVCTOK5_BYTES => some (d.svcTok rec 5)
  | .TM_SVCTOK6_BYTES => some (d.svcTok rec 6)
  | .TM_SVCTOK7_BYTES => some (d.svcTok rec 7)
  | .TM_SUBST_URGENT => some (d.urgentBits rec)
  | .TM_SUBST_CONTR => some (sum ((List.range 8).map fun s => ofBool (d.contracted rec s) * 2 ^ s))
  | .ETH_CFG_MAXFRAME => some (d.outlet inst).maxFrame
  | .ETH_CFG_MODE => some (d.outlet inst).mode
  | .ETH_MAC_ADDR => some (if inst = 0 then d.fuses.mac0 else d.fuses.mac1)
  | .ETH_LAT_NS => some (Config.outletLatency inst)
  | _ => none

/-- Table 19.11: Relay and the meet. -/
def Dev.meetView (d : Dev) (f : Fld) (rec : Nat) : Option Nat :=
  let m := Tab.find d.mt.members rec
  match f with
  | .RLY_ID_COUNT => some (if d.mt.on then d.mt.members.length else 0)
  | .RLY_ID_SLOT => some d.mt.slot
  | .RLY_ID_ANCHOR => some d.mt.anchor
  | .RLY_PORT_UDP => some d.mt.port
  | .RLY_EPOCH_BATON => some (d.mt.baton % 2 ^ 32)
  | .RLY_EPOCH_RESTART => some (d.mt.restart % 2 ^ 32)
  | .RLY_STAT_HOLDER => some (d.mt.holder.getD 0)
  | .RLY_STAT_STATE => some (if d.mt.fenced then 3 else (match Tab.find d.mt.members d.mt.slot with | some x => x.state | none => 2))
  | .RLY_MEM_ELEVEL => some (match m with | some x => x.elevel | none => 0)
  | .RLY_MEM_SLEVEL => some (match m with | some x => x.slevel | none => 0)
  | .RLY_MEM_STATE => some (match m with | some x => x.state | none => if d.mt.on then 0 else 2)
  | .RLY_INTR_NS => some (d.rg .RLY_INTR_NS + (match d.mt.intrFrom with | some t => d.now - t | none => 0))
  | .RLY_MEMINTR_US => some (match m with | some x => (x.intr + (match x.intrFrom with | some t => d.now - t | none => 0)) / 1000 | none => 0)
  | .RLY_MEMLAST_TIME => some (match m with | some x => x.hbAt | none => 0)
  | _ => none

/-- The first value given. -/
def firstSome : List (Option Nat) → Option Nat
  | [] => none
  | some v :: _ => some v
  | none :: r => firstSome r

/-- A register field as a read finds it, before the read has any effect. -/
def Dev.view (d : Dev) (f : Fld) (inst rec : Nat) : Nat :=
  if f.info.acc = .wo then 0
  else
    match firstSome [d.idView f rec, d.refView f rec, d.bibView f inst rec, d.indexView f inst rec, d.infView f inst,
        d.tierView f inst rec, d.fabricView f inst rec, d.meetView f rec, d.panelView f rec] with
    | some v => v % f.top
    | none => d.rg f inst rec

/-! ## The Start List as bytes (R78 to R82, R90) -/

def ofBits (a b : Bool) : Nat := ofBool a + 2 * ofBool b

/-- Table 03.4. -/
def SlEnt.bytes (e : SlEnt) : Bytes :=
  le 2 e.type ++ le 2 e.inst ++ le 2 0x0100 ++ le 1 e.domain ++ le 1 (ofBits e.off e.rwl) ++ le 8 e.base ++ le 8 e.size ++
  le 2 e.parent ++ le 1 e.part ++ le 1 e.lag ++ le 1 e.bar ++ le 3 0

/-- Table 03.3: the header. -/
def slHeader (count crc seq state serial : Nat) : Bytes :=
  le 4 0x4C534A59 ++ le 2 1 ++ le 2 count ++ le 4 crc ++ le 4 seq ++ le 1 state ++ le 1 32 ++ fill 6 0 ++ le 8 serial ++ fill 32 0

/-- The bytes of the entries. -/
def StartList.entBytes (x : StartList) : Bytes := (x.ents.map SlEnt.bytes).flatten

/-- R80: the CRC over header and entries. -/
def StartList.crc (x : StartList) : Nat := crc32 (slHeader x.ents.length 0 x.seq 0 x.serial ++ x.entBytes)

/-- R79: a Start List that is valid: header and entries; 0 while none has been written. -/
def StartList.bytes (x : StartList) : Bytes :=
  if x.seq = 0 && x.ents.isEmpty then [] else slHeader x.ents.length x.crc x.seq 0 x.serial ++ x.entBytes

/-- R90: the Start List while it is rewritten, after `x.phase` of the five steps, from `x` into `y`. What the step at work
writes reads old or new, each byte of the entries and each header field by itself: free values of the read `n`. -/
def StartList.between (x y : StartList) (n : Nat) : Bytes :=
  let pick (step place : Nat) (old new : Nat) : Nat :=
    if step ≤ x.phase then new else if step = x.phase + 1 && Config.rewriteNew n place then new else old
  let header := slHeader (pick 2 0 x.ents.length y.ents.length) (pick 3 1 x.crc y.crc) (pick 4 2 x.seq y.seq) (ofBool (0 < x.phase))
    (pick 3 3 x.serial y.serial)
  let old := x.entBytes
  let new := y.entBytes
  let len := max old.length new.length
  let mixed (i : Nat) (p : Byte × Byte) : Byte := BitVec.ofNat 8 (pick 2 (64 + i) p.1.toNat p.2.toNat)
  header ++ (List.zip (List.range len) (List.zip (fit len old) (fit len new))).map fun p => mixed p.1 p.2

/-! ## Reads (R15, R72 to R77, R139, R157, R544, Table 00.3)

Beside the blocks of the Start List, numbers stand for the places that a host reaches outside it: 0x100 the BAR0 of a VF of
the port (the instance is the VF), 0x102 the BAR2 of PF0, 0x103 the BAR2 of a VF. -/

/-- A place outside the block space. -/
def outsideBlocks (blk : Nat) : Bool := blk = 0x100 || blk = 0x102 || blk = 0x103

/-- RCV registers on port B read 0 (R544). -/
def hiddenOn (port : Nat) (f : Fld) : Bool :=
  port = 1 && (f = .RCV_ADDR_ADDR || f = .RCV_LEN_BYTES || f = .RCV_CMD_STORE || f = .RCV_CMD_GO || f = .RCV_STAT_STATE)

/-- R139, Table 06.2: half of a window's status. -/
def Dev.statHalf (d : Dev) (k off : Nat) : Nat :=
  let v := (d.win k).stat
  if off % 8 = 4 then v / 2 ^ 32 else v % 2 ^ 32

/-- The value of a register. -/
def Dev.regValue (d : Dev) (port : Nat) (fs : List (Fld × Nat)) (inst : Nat) : Nat :=
  sum (fs.map fun p => if hiddenOn port p.1 then 0 else d.view p.1 inst p.2 * 2 ^ p.1.info.lo)

/-- RC fields are cleared by the read; a hardware event of the same cycle is kept (Table 00.3). OPT_PEAK shows the most
entries since the last read, so it restarts at those in use. -/
def Dev.clearRc (d : Dev) (fs : List (Fld × Nat)) (inst hw : Nat) : Dev :=
  fs.foldl (fun d p =>
    if p.1.info.acc = .rc then
      d.setRg p.1 (min (p.1.top - 1) (if p.1 = .OPT_PEAK_COUNT then max hw d.fl.ops.length else hw)) inst p.2
    else d) d

/-- Four bytes of a block's registers at an offset: of the register there, or the high half of the one before; byte-wide
registers stand side by side (Table 09.4). -/
def Dev.regHalf (d : Dev) (port blk inst off : Nat) : Nat :=
  if blk = 0x31 && 0x40 ≤ off && off < 0x80 then sum ((List.range 4).map fun i => d.view .STR_MAP_OWNER inst (off - 0x40 + i) * 256 ^ i)
  else if fieldsAt blk off != [] then d.regValue port (fieldsAt blk off) inst % 2 ^ 32
  else if off ≥ 4 && reg64 (fieldsAt blk (off - 4)) then d.regValue port (fieldsAt blk (off - 4)) inst / 2 ^ 32
  else 0

/-- Four aligned bytes as a host reads them. A VF's BAR0 holds the service windows, which read as their status, and VF_INFO
(R77, R139); the ADMIN block holds a window too (R157); BAR2 the MSI-X structures, and on PF0 the boot registers (R544). -/
def Dev.word4 (d : Dev) (port blk inst off : Nat) : Nat :=
  if blk = 0x100 then
    if off < 0x10000 then
      (match d.vfBib port inst with
       | some (b, path) => d.statHalf (bibWin b path (off / 0x2000)) off
       | none => 0)
    else if off = 0x10000 || off = 0x10004 then d.regValue port ((Fld.ofBlk 0x100).map fun f => (f, inst)) port / 2 ^ (8 * (off % 8)) % 2 ^ 32
    else 0
  else if blk = 0x103 then d.msixWord port inst off
  else if blk = 0x102 then (if off < 0x1800 then d.msixWord port 0 off else d.regHalf port blk 0 off)
  else if blk = 7 && off < 0x2000 then d.statHalf (pf0Win inst) off
  else d.regHalf port blk inst off

/-- A read of `size` bytes at an offset of a block or a BAR: the value, then cleared where it is RC. A read that is not
naturally aligned is R76's in the block space, and 0 elsewhere; a VF that is not enabled does not answer (R72). -/
def Dev.readReg (d : Dev) (port blk inst off size hw : Nat) : Dev :=
  let whole := (size = 4 || size = 8) && off % size = 0
  if outsideBlocks blk then
    if blk != 0x102 && !d.vfOn port inst then d.emit (.unsupported port)
    else
      let v := if !whole then 0 else d.word4 port blk inst off + (if size = 8 then d.word4 port blk inst (off + 4) * 2 ^ 32 else 0)
      d.answerRead port (le size v)
  else if !whole || !d.blockOpen blk inst then d.strayAccess port false size
  else
    let v := d.word4 port blk inst off + (if size = 8 then d.word4 port blk inst (off + 4) * 2 ^ 32 else 0)
    let d := d.clearRc (fieldsAt blk off) inst hw
    let d := if size = 8 then d.clearRc (fieldsAt blk (off + 4)) inst 0 else d
    d.answerRead port (le size v)

end Sys2Proof.Machine
end

