-- ==== Sys2Proof/Machine/StartList.lean ====
section
/-!
DEFINITION. The Start List that Cerone writes (spec file 03, R78 to R91, R568).
-/
namespace Sys2Proof.Machine

/-- Table 03.5: the instances that exist under every image, by type. -/
def slFixed : List (Nat × Nat) :=
  [(0x01, 1), (0x02, 1), (0x03, 1), (0x04, 1), (0x05, 1), (0x06, 2), (0x07, 2), (0x10, 12), (0x11, 96), (0x12, 16), (0x13, 1),
   (0x20, 32), (0x21, 1), (0x22, 64), (0x23, 1), (0x24, 1), (0x30, 8), (0x31, 128), (0x40, 4), (0x41, 32), (0x42, 1),
   (0x43, 1), (0x50, 1), (0x51, 2), (0x52, 1), (0x53, 1), (0x60, 1), (0x61, 1), (0x62, 1), (0x63, 1), (0x65, 1)]

/-- Every (type, instance): those, HEAT and SIDE for each hosted heat, APT with BAR4 and a POOL section. -/
def slInstances (heats : Nat) (apt : Bool) : List (Nat × Nat) :=
  (slFixed ++ [(0x32, heats), (0x33, heats), (0x64, ofBool apt)]).flatMap fun (p : Nat × Nat) => (List.range p.2).map fun i => (p.1, i)

/-- Table 03.5: the parent. -/
def slParent (ty inst : Nat) : Option (Nat × Nat) :=
  if ty = 0x01 then none
  else if ty = 0x07 then some (0x06, inst)
  else if ty = 0x11 then some (0x10, inst / 8)
  else if ty = 0x31 then some (0x30, inst / 16)
  else if ty = 0x33 then some (0x32, inst)
  else if ty = 0x41 then some (0x40, inst / 8)
  else if ty = 0x64 then some (0x63, 0)
  else some (0x01, 0)

/-- How many parents stand above a block. -/
def slDepth (ty : Nat) : Nat := if ty = 1 then 0 else if [0x07, 0x11, 0x31, 0x33, 0x41, 0x64].contains ty then 2 else 1

/-- Table 03.8: SIZE. -/
def slSize (ty : Nat) : Nat :=
  if ty = 0x03 || ty = 0x61 then 0x51000
  else if ty = 0x53 then 0x2000 else if ty = 0x60 then 0x9000 else if ty = 0x07 then 0x4000
  else if ty = 0x50 then 0x12000 else if ty = 0x62 then 0x5000 else if ty = 0x64 then 0x1000000000 else 0x1000

/-- Tables 03.6 and 03.8: DOMAIN. -/
def slDomain (ty inst : Nat) : Nat :=
  if [0x01, 0x02, 0x03, 0x04, 0x05, 0x40, 0x53, 0x60, 0x65].contains ty then 0x60
  else if ty = 0x06 || ty = 0x07 then 0x40 + inst
  else if [0x12, 0x13, 0x24, 0x42].contains ty then 0x01
  else if ty = 0x30 then 0x10 + inst
  else if ty = 0x31 then 0x20 + inst / 16
  else if ty = 0x41 then 0x30
  else if ty = 0x51 then 0x50 + inst
  else if ty = 0x52 then 0x70 else 0x00

/-- Table 03.6: LAG. -/
def slLag (ty : Nat) : Nat := if ty = 0x31 then 7 else 4

/-- R89: blocks that need a course image; the spec does not list them (DEDUCED, log 68). -/
def needsImage (ty : Nat) : Bool := [0x10, 0x11, 0x12, 0x20, 0x21, 0x22, 0x23, 0x31, 0x53, 0x61, 0x62, 0x63].contains ty

/-- The partition that owns a tile, a Walk engine or a selector; a tile group or a Stride engine where one partition owns all
its tiles or slices (DEDUCED from Table 03.4, log 129). -/
def slPart (parts : List Part) (slices : Bytes) (ty inst : Nat) : Option Nat :=
  if ty = 0x31 then
    (parts.find? fun p => (sub slices (64 * inst) 64).length = 64 && (sub slices (64 * inst) 64).all fun b => b.toNat == p.num).map (·.num)
  else
    (parts.find? fun p => (ty = 0x10 && p.tiles / 2 ^ (8 * inst) % 256 = 255) || (ty = 0x11 && bit p.tiles inst)
      || (ty = 0x20 && bit p.walk inst) || (ty = 0x22 && bit p.podium inst)).map (·.num)

/-- R84: powered down, or in want of an image. -/
def slOff (loaded : Bool) (parts : List Part) (ty inst : Nat) : Bool :=
  if loaded then (ty = 0x11 || ty = 0x20 || ty = 0x22) && (slPart parts [] ty inst).isNone else needsImage ty

/-- The order of the layout: what is shared, then each partition's range; parents before children; then Cerone's own
order (log 32). -/
def slRank (seq : Nat) (parts : List Part) (slices : Bytes) (p : Nat × Nat) : Nat :=
  let group := match slPart parts slices p.1 p.2 with | some n => n + 1 | none => 0
  (((group * 4 + slDepth p.1) * 2 ^ 32 + Config.layoutRank seq p.1 p.2 % 2 ^ 32) * 65536 + p.1) * 65536 + p.2

/-- The entries in order, with their places; `base` is the next free offset in BAR0. -/
def slPlace (loaded : Bool) (parts : List Part) (slices : Bytes) (order : List (Nat × Nat)) : Nat → List (Nat × Nat) → List SlEnt
  | _, [] => []
  | base, (ty, i) :: r =>
    let off := slOff loaded parts ty i
    let apt := ty = 0x64
    let e : SlEnt :=
      { type := ty, inst := i, domain := slDomain ty i, off := off, rwl := (Fld.ofBlk ty).any fun f => f.info.acc == .rwl
        base := if off || apt then 0 else base, size := if off then 0 else slSize ty
        parent := match slParent ty i with | some p => (findIdx? (· == p) order).getD 0xFFFF | none => 0xFFFF
        part := (slPart parts slices ty i).getD 0xFF, lag := slLag ty, bar := if apt then 4 else 0 }
    e :: slPlace loaded parts slices order (if off || apt then base else base + slSize ty) r

/-- A layout. -/
def slEntries (seq : Nat) (loaded : Bool) (parts : List Part) (slices : Bytes) (heats : Nat) (apt : Bool) : List SlEnt :=
  let order := sortBy (fun a b => decide (slRank seq parts slices a < slRank seq parts slices b)) (slInstances heats apt)
  slPlace loaded parts slices order 0x10000 order

/-- R81, R88: the layout that follows the one that stands. -/
def Dev.nextLayout (d : Dev) (loaded : Bool) (parts : List Part) (slices : Bytes) (serial heats : Nat) (pool : Bool) : StartList :=
  let seq := if d.sl.ents.isEmpty then 1 else (d.sl.seq + 1) % 2 ^ 32
  { seq := seq, serial := serial, ents := slEntries seq loaded parts slices heats (pool && d.rg .ID_CAP0_APT = 1) }

/-- R89, R90: Cerone writes a layout. -/
def Dev.writeLayout (d : Dev) (loaded : Bool) (serial heats : Nat) (pool : Bool) : Dev :=
  { d with sl := d.nextLayout loaded d.parts d.sliceMap serial heats pool }

/-- R90: a read of the Start List in APPLYING finds a rewrite that has come some steps further, the last excepted, which ends
APPLYING here (DESIGN CHOICE, log 88); `n` the draw of the read. -/
def Dev.rewriting (d : Dev) (n : Nat) : Dev :=
  if d.loader != 4 then d
  else { d with sl := { d.sl with phase := min 4 (d.sl.phase + Config.rewriteSteps n % 5) } }

/-- The Start List as a read finds it. -/
def Dev.startBytes (d : Dev) (n : Nat) : Bytes :=
  if d.loader = 4 && 0 < d.sl.phase then
    let x := readImage d.ld.image
    d.sl.between (d.nextLayout true x.parts x.slices x.serial x.heats.length x.pool.isSome) n
  else d.sl.bytes

end Sys2Proof.Machine
end

