-- ==== Sys2Proof/Machine/Apply.lean ====
section
/-!
DEFINITION. What a load does to the node (spec file 02, R66 to R69): work stopped in DRAINING, and the steps of APPLYING,
with the parts that other chapters give to it (R120, R183, R340, R376, R399, R411, R439, R449, R452, R493, R508).
-/
namespace Sys2Proof.Machine

/-! ## Work that DRAINING ends (R66) -/

/-- A heat whose work in progress is dropped. The groups that replicas share stay in a meet. -/
def Heat.stopped (meet : Bool) (h : Heat) : Heat :=
  let h := { h with opens := [], early := [], stage := {}, pausing := false }
  if meet then h else { h with closed := [], recv := [], dones := [] }

/-- Nothing that the ended requests had under way goes on. -/
def Dev.stopWork (d : Dev) : Dev :=
  let meet := d.mt.on
  let d := d.setIx fun x => { x with
    heats := Tab.mapV x.heats fun _ h => h.stopped meet
    sqs := [], groups := [], batches := [], engines := [], lists := [], srch := [], held := [], sentUpd := [] }
  let d := (Tab.keys d.em.migs).foldl Dev.stopMig d.stopSteps
  let d := d.setEm fun x => { x with jobs := [], gathers := [] }
  let d := (Tab.keys d.inf.passes).foldl (fun d p => d.stopPass p ST_FENCED) d
  let d := d.setInf fun x => { x with queue := [], passes := [], jobs := [], rows := [] }
  let d := (Tab.vals d.pl.ops).foldl (fun d o => match o.who with
    | .req _ => d
    | _ => d.poolAnswer o ST_FENCED 0 []) d
  let back (b : PBlock) : PBlock := { b with place := if b.place = 3 then 2 else b.place }
  let d := d.setPl fun x => { x with ops := [], jobs := [], blocks := Tab.mapV x.blocks fun _ b => back b }
  let tileWrite (o : FOp) : Bool := match o.why with | some (.tileWrite _ _) => true | _ => false
  let d : Dev := { d with fl := { d.fl with
    jobs := [], stalled := [], wait := d.fl.wait.filter fun o => !tileWrite o
    ops := Tab.mapV d.fl.ops fun _ o => { o with waiters := [] }
    map := Tab.mapV d.fl.map fun _ t => { t with holds := 0 } } }
  let d := d.setMt fun x => { x with waits := [] }
  let alive (m : Dma) : Bool := match Tab.find d.reqs m.req with | some q => !q.ended | none => true
  { d with dmas := Tab.keep d.dmas fun _ m => alive m
           bufs := Tab.keep d.bufs fun n _ => d.dmas.any fun p => p.2.buf == n && alive p.2
           quotes := [], keyJobs := if d.fuseBusy then d.keyJobs.take 1 else [] }

/-! ## Registers (R67 step 1) -/

/-- The field of a place in the store of registers. -/
def keyNum (k : Nat) : Nat := k / 4294967296
def keyInst (k : Nat) : Nat := k / 65536 % 65536
def keyRec (k : Nat) : Nat := k % 65536

/-- The types of blocks that have registers. -/
def regBlocks : List Nat := slFixed.map (·.1) ++ [0x32, 0x33]

/-- The numbers of the fields of some blocks that satisfy a test. -/
def fieldNums (blks : List Nat) (p : Fld → Bool) : List Nat := (blks.flatMap fun b => (Fld.ofBlk b).filter p).map Fld.num

def isRwl (f : Fld) : Bool := f.info.acc = .rwl

/-- Registers of some blocks are dropped, or move to another instance. -/
def moveRegs (regs : Tab Nat) (nums : List Nat) (place : Nat → Nat → Option (Nat × Nat)) : Tab Nat :=
  regs.foldl (fun t p =>
    if nums.contains (keyNum p.1) then
      match place (keyInst p.1) (keyRec p.1) with
      | some (i, r) => Tab.ins t ((keyNum p.1 * 65536 + i) * 65536 + r) p.2
      | none => t
    else Tab.ins t p.1 p.2) []

/-- One entry of REGISTERS: a write of its register (R56), which for a PF0 admin ring acts on the ring (R158). -/
def Dev.putReg (d : Dev) (e : RegEnt) : Dev :=
  if e.blk = 7 && e.off = 0x2000 then d.admBase e.inst e.value
  else if e.blk = 7 && e.off = 0x2008 then d.admCfg e.inst e.value
  else (fieldsAt e.blk e.off).foldl (fun d p =>
    if p.1.info.acc = .rwl || p.1.info.acc = .rw then d.setRg p.1 (bits e.value p.1.info.hi p.1.info.lo) e.inst p.2 else d) d

/-- R67 step 1: every RWL register at its reset value, then the REGISTERS section. -/
def Dev.applyRegs (d : Dev) (x : Image) : Dev :=
  let nums := fieldNums regBlocks isRwl
  x.regs.foldl Dev.putReg { d with regs := moveRegs d.regs nums fun _ _ => none }

/-! ## Heats, tables, pool, allocations (R68, R69, R340, R376, R399, R411) -/

/-- R68: two entries of HEATS that match. -/
def Heat.sameEntry (a b : Heat) : Bool :=
  a.number == b.number && a.role == b.role && a.code == b.code && a.degree == b.degree && a.cap == b.cap && a.sideCap == b.sideCap

/-- R69: the old image, if there is one, is the one that the flash tier records. -/
def Dev.oldHeats (d : Dev) : List Heat := match d.fl.recorded with | some r => readHeats r.heats [] | none => []

/-- The copy of a heat that may be kept, with the index at which it stood: the one in service, or at the first load after
a node reset the one that recovery left. -/
def Dev.oldCopy (d : Dev) (n : Nat) : Option (Nat × Heat) :=
  if d.imageLoaded then d.ix.heats.find? fun p => p.2.number == n
  else (Tab.find d.fl.heatHome n).map fun h => (0xFFFF, h)

/-- R68, R69, R183: a heat of the new image, with the index at which its kept copy stood. -/
def Dev.newHeat (d : Dev) (member : Bool) (e : Heat) : Heat × Option Nat :=
  match d.oldHeats.find? fun o => o.sameEntry e, d.oldCopy e.number with
  | some _, some (j, h) =>
    ({ h with copies := e.copies, scanFrac := e.scanFrac, pinned := e.pinned, role := if member then h.role else e.role
              started := member && h.started, state := if member then h.state else 0, tokens := 64000000000
              tokensAt := d.now }, some j)
  | _, _ => ({ e with bornAt := d.now, empty := true }, none)

/-- The heats of the new image take their places; those that are not kept leave nothing behind. -/
def Dev.applyHeats (d : Dev) (x : Image) (member : Bool) : Dev :=
  let hs := x.heats.map (d.newHeat member)
  let kept := (hs.filter fun p => p.2.isSome).map fun p => p.1.number
  let place (i r : Nat) : Option (Nat × Nat) := (findIdx? (fun p : Heat × Option Nat => p.2 == some i) hs).map fun n => (n, r)
  let d : Dev := { d with
    regs := moveRegs d.regs (fieldNums [0x32, 0x33] fun f => !isRwl f) place
    fl := { d.fl with
      heatHome := [], journal := d.fl.journal.filter fun j => kept.contains j.heat
      map := d.fl.map.filter fun p => decide (2 ^ 42 ≤ p.1) || kept.contains (p.1 / 2 ^ 32) } }
  d.setIx fun y => { y with pre := x.pre, hosting := !x.raw.heats.isEmpty, heats := List.zip (List.range hs.length) (hs.map (·.1)), hedges := [], turn := 0 }

/-- A table as its entry gives it. -/
def Table.entry (t : Table) : Table := { t with applied := 0, steps := [], served := 0, hot := [] }

/-- R340. -/
def Dev.applyEmbed (d : Dev) (x : Image) : Dev :=
  let same := match d.fl.recorded with | some r => r.members == x.raw.members | none => false
  let e := x.emb.getD { tables := [] }
  let keeps (t : Table) : Option (Nat × Table) := if same then d.em.tables.find? fun p => p.2.entry == t.entry else none
  let kept := ((Tab.vals e.tables).filter fun t => (keeps t).isSome).map (·.num)
  let place (i r : Nat) : Option (Nat × Nat) := (e.tables.find? fun p => match keeps p.2 with | some q => q.1 == r | none => false).map fun p => (i, p.1)
  let counters := fieldNums [0x62] fun f => !isRwl f && f.info.stride != 0
  let d : Dev := { d with
    regs := moveRegs d.regs counters place
    fl := { d.fl with
      rows := d.fl.rows.filter fun p => kept.contains (p.1 / 2 ^ 40)
      rowHome := d.fl.rowHome.filter fun p => kept.contains (p.1 / 2 ^ 40)
      steps := d.fl.steps.filter fun s => kept.contains s.table
      map := d.fl.map.filter fun p => !(2 ^ 50 ≤ p.1 && p.1 < 2 ^ 60) || kept.contains ((p.1 - 2 ^ 50) / 2 ^ 40) } }
  let tables := Tab.mapV e.tables fun _ t => match keeps t with | some q => { q.2 with steps := [] } | none => t
  d.setEm fun o => { e with
    tables := tables, order := o.order, redirs := o.redirs.filter fun p => kept.contains (p.1 / 2 ^ 40) }

/-- A pool as its section gives it. -/
def Pool.entry (p : Pool) : Pool := { p with segs := [], blocks := [], ops := [], jobs := [], order := 0 }

/-- R376. -/
def Dev.applyPool (d : Dev) (x : Image) : Dev :=
  let same := match d.fl.recorded with | some r => r.members == x.raw.members | none => false
  let p := x.pool.getD {}
  if same && d.imageLoaded && p.on && d.pl.entry == p.entry then d.poolGc
  else
    let d : Dev := { d with fl := { d.fl with map := d.fl.map.filter fun q => !(2 ^ 60 ≤ q.1 && q.1 < 2 ^ 64) } }
    d.setPl fun o => { p with order := o.order }

/-- R399: allocations whose owner keeps its partition stay; the others are freed. -/
def Dev.applyAllocs (d : Dev) (x : Image) : Dev :=
  let stays (a : Alloc) : Bool := x.bibs.any fun e => e.bib == a.bib && e.part == a.part
  let gone := (d.fl.allocs.filter fun p => !stays p.2).map (·.1)
  let d := gone.foldl Dev.freeAlloc d
  let lo := allocTile 0 0
  { d with fl := { d.fl with
    allocs := Tab.mapV d.fl.allocs fun _ a => { a with named := 0, freeing := if a.freeing = some 0 then a.freeing else none }
    map := Tab.mapV d.fl.map fun k t => if lo ≤ k && t.dirty.isNone then { t with frame := none, pinned := false, age := 0, reading := none } else t } }

/-- R385, R400: the tiles of a table whose hint is PIN_DRAM are pinned, and read in where the flash holds them. -/
def Dev.pinTables (d : Dev) : Dev :=
  ((Tab.vals d.em.tables).filter fun t => t.hint == 0).foldl (fun d t =>
    let lo := tableTile t.num 0
    ((Tab.keys d.fl.map).filter fun k => lo ≤ k && k < lo + 2 ^ 40).foldl (fun d k =>
      if (d.tile k).onFlash && (d.tile k).frame.isNone && !d.lostTile (d.tile k) then d.startRead k 0 .internal else d) d) d

/-- R399: kept PIN_DRAM allocations are read in again, in handle order, up to the new quota. -/
def Dev.repin (d : Dev) : Dev :=
  let hs := (d.fl.allocs.filter fun p => p.2.hint == 0 && p.2.freeing.isNone).map (·.1)
  let d := hs.foldl (fun d h => d.applyHint h 1) d
  hs.foldl (fun d h =>
    match Tab.find d.fl.allocs h with
    | none => d
    | some a =>
      if d.pinDenied a.part a.tiles then d.bump .TIER_PINDENY_COUNT
      else
        let d := d.applyHint h 0
        (d.tilesOf h).foldl (fun d k =>
          let t := d.tile k
          if t.onFlash && t.frame.isNone && t.reading.isNone && !d.lostTile t then d.startRead k 0 .internal else d) d) d

/-- R411: the tier is formatted: nothing of what the flash held is found again. -/
def Dev.formatTier (d : Dev) (raw slc : Nat) : Dev :=
  let blank (b : Blk) : Blk := { erases := b.erases, retired := b.retired }
  { d with fl := { d.fl with
    format := some (raw, slc), map := [], bytes := [], allocs := [], journal := [], steps := [], recorded := none, heatHome := []
    rows := [], rowHome := [], dirtySegs := [], segHome := [], flushes := none, runSeq := none
    targets := Tab.mapV d.fl.targets fun _ y => { y with blks := Tab.mapV y.blks fun _ b => blank b } } }

/-- R68: where the shared pool moves, the copies that stand there are dropped, and the flash tier gives them again; data that
it does not hold yet moves with its tile. -/
def Dev.moveShared (d : Dev) (base : Nat) : Dev :=
  if d.fl.sharedBase = base then d
  else { d with fl := { d.fl with
    sharedBase := base
    map := Tab.mapV d.fl.map fun _ t => if t.dirty.isNone then { t with frame := none, age := 0, reading := none } else t } }

/-- R382, R390, R409 (the blocks of a target that the node uses, in proportion to its raw capacity), R411 to R413, R429: the carve-outs and the registers that show them. -/
def Dev.applyCarve (d : Dev) (x : Image) (digest : Bytes) : Dev :=
  let c := x.carve
  let d := if d.fl.format = some (c.flashRaw, c.slcShare) then d else d.formatTier c.flashRaw c.slcShare
  let d := d.moveShared (x.fixedBytes + x.dramGib * 2 ^ 30)
  let cells := if d.fl.targets.any fun p => p.2.qlc then 4 else 3
  let total := sum ((Tab.vals d.fl.targets).map fun y => y.blocks * y.perBlock * 65536)
  let d : Dev := { d with fl := { d.fl with targets := Tab.mapV d.fl.targets fun _ y => { y with cap := some (y.blocks * c.flashRaw / max 1 total) } } }
  let d := (d.setRg .TIER_TOTAL_TILES x.sharedTiles).setRg .TIER_WORK_TILES (Config.workReserve (leNat digest))
  let d := (d.setRg .FTL_LOGICAL_TILES c.logical).setRg .FTL_SLC_CAP_TILES (c.flashRaw * c.slcShare / 1000 / cells / 65536)
  let d := d.setRg .FTL_JOURNAL_BOUND_MIB (d.effBound c.journal)
  { d with fl := { d.fl with packs := [], internalPins := x.internalPins
                             allocSpace := c.logical - x.heatTiles - x.tableTiles - x.spillTiles } }

/-! ## Bibs, traffic, contracts, the meet (R67 step 4, R109, R120, R439, R449, R452, R508) -/

/-- R120: one bib of the new image. -/
def Dev.applyBib (d : Dev) (map : Nat) (e : BibEnt) (bind : Binding) : Dev :=
  let o := d.bib e.bib
  let moved := o.state = 0 || bind != o.bind
  let d := d.resolveBib e.bib
  let d := d.setBib e.bib
    { o with
      state := if bit e.flags 0 then 2 else 1, pending := 0, gen := if o.state = 0 then o.gen else (o.gen + 1) % 65536, map := map
      part := e.part, bind := bind, old := none, tdGrace := false, tdWait := [], selfReset := bit e.flags 2
      keys := if moved then none else o.keys, qpReady := bind.kind = 2, cnpAt := none, imgOutlet := bind.outlet, oldKeys := none }
  let d := [0, 1, 2, 3, 4, 5, 6, 7].foldl (fun d w =>
    let d := (d.setWin (bibWin e.bib o.path w) {}).setWin (bibWin e.bib (1 - o.path) w) {}
    let d := d.clearRing (bibWin e.bib (1 - o.path) w)
    if moved then d.clearRing (bibWin e.bib o.path w) else d) d
  d.stampVf bind map

/-- R120: every bib; one that the new image does not name is ABSENT. -/
def Dev.applyBibs (d : Dev) (x : Image) : Dev :=
  let map := (d.rg .BIBTAB_MAP_EPOCH + 1) % 65536
  let d := d.setRg .BIBTAB_MAP_EPOCH map
  let news := x.bibs.map fun e => (e, d.keptBind e)
  let gone := (Tab.keys d.bibs).filter fun b => !(x.bibs.any fun e => e.bib == b)
  let d := gone.foldl (fun d b =>
    let d := (d.rings.filter fun p => !winIsPf0 p.1 && winBib p.1 == b).foldl (fun d p => d.clearRing p.1) (d.resolveBib b)
    { d.updBib b fun o => { gen := o.gen, path := o.path, tdStart := o.tdStart, t0 := o.t0, sw := o.sw, hw := o.hw } with
      wins := d.wins.filter fun p => winIsPf0 p.1 || winBib p.1 != b }) d
  news.foldl (fun d p => d.applyBib map p.1 p.2) d

/-- A Pacer as APPLYING leaves it: full. -/
def Pacer.fresh (now : Nat) (r : Nat × Nat × Nat) : Pacer :=
  { rate := r.1, depth := r.2.1, interval := r.2.2, tokens := if r.1 = 0 then 0 else r.2.1 * 65536, refilled := now }

/-- The values of the TRAFFIC section take effect, with the line rates trained (R447, R449, R452, R457). -/
def Dev.applyTraffic (d : Dev) (x : Image) : Dev :=
  let one (s : SubRec) : List (Nat × Pacer) :=
    (pacerKey s.bib 8, Pacer.fresh d.now s.sub)
      :: (List.zip (List.range 8) s.svc).map fun p => (pacerKey s.bib p.1, Pacer.fresh d.now p.2)
  let relay := [0, 1].map fun o => (relayPacer o, Pacer.fresh d.now (x.outlets.getD o {}).relay)
  let pacers := (x.subs.flatMap one ++ relay).foldl (fun t p => Tab.ins t p.1 p.2) ([] : Tab Pacer)
  let outlets := (List.range 4).map fun o =>
    let old := d.outlet o
    { x.outlets.getD o {} with
      bucketAt := d.now, busy0 := old.busy0, busy1 := old.busy1, ctl := old.ctl, ctlAt := d.now, apt := old.apt }
  let d : Dev := { d with
    pacers := pacers, outlets := outlets
    ports := d.ports.map fun p => { p with loadRate := p.rate, loadWidth := p.width, degraded := false } }
  (List.range 4).foldl (fun d o =>
    let cap := d.txTime o (d.lMax o) * 1000
    (d.updOutlet o fun y => { y with bucket := cap }).setRg .TM_GCL_CUR 0 0 o) d

/-- Contracts, with their bounds as admitted, full buckets and counters at 0 (R97, R111). -/
def Dev.applyContracts (d : Dev) (x : Image) (bounds : List Nat) : Dev :=
  let cs := (List.zip (List.range x.contracts.length) x.contracts).map fun p =>
    (p.1, { p.2 with bound := bounds.getD p.1 0, tokens := p.2.burst * 1000000000, at_ := d.now, uid := d.ids + p.1 })
  let nums := [Fld.CONTR_COMPLETED_COUNT, .CONTR_OVER50_COUNT, .CONTR_OVER99_COUNT, .CONTR_OVER999_COUNT, .CONTR_NONCONF_COUNT,
    .CONTR_EXCUSED_COUNT, .CONTR_OVERWORK_COUNT].map Fld.num
  { d with contracts := cs, costs := x.costs, ids := d.ids + cs.length, regs := moveRegs d.regs nums fun _ _ => none }

/-- R493: whether a reload keeps the node a member. -/
def Dev.keepsMember (d : Dev) (x : Image) : Bool :=
  match x.meet with
  | some m => d.mt.on && d.mt.digest == m.digest && d.mt.slot == m.slot && Tab.keys d.mt.members == Tab.keys m.members
  | none => false

/-- R489, R492, R493: the meet of the new image. -/
def Dev.applyMeet (d : Dev) (x : Image) : Dev :=
  match x.meet with
  | none => d.setMt fun o => { slot := x.slot, synced := o.synced, holdover := o.holdover }
  | some m =>
    if d.keepsMember x then
      d.setMt fun o => { o with
        port := m.port, anchor := m.anchor, standby := m.standby, operBib := m.operBib, servePart := m.servePart
        serveRate := m.serveRate, margin := m.margin, hedgeMax := m.hedgeMax, hedgeInit := m.hedgeInit, joinMs := m.joinMs
        retx := m.retx
        members := Tab.mapV o.members fun n y => match Tab.find m.members n with
          | some z => { y with fpr := z.fpr, addrs := z.addrs }
          | none => y }
    else
      let held := d.isHolder
      let o := d.mt
      let d := d.setMt fun _ => { m with
        restart := o.restart, baton := o.baton, synced := o.synced, holdover := o.holdover, coldAt := d.now, heardAt := d.now
        beaconAt := d.now, holder := if held then some m.slot else none }
      if held then d.beginRestart o.restart [] else d

/-! ## APPLYING (R67) -/

/-- Frames of ended bibs aside, everything that APPLYING does, in the order of R67. -/
def Dev.applyImage (d : Dev) (img : Bytes) (bounds : List Nat) : Dev :=
  let x := readImage img
  let dig := imageDigest img
  let member := d.keepsMember x
  let d := d.applyRegs x
  let d : Dev := { d with parts := x.parts, sliceMap := x.slices }
  let d := d.setInf fun y => { y with progs := [] }
  let d := d.applyCarve x dig
  let d := ((d.applyHeats x member).applyEmbed x).applyPool x
  let d := (d.applyAllocs x).applyBibs x
  let d := (d.applyContracts x bounds).writeLayout true x.serial x.heats.length x.pool.isSome
  let d := (d.applyTraffic x).applyMeet x
  let d : Dev := { d with fl := { d.fl with recorded := some x.raw } }
  let d := (d.setRg .CI_SERIAL_SERIAL x.serial).setRg .CI_SECVER_ACTIVE x.secver
  let d := (List.range 8).foldl (fun d i => d.setRg .CI_DIGEST_WORD (word8 dig i) 0 i) d
  ((((d.bump .CI_LOADS_COUNT).measure 2 none dig).repin).pinTables.kick).settle

end Sys2Proof.Machine
end

