-- ==== Sys2Proof/Machine/Loader.lean ====
section
/-!
DEFINITION. The course image loader (spec file 02, R62 to R67) and contract changes (spec file 04, R108 to R110).
-/
namespace Sys2Proof.Machine

def Dev.setLd (d : Dev) (f : Loader → Loader) : Dev := { d with ld := f d.ld }

/-- A load ends without a new image: its status, RESULT, and the position of the failure where one is named; the state
returns unchanged (R62, R63, Table 02.10). Where no check failed, CI_REFUSE keeps what it holds: DESIGN CHOICE (log 136). -/
def Dev.loadFails (d : Dev) (st res : Nat) (pos : Option (Nat × Nat)) : Dev :=
  let d := match pos with
    | some (s, e) => (d.setRg .CI_REFUSE_SECTION s).setRg .CI_REFUSE_ENTRY e
    | none => d
  let d := (d.setRg .CI_STATE_STATE d.ld.back).setRg .CI_STATE_LAST_STATUS st
  let d := d.bump .CI_REFUSALS_COUNT
  let r := d.ld.req
  let d := d.setLd fun x => { x with busy := false, req := none, image := [], ready := false }
  match r with
  | some r => d.finish r st res
  | none => d

/-- The image has been copied: the checks run from now on (R63). -/
def Dev.copied (d : Dev) (img : Bytes) : Dev := d.setLd fun x => { x with image := img, ready := true, since := d.now }

/-- R65: the NOR slot, as long as its header says, within the slot. -/
def Dev.norImage (d : Dev) : Bytes := d.norBytes norCi (min 16777216 (u32 (d.norBytes norCi 16) 8))

def Dev.norHasImage (d : Dev) : Bool := u32 (d.norBytes norCi 4) 0 = magicYJCI

/-- A load begins (Table 02.8): CHECKING, and the image is copied. Whether the NOR slot can be read is the device's (R65): a
free value (log 98). -/
def Dev.loadBegins (d : Dev) (req : Option Nat) (fromNor store : Bool) : Dev :=
  let back := d.loader
  let d := (d.setRg .CI_STATE_STATE 1).setLd fun x =>
    { x with busy := true, req := req, fromNor := fromNor, store := store, image := [], ready := false, back := back }
  if fromNor then
    let (n, d) := d.draw
    if Config.norReadFails n then d.loadFails ST_MEDIA_ERROR 3 (some (0xFF, noEntry))
    else if d.norHasImage then d.copied d.norImage else d.loadFails ST_REFUSED_RESOURCE 2 (some (0xFF, noEntry))
  else d

/-- LOAD_IMAGE as admitted (Table 06.7, R62). -/
def Dev.loadImage (d : Dev) (r : Nat) (q : Req) : Dev :=
  let src := u8 q.desc 0x10
  let store := u8 q.desc 0x11
  let len := u32 q.desc 0x14
  let addr := u64 q.desc 0x18
  let bad := !payloadOk [(0x10, 2), (0x14, 12), (0x20, 8)] q.desc || src > 1 || store > 1 || (src = 1 && (len != 0 || addr != 0))
  match pickFail (failIf bad ST_BAD_DESC ++ failIf (!winIsPf0 q.win) ST_NOT_OWNER
      ++ failIf (q.loader = 1 || q.loader = 2 || d.loader = 1 || d.loader = 2) ST_REFUSED_RESOURCE 1) with
  | some (st, res) => (d.bump .CI_REFUSALS_COUNT).complete r st res
  | none =>
    let d := d.loadBegins (some r) (src = 1) (store = 1)
    if src = 1 then d
    else if len = 0 || len > 16777216 then d.copied []
    else
      let d := d.dmaRead r 0 addr len
      match Tab.find d.reqs r with
      | some q => if q.fails.isEmpty then d else d.loadFails ST_BAD_DESC 0 none
      | none => d

/-- The image has been read from host memory, or its read has failed (R160). -/
def Dev.loadData (d : Dev) (r : Nat) (b : Option Bytes) : Dev :=
  if d.ld.req != some r || d.loader != 1 then d
  else match b with
    | some img => d.copied img
    | none => match Tab.find d.reqs r with
      | some q => d.loadFails (pickStatus q.fails ST_INTERNAL) 0 none
      | none => d

/-- R66: DRAINING with an old image, else APPLYING. -/
def Dev.drainOrApply (d : Dev) : Dev :=
  if d.ld.back = 5 then
    let d := (d.setRg .CI_STATE_STATE 3).setLd fun x => { x with since := d.now }
    let d := d.excuse none
    let d := d.endAll (fun q => q.waiting) ST_FENCED
    let d := d.expireBib none
    d.setIx fun x => { x with heats := Tab.mapV x.heats fun _ h => { h with stage := {} } }
  else d.setRg .CI_STATE_STATE 4

/-- Every check has passed (Table 02.8): STORING, DRAINING or APPLYING. A NOR write still in progress ends first. -/
def Dev.loadPasses (d : Dev) (bounds : List Nat) (tf : Nat) : Dev :=
  let d := d.setLd fun x => { x with bounds := bounds, boundTf := tf }
  if d.ld.store then
    if d.rg .FTL_SUPPLY_NVLOW = 1 then (d.bump .FTL_NVBLK_COUNT).loadFails ST_NV_BLOCKED 0 none
    else
      let d := match d.ld.nor with
        | some img => d.norStore norCi img
        | none => d
      (d.setRg .CI_STATE_STATE 2).setLd fun x => { x with nor := some x.image }
  else d.drainOrApply

/-- R107, R109: a refusal report is written where the command names a buffer for it. -/
def Dev.sendReport (d : Dev) (req : Option Nat) (rep : Bytes) : Dev :=
  match req.bind (Tab.find d.reqs ·), req with
  | some q, some r => if u64 q.desc 0x20 = 0 then d else d.dmaWrite r (u64 q.desc 0x20) rep
  | _, _ => d

/-- Where a failure of admission stands (R569). -/
def admPosition (img : Bytes) (f : AdmFail) : Nat × Nat :=
  ((((imageSection img (if f.ofPart then 1 else 6)).map (·.1)).getD 0xFF), f.index)

/-- R569: where a failure stands that is not one of admission; a NOR slot that fails the layout rules or the signature is named
as a whole (R65). -/
def Dev.failPosition (d : Dev) (f : Fail) : Nat × Nat :=
  if d.ld.fromNor && (f.rank < 100 || 2 ^ 40 ≤ f.rank) then (0xFF, noEntry) else (f.sec, f.entry)

/-- LOADER_CHECKS_DONE (R63). -/
def Dev.checksDone (d : Dev) : Dev :=
  if d.loader != 1 || !d.ld.ready then d
  else
    let img := d.ld.image
    match pickImageFail (d.imageFails img) with
    | some f => d.loadFails f.status 0 (some (d.failPosition f))
    | none =>
      let v := d.imageEnv img
      match v.fails with
      | [] => d.loadPasses v.bounds999 v.tf
      | f :: r => (d.sendReport d.ld.req (refusalReport f (r.length + 1))).loadFails ST_REFUSED_DEADLINE 0 (some (admPosition img f))

/-- ADMISSION_TIMEOUT (R63): only admission can take so long. -/
def Dev.admissionLate (d : Dev) : Dev :=
  if d.loader != 1 || !d.ld.ready || d.now < d.ld.since + 200000000 || !(d.imageFails d.ld.image).isEmpty then d
  else d.loadFails ST_TIMEOUT 0 (some ((((imageSection d.ld.image 6).map (·.1)).getD 0xFF), noEntry))

/-- STORE_END (R64, R65): the NOR write ends. -/
def Dev.storeEnd (d : Dev) : Dev :=
  match d.ld.nor with
  | none => d
  | some img =>
    let d := (d.norStore norCi img).setLd fun x => { x with nor := none }
    if d.loader = 2 then d.drainOrApply else d

/-- Whether work that DRAINING waits for is still running. -/
def Dev.draining (d : Dev) : Bool := d.reqs.any fun p => p.2.live && d.ld.req != some p.1

/-- DRAIN_END (R66). -/
def Dev.drainEnd (d : Dev) : Dev :=
  if d.loader != 3 || (d.draining && d.now < d.ld.since + 2000000) then d
  else
    let keep := d.ld.req
    let d := (d.reqs.filter fun p => !p.2.ended && keep != some p.1).foldl (fun d p => d.endReq p.1 ST_FENCED) d
    let d := d.stopWork.expireBib none
    (d.setLd fun x => { x with changes := [] }).setRg .CI_STATE_STATE 4

/-- APPLYING_END (R67, Table 02.8): the new image is active. -/
def Dev.applyingEnd (d : Dev) : Dev :=
  if d.loader != 4 then d
  else
    let d := d.applyImage d.ld.image d.ld.bounds
    let st := if d.nodeFenced then ST_FENCED else ST_OK
    let d := (d.setRg .CI_STATE_STATE 5).setRg .CI_STATE_LAST_STATUS st
    let d := if d.power = 3 then d.setRg .PWR_STATE_STATE 4 else d
    let r := d.ld.req
    let d := d.setLd fun x => { x with busy := false, req := none, image := [], ready := false, tf := x.boundTf }
    match r with
    | some r => d.complete r st 0
    | none => d

/-! ## Contract changes (R108 to R110) -/

/-- CONTRACT_SET as admitted: it takes its turn (R110), and its buffer is read. -/
def Dev.contractSet (d : Dev) (r : Nat) (q : Req) : Dev :=
  let b := u16 q.desc 0x10
  let n := u8 q.desc 0x12
  let len := u32 q.desc 0x14
  let bad := !payloadOk [(0x10, 3), (0x14, 12), (0x20, 8)] q.desc || b > 1023 || n < 1 || n > 5 || len < 64 * n + 160
  let fails := failIf (!winIsPf0 q.win) ST_NOT_OWNER ++ failIf q.loaderBusy ST_REFUSED_RESOURCE 1
      ++ failIf ((d.bib b).state = 0) ST_REFUSED_RESOURCE 2
  if bad then d.complete r ST_BAD_DESC
  else
    let d := d.setLd fun x => { x with changes := x.changes ++ [(r, none)] }
    (d.updReq r fun q => { q with pre := fails }).dmaRead r 0 (u64 q.desc 0x18) (64 * n + 160)

/-- The entries of a change, and its Pacer record. -/
def changeEntries (n : Nat) (buf : Bytes) : List Bytes := (List.range n).map fun i => sub buf (64 * i) 64
def changePacers (n : Nat) (buf : Bytes) : Bytes := sub buf (64 * n) 160

/-- R108: what refuses a change before its check. -/
def Dev.changeRefusals (d : Dev) (b n : Nat) (buf : Bytes) : List (Nat × Nat) :=
  let es := changeEntries n buf
  let svcs := es.map fun e => u8 e 2
  let rate (e : Bytes) : Nat := u32 e 4
  let p := changePacers n buf
  let s := readSub p
  let lm := match (d.bib b).bind.outlet with
    | some o => d.lMax o
    | none => maxOf ((List.range 4).map d.lMax)
  failIf ((dups svcs) || (es.any fun e => u16 e 0 != b || (rate e > 0 && !contractOk e d.costs.length)
      || (rate e = 0 && (u8 e 2 > 4 || !zeros e 3 61)))
      || s.bib != b || !zeros p 2 14 || !pacerRecOk lm s.sub || s.svc.any fun x => !pacerRecOk lm x) ST_BAD_DESC
    ++ failIf ((d.bib b).state = 0) ST_REFUSED_RESOURCE 2
    ++ failIf (es.any fun e => rate e = 0 && (d.contractOf b (u8 e 2)).isNone) ST_REFUSED_RESOURCE 3

/-- The lowest record that no contract holds (log 66). -/
def freeRecord (t : Tab Contract) : Nat := (List.range (t.length + 1)).find? (fun n => !Tab.has t n) |>.getD 0

/-- R97, R108: one entry of a change takes effect. -/
def Dev.putContract (d : Dev) (e : Bytes) : Dev :=
  let c := readContract e
  match d.contractOf c.bib c.svc with
  | some (n, o) =>
    if c.rate = 0 then { d with contracts := Tab.del d.contracts n }
    else
      let o := o.fill d.now
      { d with contracts := Tab.ins d.contracts n { c with tokens := min (c.burst * 1000000000) o.tokens, at_ := d.now, uid := o.uid } }
  | none =>
    let (n, d) := d.newId
    { d with contracts :=
      Tab.ins d.contracts (freeRecord d.contracts) { c with tokens := c.burst * 1000000000, at_ := d.now, uid := n } }

/-- R453: a Pacer's new record, for its next refill. -/
def Dev.putPacer (d : Dev) (k : Nat) (r : Nat × Nat × Nat) : Dev :=
  let p := (Tab.find d.pacers k).getD {}
  if p.record = r then d else { d with pacers := Tab.ins d.pacers k { p with next := some r, changed := d.now } }

def Dev.putPacers (d : Dev) (s : SubRec) : Dev :=
  (List.zip (List.range 8) s.svc).foldl (fun d p => d.putPacer (pacerKey s.bib p.1) p.2) (d.putPacer (pacerKey s.bib 8) s.sub)

/-- The change at work takes effect in a copy of the state, against which it is checked. -/
def Dev.changed (d : Dev) (n : Nat) (buf : Bytes) : Dev :=
  ((changeEntries n buf).foldl Dev.putContract d).putPacers (readSub (changePacers n buf))

/-- R112: the counters of a bib's records restart at 0, those of freed records with them. -/
def Dev.clearCounters (d : Dev) (recs : List Nat) : Dev :=
  let nums := [Fld.CONTR_COMPLETED_COUNT, .CONTR_OVER50_COUNT, .CONTR_OVER99_COUNT, .CONTR_OVER999_COUNT, .CONTR_NONCONF_COUNT,
    .CONTR_EXCUSED_COUNT, .CONTR_OVERWORK_COUNT].map Fld.num
  { d with regs := moveRegs d.regs nums fun i r => if recs.contains r then none else some (i, r) }

/-- R110: the next change that waits is taken up once its buffer has been read; one that is refused at once, or whose request
has ended, leaves. -/
def Dev.nextChange : Nat → Dev → Dev
  | 0, d => d
  | f + 1, d =>
    match d.ld.changes with
    | [] => d
    | (r, buf) :: rest =>
      let pop (d : Dev) : Dev := d.setLd fun x => { x with changes := rest }
      match Tab.find d.reqs r with
      | none => Dev.nextChange f (pop d)
      | some q =>
        if q.ended then Dev.nextChange f (pop d)
        else
          match buf with
          | none => d
          | some buf =>
            match pickFail (q.pre ++ d.changeRefusals (u16 q.desc 0x10) (u8 q.desc 0x12) buf) with
            | some (st, res) => Dev.nextChange f ((pop d).complete r st res)
            | none => d.setLd fun x => { x with changeAt := d.now }

/-- The buffer of a change has been read, or its read has failed, which ends the change (R160); the first in turn goes on. -/
def Dev.contractData (d : Dev) (r : Nat) (b : Option Bytes) : Dev :=
  let d := if b.isNone then d.finish r ST_OK else d
  let first := d.ld.changes.head?.any fun p => p.1 == r
  let d := d.setLd fun x => { x with changes := x.changes.map fun p => if p.1 == r then (r, b) else p }
  if first then Dev.nextChange (d.ld.changes.length + 1) d else d

/-- The change at work ends, and the next is taken up. -/
def Dev.popChange (d : Dev) : Dev :=
  let d := d.setLd fun x => { x with changes := x.changes.drop 1 }
  Dev.nextChange (d.ld.changes.length + 1) d

/-- CONTRACT_CHECK_DONE (R108, R109). The bounds of every contract that the check covers stand as it gave them. -/
def Dev.changeDone (d : Dev) : Dev :=
  match d.ld.changes with
  | [] => d
  | (r, none) :: _ => if (Tab.find d.reqs r).all fun q => q.ended then d.popChange else d
  | (r, some buf) :: _ =>
    match Tab.find d.reqs r with
    | none => d.popChange
    | some q =>
      if q.ended then d.popChange
      else
        let b := u16 q.desc 0x10
        let n := u8 q.desc 0x12
        let before := (d.contracts.filter fun p => p.2.bib == b).map (·.1)
        let e := d.changed n buf
        let v := e.liveEnv
        match v.changeFails b ((changeEntries n buf).map fun x => u8 x 2) with
        | f :: rest => ((d.sendReport (some r) (refusalReport f (rest.length + 1))).complete r ST_REFUSED_DEADLINE 0).popChange
        | [] =>
          let bounds := List.zip (v.contracts.map (·.1)) v.bounds999
          let fresh (k : Nat) (c : Contract) : Contract :=
            if v.partOf c.bib = v.partOf b then { c with bound := ((bounds.find? fun p => p.1 == k).map (·.2)).getD c.bound } else c
          let e : Dev := { e with contracts := Tab.mapV e.contracts fresh }
          let after := (e.contracts.filter fun p => p.2.bib == b).map (·.1)
          let e := ((e.clearCounters (before ++ after)).bump .CONTR_CHANGES_COUNT).measureChange q
          (e.complete r ST_OK 0).popChange

/-- CONTRACT_CHECK_TIMEOUT (R108): the check has not ended within 20 ms. -/
def Dev.changeLate (d : Dev) : Dev :=
  match d.ld.changes with
  | (r, b) :: _ => if b.isSome && d.ld.changeAt + 20000000 ≤ d.now then (d.complete r ST_TIMEOUT 0).popChange else d
  | [] => d

end Sys2Proof.Machine
end

