-- ==== Sys2Proof/Machine/BootSteps.lean ====
section
/-!
DEFINITION. Boot (spec file 22, R541 to R545): the steps of Table 22.7, recovery of the map and replay of the journals
(file 17, R430, R431), and a recovery load.
-/
namespace Sys2Proof.Machine

/-! ## Step 7 (R430, R431) -/

/-- R431: a commit group of the journal takes effect in a copy as the flash holds it. Inserts whose merge is home are live
already; updates that are done with stay as they are. -/
def Heat.replay (h : Heat) (j : JRec) : Heat :=
  let left := ((List.zip (List.range j.upds.length) j.upds).filter fun p => !j.done.contains p.1).map (·.2)
  let us : List Upd := left.map fun u => { id := 0, kind := u.1, lid := u.2.1, attr := u.2.2.1, code := u.2.2.2, req := none }
  let us := us.filter fun u => !(u.kind == 0 && Tab.get false h.homeMerged u.lid)
  { (h.apply (max h.applied j.epoch) 0 (fun _ => true) us) with started := false }

/-- R431: the commit groups that are replayed; with a start record of the run just ended, those published by its T_E. -/
def Dev.replayed (d : Dev) (te : Option Nat) (j : JRec) : Bool :=
  match te with
  | none => true
  | some t =>
    let pre := match d.fl.recorded with | some r => readPre r.heats | none => {}
    (j.epoch - 4294967296) * (max 1 (pre.interval * 1000)) + pre.publish * 1000 ≤ t

/-- R431: commit groups, by heat and epoch. -/
def Dev.replayGroups (d : Dev) (te : Option Nat) : Dev :=
  let js := d.fl.journal.filter (d.replayed te)
  let home := Tab.mapV d.fl.heatHome fun n h =>
    (sortBy (fun (a b : JRec) => a.epoch < b.epoch) (js.filter fun j => j.heat == n)).foldl Heat.replay h.afterReset
  { d with fl := { d.fl with journal := js, heatHome := home } }

/-- R431: every embedding step whose record is whole is applied again, in order. -/
def Dev.replaySteps (d : Dev) : Dev :=
  d.fl.steps.foldl (fun d s => s.shares.foldl (fun d p =>
    let k := s.table * 2 ^ 40 + p.1
    { d with fl := { d.fl with rows := Tab.ins d.fl.rows k p.2.2, rowHome := Tab.ins d.fl.rowHome k p.2.2 } }) d) d

/-! ## Steps 5 to 8 -/

/-- Step 8 (Table 22.7). -/
def Dev.bootStep8 (d : Dev) : Dev :=
  let d := d.setRg .BOOT_STAT_PHASE 6
  if d.straps.bootMode = 0 && d.norHasImage then d.loadBegins none true false else d

/-- Step 7: what the flush left, the journals, which are replayed, and the run record, which waits for the NV bar (R430, R431). -/
def Dev.bootStep7 (d : Dev) : Dev :=
  let d := d.setRg .BOOT_STAT_PHASE 5
  (d.recoverFlush.replayGroups d.flushOfRun).replaySteps.twice .runRecord

/-- Sleds that step 6 has powered and that are still DISCOVERING. -/
def Dev.undiscovered (d : Dev) : List Nat := (List.range 4).filter fun n => d.sledState n = 1

/-- Step 6 has ended: discovery has ended on every present sled (log 71). -/
def Dev.step6Done (d : Dev) : Bool := d.undiscovered.isEmpty && (List.range 4).any fun n => d.sledState n != 0

/-- The run record has been programmed; with no target that could take it, boot goes on without it: DESIGN CHOICE (log 148). -/
def Dev.runRecorded (d : Dev) : Bool :=
  (d.nextTarget false false).isNone && !d.fl.flushTodo.isEmpty && d.fl.ops.isEmpty
    || d.fl.flushTodo.isEmpty && !((Tab.vals d.fl.ops ++ d.fl.wait).any fun o => o.why == some .runRecord)

/-- Boot goes on as far as it can: after step 6, after the run record of step 7, and at the end of step 8, in READY or, with
an image loaded, in ACTIVE (Tables 22.2 and 22.7). -/
def Dev.bootOn (d : Dev) : Dev :=
  if d.power != 2 then d
  else
    let d := if d.rg .BOOT_STAT_PHASE = 4 && d.step6Done then d.bootStep7 else d
    let d := if d.rg .BOOT_STAT_PHASE = 5 && d.mayProgram then d.startTodo false else d
    let d := if d.rg .BOOT_STAT_PHASE = 5 && d.runRecorded then
        { d with fl := { d.fl with flushTodo := [] } }.bootStep8
      else d
    if d.rg .BOOT_STAT_PHASE = 6 && !d.ld.busy then
      let d := (d.setRg .BOOT_STAT_PHASE 7).setRg .BOOT_STAT_WDOGS 0
      (d.setRg .PWR_BOOTMS_MS (((d.now : Int) - d.relAt).toNat / 1000000)).setRg .PWR_STATE_STATE (if d.imageLoaded then 4 else 3)
    else d

/-- Steps 4 to 6: the firmware runs; the first Start List is written; present sleds are powered. -/
def Dev.firmwareRuns (d : Dev) (img : Bytes) : Dev :=
  let d := (d.bootStep4 img).setRg .PWR_STATE_STATE 2
  let d := (d.writeLayout false 0 0 false).lockPlls.setRg .BOOT_STAT_PHASE 4
  ((List.range 4).filter d.sledPresent).foldl (fun d n =>
    ((d.setRg .PANEL_SLED_PWREN 1 0 n).setSeq n 7).setRg .SLED_STAT_STATE 1 n) d

/-- R542: boot after reset has been released. -/
def Dev.boot (d : Dev) (st : Straps) : Dev :=
  if st.testEn || d.jtagHold || d.thermTrip then d.setRg .PWR_STATE_STATE 1
  else
    let recovery := decide (2 ≤ st.bootMode)
    let (d, ok) := (d.bootStep1 st recovery).bootStep2
    if !ok then d.bootHalt ERR_IDENTITY
    else if recovery then d.setRg .BOOT_STAT_PHASE 8
    else
      let d := d.setRg .BOOT_STAT_PHASE 2
      let img := d.norFirmware
      let err := d.fwError img
      if err != 0 then d.bootHalt err
      else if d.rg .BOOT_STAT_WDOGS ≥ 3 then d.bootHalt ERR_BOOT_LOOP
      else d.firmwareRuns img

/-- Whether reset is about to be released: in RESET, or where State.reset stands (log 12). -/
def Dev.inReset (d : Dev) : Bool := d.power = 1 || (d.fresh && d.power = 2)

/-- BOOT_STEP_OVERRUN (R542): step 6 ends with every sled not yet discovered in FAILED; steps 5 and 7 are a watchdog
expiry; step 8 ends with the loader in NO_IMAGE. -/
def Dev.stepOverrun (d : Dev) : Dev :=
  if d.power != 2 then d
  else
    let ph := d.rg .BOOT_STAT_PHASE
    if ph = 4 then (d.undiscovered.foldl (fun d n => (d.setRg .SLED_STAT_STATE 5 n).setSeq n 0) d).bootStep7
    else if ph = 5 then d.nodeReset CAUSE_WDOG
    else if ph = 6 && d.ld.busy then d.loadFails ST_TIMEOUT 0 none
    else d

/-! ## Recovery (R545) -/

/-- A recovery load fails. -/
def Dev.rcvFails (d : Dev) (err : Nat) : Dev :=
  let d := ((d.setRg .RCV_STAT_STATE 3).setRg .BOOT_STAT_ERROR err).setRg .BOOT_STAT_PHASE 8
  { d with rcv := none }

/-- RCV_CMD is written. -/
def Dev.rcvCmd (d : Dev) (port v : Nat) : Dev :=
  if port != 0 || !bit v 0 || d.power != 7 || d.rg .BOOT_STAT_PHASE != 8 then d
  else
    let d := (d.setRg .BOOT_STAT_PHASE 9).setRg .RCV_STAT_STATE 1
    let len := d.rg .RCV_LEN_BYTES
    let addr := d.rg .RCV_ADDR_ADDR * 64
    if len = 0 then d.rcvFails (d.fwError [])
    else
      let (n, d) := d.newId
      ({ d with rcv := some { dma := n, addr := addr, len := len, store := bit v 1 } } : Dev).emit (.dmaRead (.pcie 0 0) n addr len)

/-- The image runs from step 4, as under BOOT_MODE 0b01. -/
def Dev.rcvRuns (d : Dev) (img : Bytes) : Dev :=
  ({ d with rcv := none } : Dev).setRg .RCV_STAT_STATE 2 |>.firmwareRuns img

/-- The image has been read, or cannot be. -/
def Dev.rcvData (d : Dev) (x : Recovery) (b : Option Bytes) : Dev :=
  match b with
  | none => d.rcvFails ERR_DMA
  | some img =>
    let err := d.fwError img
    if err != 0 then d.rcvFails err
    else if !x.store then d.rcvRuns img
    else if d.rg .FTL_SUPPLY_NVLOW = 1 then d.rcvFails ERR_NV_BLOCKED
    else { d with rcv := some { x with image := img, writing := true } }

/-- RECOVERY_WRITE_DONE: the firmware slot has been written and read back. In HALT nothing follows the write (R532). -/
def Dev.rcvWritten (d : Dev) (ok : Bool) : Dev :=
  match d.rcv with
  | none => d
  | some x =>
    if !x.writing then d
    else if !ok then
      let d := d.cutNor
      if d.power = 7 then d.rcvFails ERR_NOR_WRITE else d
    else
      let d : Dev := { d.norStore norFw x.image with rcv := some { x with writing := false } }
      if d.power = 7 then d.rcvRuns x.image else d

end Sys2Proof.Machine
end

