-- ==== Sys2Proof/Machine/Admit.lean ====
section
/-!
DEFINITION. Admission (R32, R33, R153, R543): which waiting descriptors are taken from their FIFOs, and what each opcode
does from then on; the readiness that ends boot; what goes on of itself after any command.
-/
namespace Sys2Proof.Machine

/-! ## What an opcode does when it is admitted (Table 00.6) -/

/-- NOP (Table 06.6). -/
def Dev.nopAdmit (d : Dev) (r : Nat) (q : Req) : Dev :=
  d.checked r (failIf (!payloadOk [] q.desc) ST_BAD_DESC) fun d => d.complete r ST_OK 0

/-- The work of an admitted request begins. -/
def Dev.begin (d : Dev) (r : Nat) (q : Req) : Dev :=
  match u8 q.desc 0 with
  | 0x10 => d.searchAdmit r q
  | 0x11 => d.searchAdmit r q
  | 0x18 => d.updateAdmit r q
  | 0x19 => d.updateAdmit r q
  | 0x20 => d.progLoad r q
  | 0x21 => d.progFree r q
  | 0x22 => if q.aux = [1] then d.complete r ST_BUDGET_EXHAUSTED 0 else d.runAdmit r q
  | 0x30 => d.embAdmit r q
  | 0x31 => d.embAdmit r q
  | 0x32 => d.embAdmit r q
  | 0x33 => d.embAdmit r q
  | 0x40 => d.poolAdmit r q
  | 0x41 => d.poolAdmit r q
  | 0x48 => d.poolAdmit r q
  | 0x49 => d.poolAdmit r q
  | 0x4A => d.poolAdmit r q
  | 0x4B => d.poolAdmit r q
  | 0x4C => d.poolAdmit r q
  | 0x4D => d.poolAdmit r q
  | 0x4E => d.poolAdmit r q
  | 0x50 => d.tierAlloc r q
  | 0x51 => d.tierFree r q
  | 0x52 => d.tierWrite r q
  | 0x53 => d.tierRead r q
  | 0x54 => d.tierHint r q
  | 0x55 => d.tierPrefetch r q
  | 0x58 => d.tierDiscard r q
  | 0x59 => d.tierScrub r q
  | 0x60 => d.loadImage r q
  | 0x61 => d.contractSet r q
  | 0x62 => d.bibCommand r q 0x62
  | 0x63 => d.bibCommand r q 0x63
  | 0x64 => d.bibCommand r q 0x64
  | 0x65 => d.bibBind r q
  | 0x66 => d.ringSet r q
  | 0x67 => d.faultAck r q
  | 0x68 => d.quote r q
  | 0x69 => d.keyAdmin r q
  | 0x6A => d.logRead r q
  | 0x6B => d.nopAdmit r q
  | _ => d.meetOp r q

/-- R442: a request whose only DMA read lies in no region of its bib has failed at once, as R160 gives. -/
def Dev.noData (d : Dev) (r : Nat) : Dev :=
  match Tab.find d.reqs r with
  | none => d
  | some q =>
    let op := u8 q.desc 0
    if !q.live || q.fails.isEmpty || q.dmas != 0 then d
    else if op = 0x18 || op = 0x20 then d.finish r ST_OK
    else if op = 0x52 then d.tierNoData r
    else d

/-! ## Heads and contexts (R32, R33, R153) -/

/-- R33: the earlier of two heads: by landing, then bib, then window. -/
def headBefore (a b : Nat × Req) : Bool :=
  a.2.landed < b.2.landed || (a.2.landed == b.2.landed && (winBib a.2.win < winBib b.2.win
    || (winBib a.2.win == winBib b.2.win && (winSvc a.2.win < winSvc b.2.win || (winSvc a.2.win == winSvc b.2.win && a.1 < b.1)))))

/-- The earliest of some heads. -/
def earliest : List (Nat × Req) → Option (Nat × Req)
  | [] => none
  | a :: r => some (r.foldl (fun b p => if headBefore p b then p else b) a)

/-- The next head to be admitted, with its context: those that need none, then those that a reserve serves, then the shared
remainder. -/
def Dev.nextHead (d : Dev) : Option ((Nat × Req) × Nat) :=
  let hs := d.waitingHeads.filter fun p => d.mayAdmit p.1 p.2
  let free := hs.filter fun p => !needsCtx (u8 p.2.desc 0)
  let need := hs.filter fun p => needsCtx (u8 p.2.desc 0)
  match earliest free, earliest (need.filter fun p => d.ctxFor p.2.part == 1), earliest (need.filter fun p => d.ctxFor p.2.part == 2) with
  | some p, _, _ => some (p, 0)
  | none, some p, _ => some (p, 1)
  | none, none, some p => some (p, 2)
  | none, none, none => none

/-- R66, R510: whether anything is admitted at all. -/
def Dev.admitting (d : Dev) : Bool := d.coreOn && !d.nodeFenced && d.loader != 3 && d.loader != 4

/-- A head is admitted: its slot is freed (R145), it takes its context, and its work begins. -/
def Dev.admitReq (d : Dev) (r ctx : Nat) : Dev :=
  let d := (d.leaveFifo r).updReq r fun q => { q with admitted := d.now, ctx := ctx }
  match Tab.find d.reqs r with
  | some q => (d.begin r q).noData r
  | none => d

/-- The next head is admitted, where there is one, and the node goes on as `k` says. -/
def Dev.admitNext (k : Dev → Dev) (d : Dev) : Dev :=
  if !d.admitting then d
  else match d.nextHead with
    | some ((r, _), ctx) => k (d.admitReq r ctx)
    | none => d

/-- Everything that goes on of itself after a command: boot ends, searches and the panel's sequences go on, waiting heads
are admitted; by fuel. -/
def Dev.pumpN : Nat → Dev → Dev
  | 0, d => d
  | f + 1, d => d.settleSearch.panelStep.bootOn.admitNext (Dev.pumpN f)

/-- R183: empty copies whose first commit boundary has come start, and what was held for them goes on. -/
def Dev.startDue (d : Dev) : Dev :=
  (Tab.keys d.ix.heats).foldl (fun d i =>
    let on (d : Dev) : Bool := (d.heat i).any fun h => h.started
    let e := d.startEmpty i
    if !on d && on e then e.releaseHeld i else e) d

/-- The fuel is the number of descriptors that wait, so that every one of them can be admitted. -/
def Dev.pump (d : Dev) : Dev :=
  if !d.coreOn then d else Dev.pumpN ((Tab.count d.reqs fun q => q.waiting) + 1) d.startDue.poolGo

/-! ## Landing (R142, R196, R297) -/

/-- CANCEL and RUN_CANCEL leave their FIFO as they land, and complete at once. -/
def Dev.cancelNow (d : Dev) (r : Nat) : Dev :=
  match Tab.find d.reqs r with
  | none => d
  | some q =>
    let d := d.leaveFifo r
    d.checked r (failIf (!payloadOk [(0x10, 4)] q.desc) ST_BAD_DESC) fun d =>
      let (n, d) := if u8 q.desc 0 = 0x1F then d.cancelSearch q.bib (u32 q.desc 0x10) else d.runCancel q.bib (u32 q.desc 0x10)
      d.complete r ST_OK n

/-- What follows a landing. -/
def Dev.landed (d : Dev) (r : Option Nat) : Dev :=
  match r with
  | none => d
  | some r => match Tab.find d.reqs r with
    | some q => if u8 q.desc 0 = 0x1F || u8 q.desc 0 = 0x2F then d.cancelNow r else d
    | none => d

/-- One descriptor is written to a window and lands; then everything that can goes on. -/
def Dev.submit (d : Dev) (src : Src) (x : Bytes) : Dev :=
  let (d, r) := d.land src (fit 64 x)
  (d.landed r).pump

/-- A command that acts at its split time where a condition holds, with everything that then goes on of itself. -/
def State.act (s : State) (t : Nat) (c : Dev → Bool) (f : Dev → Dev) : Host.Outcome State Fault Refusal :=
  s.runIf t c fun d => (f d).pump

/-- A descriptor of a row: its OPCODE byte is the row's. -/
def withOp (op : Nat) (x : Bytes) : Bytes := BitVec.ofNat 8 op :: x.drop 1

end Sys2Proof.Machine
end

