-- ==== Sys2Proof/Machine/FaultCmds.lean ====
section
/-!
DEFINITION. Faults, port events and teardown as they arrive (spec files 05, 06, 20).
-/
namespace Sys2Proof.Machine

/-! ## Error reports (R222, R234, R276, R307, R333, R498) -/

/-- The counter in which a unit counts an error that was corrected, or one that was not; `onDie` says which of a stack's two
codes corrected it (R31, R234). -/
def eccCounter (src ty : Nat) (onDie : Bool) : Option Fld :=
  if src = SRC_DATA_CORR then
    match ty with
    | 0x10 => some .IGRP_RESCECC_COUNT
    | 0x11 => some .ITILE_ECC_COUNT
    | 0x12 => some .TSRAM_ECC_COUNT
    | 0x22 => some .POD_ECC_COUNT
    | 0x30 => some (if onDie then .STK_ODECC_COUNT else .STK_SECDED_COUNT)
    | 0x31 => some .STR_QRFECC_COUNT
    | _ => none
  else if src = SRC_DATA_UNCORR then
    match ty with
    | 0x10 => some .IGRP_RESCUNC_COUNT
    | 0x11 => some .ITILE_UNCORR_COUNT
    | 0x12 => some .TSRAM_UNCORR_COUNT
    | 0x30 => some .STK_UNCORR_COUNT
    | _ => none
  else none

/-- R31: a DRAM copy of a tile is bad: it is dropped and read again with its hint, and the passes that were copying it wait for that
read. A dirty tile is formed again from its flash copy and the journal: DEDUCED (log 127). -/
def Dev.badCopy (d : Dev) (k : Nat) : Dev :=
  if !d.refetchable k then d
  else
    let d := (d.updTile k fun t => { t with frame := none }).startRead k (d.tile k).hint .internal
    d.inf.passes.foldl (fun d p =>
      (p.2.weights.filter fun w => w.key == some k && w.state == 0).foldl (fun d w =>
        let d := d.updPass p.1 fun p => { p with weights := p.weights.map fun x =>
          if x.layer = w.layer && x.tile = w.tile then { x with state := 1 } else x }
        (d.missPass p.2 1).startRead k (d.tile k).hint (.weight p.1 w.layer w.tile)) d) d

/-- R31: 32 B of a stack cannot be corrected, and are never delivered: a tile's copy is read again; a pool block's bytes are
lost. Which tile or block stands at the address is free, since the spec does not lay out the stacks (DESIGN CHOICE, log 127). -/
def Dev.stackError (d : Dev) (addr : Nat) : Dev :=
  let ks := Tab.keys (d.fl.map.filter fun p => p.2.resident)
  let bs := Tab.keys (d.pl.blocks.filter fun p => p.2.place ≤ 1)
  let n := Config.errorTile addr % max 1 (ks.length + bs.length)
  match ks[n]?, bs[n - ks.length]? with
  | some k, _ => d.badCopy k
  | none, some b => d.updBlock b fun x => { x with bad := true }
  | none, none => d

/-- What an uncorrected error ends: in an SRAM a list's query, or the pass that read it; in a stack the DRAM copy. -/
def Dev.errorEnds (d : Dev) (e : ErrReport) : Dev :=
  if e.utype = 0x22 then d.listError e.uinst else if e.utype = 0x30 then d.stackError e.addr else d.stopPassOn e.utype e.uinst e.addr

/-- A unit's report: it counts, the Referee takes it, and what cannot go on ends. -/
def Dev.takeError (d : Dev) (e : ErrReport) : Dev :=
  let d := match eccCounter e.source e.utype e.onDie with
    | some f => d.bump f 1 e.uinst
    | none => d
  let d := d.report e.source e.utype e.uinst e.bib e.addr e.access
  if e.source = SRC_DATA_UNCORR then d.errorEnds e else d

/-- ERROR_REPORT (R498, R500): a unit's report reaches the Referee. -/
def execErrorReport (t : Nat) (e : ErrReport) (s : State) : Host.Outcome State Fault Refusal :=
  s.act t Dev.mgmtOn fun d => d.takeError e

/-! ## Teardown (R124 to R126) -/

/-- Whether a request is a bib's. -/
def Dev.reqOf (d : Dev) (b r : Nat) : Bool := (Tab.find d.reqs r).any fun q => q.bib == some b

/-- Whether a flash read is awaited for a bib: by its request, by a walk group or a batch with queries of it, by a pass that
runs its program, or by an embedding or pool request of it. -/
def Dev.waitOf (d : Dev) (b : Nat) (w : Wait) : Bool :=
  match w with
  | .req r _ => d.reqOf b r
  | .group g => (Tab.find d.ix.groups g).any fun x => x.bibs.contains b
  | .scan n _ _ => (d.batch n).any fun x => x.bibs.contains b
  | .weight p _ _ => (Tab.find d.inf.passes p).any fun x => x.bib == b
  | .gather g => (d.gather g).any fun x => match x.who with | .req r => d.reqOf b r | .relay .. => false
  | .pool k => (Tab.vals d.pl.ops).any fun o => o.wait.contains k && (match o.who with | .req r => d.reqOf b r | _ => false)
  | .copy (.rewrite _ (some r)) => d.reqOf b r
  | .copy _ => false
  | .internal => false

/-- The flash operations in the tracker that were issued for a bib. -/
def Dev.bibOps (d : Dev) (b : Nat) : List FOp :=
  (Tab.vals d.fl.ops).filter fun o =>
    (o.waiters.any (d.waitOf b)) || (match o.why with
      | some (.tileWrite r _) => d.reqOf b r
      | some (.rewrite _ (some r)) => d.reqOf b r
      | _ => false)

/-- A frame or a completion of a request still waits for its outlet or its ring. -/
def Dev.outstanding (d : Dev) (r : Nat) : Bool :=
  (d.queues.any fun p => p.2.any fun f => f.req == some r) || d.rings.any fun p => p.2.wait.any fun w => w.2.req == some r

/-- The engines that still hold a walk group of a bib, or a batch of it, live or saved. -/
def Dev.bibEngines (d : Dev) (b : Nat) : List Nat :=
  let gs := (Tab.vals d.ix.groups).filterMap fun g => if g.running && g.bibs.contains b then g.engine else none
  let es := (List.range 128).filter fun e =>
    ((d.engine e).live.toList ++ (d.engine e).saved).any fun n => (d.batch n).any fun x => x.bibs.contains b
  (gs ++ es).eraseDups

/-- R124 step 3: every operation issued for the bib has retired, and the completions of steps 1 and 2 are written. -/
def Dev.retired (d : Dev) (b : Nat) : Bool :=
  !(d.reqs.any fun p => p.2.bib == some b && (!p.2.ended || d.outstanding p.1)) && (d.bibOps b).isEmpty && (d.bibEngines b).isEmpty
    && !((Tab.vals d.inf.passes).any fun p => p.bib == b)

/-- R124 steps 4 and 5: programs are freed, leases expire, with pending DISABLED the allocations go (R391); then the
generation increments. -/
def Dev.tearDown (d : Dev) (b : Nat) : Dev :=
  let d := (d.freeBibProgs b).expireBib (some b)
  let d := if (d.bib b).pending = 2 then
      (d.fl.allocs.filter fun p => p.2.bib == b).foldl (fun d p => d.freeAlloc p.1) d
    else d
  d.endTeardown b

/-- TEARDOWN_END: with grace too, once the work has run to its end. -/
def execTeardownEnd (t bib : Nat) (s : State) : Host.Outcome State Fault Refusal :=
  s.act t Dev.coreOn fun d =>
    if (d.bib bib).state = 4 && d.retired bib then d.tearDown bib else d

/-- R126: the units that still hold an operation of a bib, the operation tracker among them, are fenced, what is left of its work ends, and the teardown
ends. An update that has joined a commit group goes on; its completion, under the old generation, is discarded (R125,
R127). -/
def Dev.tearStuck (d : Dev) (b : Nat) : Dev :=
  let chans := ((d.bibOps b).map fun o => chanOf o.target).eraseDups
  let d := (d.bibEngines b).foldl (fun d e => d.report SRC_TEARDOWN_STUCK 0x31 e none b 0) d
  let d := if chans.isEmpty then d else d.report SRC_TEARDOWN_STUCK 0x24 0 none b 0
  let d := chans.foldl (fun d c => d.report SRC_TEARDOWN_STUCK 0x41 c none b 0) d
  let d := d.endAll (fun q => q.bib == some b && !q.joined) ST_FENCED
  let still (q : Req) : Req := if q.bib == some b && q.joined && !q.ended then { q with mute := true } else q
  let d : Dev := { d with reqs := Tab.mapV d.reqs fun _ q => still q }
  d.tearDown b

/-- TEARDOWN_STUCK. -/
def execTeardownStuck (t bib : Nat) (s : State) : Host.Outcome State Fault Refusal :=
  s.act t Dev.coreOn fun d =>
    if (d.bib bib).state = 4 && (d.bib bib).tdStart + 12000000 ≤ d.now then d.tearStuck bib else d

/-- GRACE_EXPIRY (R506 to R508). -/
def execGraceExpiry (t rec : Nat) (s : State) : Host.Outcome State Fault Refusal := s.act t Dev.mgmtOn fun d => d.graceExpiry rec

/-! ## Contexts and DMA (R33, R160) -/

/-- CONTEXT_FREE (R33): the context of a request that has completed, its entry written, is free, and heads are
admitted. -/
def execContextFree (t req : Nat) (s : State) : Host.Outcome State Fault Refusal :=
  s.act t Dev.coreOn fun d =>
    match Tab.find d.reqs req with
    | some q => if q.ended && !d.outstanding req then { d with reqs := Tab.del d.reqs req } else d
    | none => d

/-- R160: a DMA read has failed: the Referee records it, against the bib or, in a PF0 window, against the ADMIN block. -/
def Dev.reportDma (d : Dev) (m : Dma) : Dev :=
  match m.bib with
  | none => d.report SRC_CW_DMA 7 (m.port % 2) none m.addr 3
  | some b => if m.port < 2 then d.report SRC_CW_DMA 6 m.port (some b) m.addr 3 else d.report SRC_CW_DMA 0x51 (m.port - 2) (some b) m.addr 3

/-- The code of an INSERT has arrived, or its read has failed. -/
def Dev.codeData (d : Dev) (r : Nat) (b : Bytes) : Dev :=
  match Tab.find d.reqs r with
  | some q => if q.fails.isEmpty then (d.updReq r fun q => { q with buf := b }).forwardUpd r else d.finish r ST_OK
  | none => d

/-- A request whose read has failed ends, where nothing else of it is outstanding. -/
def Dev.orFail (d : Dev) (r : Nat) (q : Req) (go : Dev) : Dev := if q.fails.isEmpty then go else d.finish r ST_OK

/-- BIB_BIND goes on with its ring table. -/
def Dev.bindData (d : Dev) (r : Nat) (q : Req) (b : Bytes) : Dev :=
  if q.fails.isEmpty then d.bibBindRings r q b else d.finish r ST_OK

/-- A live request takes what its DMA read brought; `b` is empty where the read failed, which the request's failures then
tell. -/
def Dev.reqData (d : Dev) (r : Nat) (q : Req) (slot : Nat) (b : Bytes) : Dev :=
  match u8 q.desc 0 with
  | 0x10 => d.searchBlock r b
  | 0x11 => d.searchBlock r b
  | 0x18 => d.codeData r b
  | 0x20 => d.orFail r q (d.progCheck r q b)
  | 0x22 => d.runData r b
  | 0x30 => d.embData r slot b
  | 0x31 => d.embData r slot b
  | 0x32 => d.embData r slot b
  | 0x49 => d.poolData r b
  | 0x52 => if q.fails.isEmpty then d.tierData r slot b else if q.dmas = 0 then d.tierNoData r else d
  | 0x60 => d.loadData r (if q.fails.isEmpty then some b else none)
  | 0x61 => d.contractData r (if q.fails.isEmpty then some b else none)
  | 0x65 => d.bindData r q b
  | 0x69 => d.orFail r q (d.keyRecord r b)
  | _ => d

/-- The status with which a failed read ends its request (R160). -/
def dmaStatus : DmaResult → Option Nat
  | .data _ => none
  | .timeout => some ST_TIMEOUT
  | .unsupported => some ST_BAD_DESC
  | .aborted => some ST_BAD_DESC

/-- The bytes that a read brought, cut or filled to the length asked for. -/
def dmaBytes (len : Nat) : DmaResult → Bytes
  | .data b => fit len b
  | _ => []

/-- R160: a read request ends with its data, or fails: the Referee records the failure, and the waiting request has it. -/
def Dev.pieceDone (d : Dev) (n : Nat) (m : Dma) (res : DmaResult) : Dev :=
  let d : Dev := { d with dmas := Tab.del d.dmas n }
  match dmaStatus res with
  | some st => (d.reportDma m).addFail m.req st
  | none => { d with bufs := Tab.upd d.bufs m.buf fun t => Tab.ins t m.off (dmaBytes m.len res) }

/-- R160: every read request of a buffer has ended: the request takes the buffer, whose bytes are the pieces in order. -/
def Dev.bufDone (d : Dev) (m : Dma) : Dev :=
  let b := (Tab.vals ((Tab.find d.bufs m.buf).getD [])).flatten
  let d := ({ d with bufs := Tab.del d.bufs m.buf } : Dev).updReq m.req fun q => { q with dmas := q.dmas - 1 }
  match Tab.find d.reqs m.req with
  | some q => if q.live then d.reqData m.req q m.slot b else d
  | none => d

/-- A read request ends, and with the last of a buffer's the buffer is there. -/
def Dev.dmaDone (d : Dev) (n : Nat) (m : Dma) (res : DmaResult) : Dev :=
  let d := d.pieceDone n m res
  if d.dmas.any fun p => p.2.buf == m.buf then d else d.bufDone m

/-! ## Ports and bibs (Table 06.10) -/

/-- VF_FLR (R161): as BIB_RESET from PF0 against the bib of the VF, and its ring configuration is cleared. -/
def execVfFlr (t port vf : Nat) (s : State) : Host.Outcome State Fault Refusal :=
  s.act t Dev.coreOn fun d =>
    let d := d.updPort port fun p => { p with msix := Tab.del p.msix vf, d3 := p.d3.filter (· != vf) }
    match d.vfBib port vf with
    | none => d
    | some (b, path) =>
      if path != (d.bib b).path then d
      else
        let d := d.bibEvent b .resetPf0 none
        [0, 1, 2, 3, 4, 5, 6, 7].foldl (fun d r => d.clearRing (bibWin b path r)) d

/-- TEARDOWN_GRACE_END (R124): the 2 ms of grace end. -/
def execTeardownGraceEnd (t bib : Nat) (s : State) : Host.Outcome State Fault Refusal :=
  s.act t Dev.coreOn fun d =>
    let x := d.bib bib
    if x.state = 4 && x.tdGrace && x.tdStart + 2000000 ≤ d.now then d.tdCut bib else d

/-- PF0_FLR (R161). -/
def execPf0Flr (t port : Nat) (s : State) : Host.Outcome State Fault Refusal :=
  s.act t Dev.coreOn fun d =>
    let d := d.dropPf0 port
    let d := d.updPort port fun p => { p with vfEnable := false, numVfs := 0, msix := [], d3 := [] }
    d.bindingLost port

/-- PORT_BINDING_LOSS (R161). -/
def execPortBindingLoss (t port : Nat) (kind : PortLoss) (s : State) : Host.Outcome State Fault Refusal :=
  s.act t Dev.coreOn fun d =>
    match kind with
    | .vfEnableCleared => (d.updPort port fun p => { p with vfEnable := false, numVfs := 0 }).bindingLost port
    | .linkDown => (d.updPort port fun p => { p with up := false }).bindingLost port
    | .hotReset => (d.resetPort port).trainPort port

/-- PERST_ASSERT (R539). -/
def execPerstAssert (t port : Nat) (s : State) : Host.Outcome State Fault Refusal :=
  s.act t Dev.mgmtOn fun d => (d.resetPort port).updPort port fun p => { p with perst := true }

/-- PCIE_CONFIG_REQUEST (R159). -/
def execPcieConfigRequest (t port : Nat) (cfg : CfgReq) (s : State) : Host.Outcome State Fault Refusal :=
  s.act t Dev.mgmtOn fun d => d.cfgRequest port cfg

/-- ROCE_RETRY_EXHAUSTED (R439): BIB_FATAL, source BINDING_LOST, against the bib. -/
def execRoceRetryExhausted (t bib : Nat) (s : State) : Host.Outcome State Fault Refusal :=
  s.act t Dev.coreOn fun d =>
    if !d.fabReady bib then d
    else (d.updBib bib fun x => { x with qpReady := false }).report SRC_BINDING_LOST 0x51 (d.bib bib).bind.port
      (some bib) 0 0

/-- CLOCK_LOSS (R535). -/
def execClockLoss (t : Nat) (clk : ClkLoss) (s : State) : Host.Outcome State Fault Refusal :=
  s.act t Dev.mgmtOn fun d => d.clockLoss clk

end Sys2Proof.Machine
end

