-- ==== Sys2Proof/Machine/BootCmds.lean ====
section
/-!
DEFINITION. The commands of boot, recovery, the loader and contract changes, and the ends of DMA reads.
-/
namespace Sys2Proof.Machine

/-! ## Boot and recovery (R542, R545) -/

/-- RESET_RELEASE (R542): straps are sampled, and boot or recovery starts. -/
def execResetRelease (t : Nat) (straps : Straps) (s : State) : Host.Outcome State Fault Refusal :=
  s.act t Dev.inReset fun d => d.boot straps

/-- SLED_DISCOVERY_END (R406, Table 21.2). -/
def execSledDiscoveryEnd (t sled : Nat) (info : SledInfo) (s : State) : Host.Outcome State Fault Refusal :=
  s.act t Dev.coreOn fun d =>
    if sled > 3 || d.sledState sled != 1 then d
    else
      let d := d.discovered sled info
      if d.seqOf sled = 7 then d.setSeq sled 0 else d

/-- BOOT_STEP_OVERRUN (R542). -/
def execBootStepOverrun (t : Nat) (s : State) : Host.Outcome State Fault Refusal := s.act t Dev.coreOn Dev.stepOverrun

/-- RECOVERY_LOAD (R545): RCV_CMD is written. -/
def execRecoveryLoad (t port value : Nat) (s : State) : Host.Outcome State Fault Refusal :=
  s.act t Dev.mgmtOn fun d => d.rcvCmd port value

/-- RECOVERY_WRITE_DONE (R545). -/
def execRecoveryWriteDone (t : Nat) (ok : Bool) (s : State) : Host.Outcome State Fault Refusal :=
  s.act t Dev.mgmtOn fun d => d.rcvWritten ok

/-- Whether a DMA read is the recovery load's. -/
def Dev.isRcvDma (d : Dev) (id : Nat) : Bool :=
  match d.rcv with | some x => d.power == 7 && x.dma == id && !x.writing | none => false

/-- The bytes of a read that ended well. -/
def dmaData (len : Nat) (res : DmaResult) : Option Bytes := if (dmaStatus res).isSome then none else some (dmaBytes len res)

/-- A DMA read of the recovery load, or of a request, ends (R545, R160). -/
def Dev.dmaAny (d : Dev) (id : Nat) (res : DmaResult) : Dev :=
  if d.isRcvDma id then
    match d.rcv with
    | some x => d.rcvData x (dmaData x.len res)
    | none => d
  else if d.coreOn then
    match Tab.find d.dmas id with
    | some m => if m.sent then d.dmaDone id m res else d
    | none => d
  else d

/-- DMA_READ_DONE (R160, R545). -/
def execDmaReadDone (t id : Nat) (res : DmaResult) (s : State) : Host.Outcome State Fault Refusal :=
  s.act t Dev.mgmtOn fun d => d.dmaAny id res

/-! ## The loader (R62 to R67) and contract changes (R108 to R110) -/

/-- LOADER_CHECKS_DONE (R63). -/
def execLoaderChecksDone (t : Nat) (s : State) : Host.Outcome State Fault Refusal := s.act t Dev.coreOn Dev.checksDone

/-- ADMISSION_TIMEOUT (R63). -/
def execAdmissionTimeout (t : Nat) (s : State) : Host.Outcome State Fault Refusal := s.act t Dev.coreOn Dev.admissionLate

/-- STORE_END (R64, R65); a NOR write once started completes in HALT too (R426, R532). -/
def execStoreEnd (t : Nat) (s : State) : Host.Outcome State Fault Refusal := s.act t Dev.mgmtOn Dev.storeEnd

/-- DRAIN_END (R66). -/
def execDrainEnd (t : Nat) (s : State) : Host.Outcome State Fault Refusal := s.act t Dev.coreOn Dev.drainEnd

/-- APPLYING_END (R67). -/
def execApplyingEnd (t : Nat) (s : State) : Host.Outcome State Fault Refusal := s.act t Dev.coreOn Dev.applyingEnd

/-- CONTRACT_CHECK_DONE (R108, R109). -/
def execContractCheckDone (t : Nat) (s : State) : Host.Outcome State Fault Refusal := s.act t Dev.coreOn Dev.changeDone

/-- CONTRACT_CHECK_TIMEOUT (R108). -/
def execContractCheckTimeout (t : Nat) (s : State) : Host.Outcome State Fault Refusal := s.act t Dev.coreOn Dev.changeLate

end Sys2Proof.Machine
end

