-- ==== Sys2Proof/Machine/Descriptors.lean ====
section
/-!
DEFINITION. The descriptors (spec file 06, Table 00.6), one command per opcode: a 64-byte block is written to a window,
lands or is refused there (R142), and waits its turn; its work (`Dev.begin`) starts when it is admitted, which may be at
once. RoCEv2 submissions and the ends of DMA reads follow.
-/
namespace Sys2Proof.Machine

/-- SEARCH (R190): the block is written with OPCODE 0x10. -/
def execSearch (t : Nat) (src : Src) (x : Bytes) (s : State) : Host.Outcome State Fault Refusal :=
  s.runIf t Dev.coreOn fun d => d.submit src (withOp 0x10 x)

/-- SEARCH_CODE (R188): the block is written with OPCODE 0x11. -/
def execSearchCode (t : Nat) (src : Src) (x : Bytes) (s : State) : Host.Outcome State Fault Refusal :=
  s.runIf t Dev.coreOn fun d => d.submit src (withOp 0x11 x)

/-- INSERT (R240): the block is written with OPCODE 0x18. -/
def execInsert (t : Nat) (src : Src) (x : Bytes) (s : State) : Host.Outcome State Fault Refusal :=
  s.runIf t Dev.coreOn fun d => d.submit src (withOp 0x18 x)

/-- DELETE (R240): the block is written with OPCODE 0x19. -/
def execDelete (t : Nat) (src : Src) (x : Bytes) (s : State) : Host.Outcome State Fault Refusal :=
  s.runIf t Dev.coreOn fun d => d.submit src (withOp 0x19 x)

/-- CANCEL (R196): the block is written with OPCODE 0x1F. -/
def execCancel (t : Nat) (src : Src) (x : Bytes) (s : State) : Host.Outcome State Fault Refusal :=
  s.runIf t Dev.coreOn fun d => d.submit src (withOp 0x1F x)

/-- PROG_LOAD (R289): the block is written with OPCODE 0x20. -/
def execProgLoad (t : Nat) (src : Src) (x : Bytes) (s : State) : Host.Outcome State Fault Refusal :=
  s.runIf t Dev.coreOn fun d => d.submit src (withOp 0x20 x)

/-- PROG_FREE (R292): the block is written with OPCODE 0x21. -/
def execProgFree (t : Nat) (src : Src) (x : Bytes) (s : State) : Host.Outcome State Fault Refusal :=
  s.runIf t Dev.coreOn fun d => d.submit src (withOp 0x21 x)

/-- RUN (R290): the block is written with OPCODE 0x22. -/
def execRun (t : Nat) (src : Src) (x : Bytes) (s : State) : Host.Outcome State Fault Refusal :=
  s.runIf t Dev.coreOn fun d => d.submit src (withOp 0x22 x)

/-- RUN_CANCEL (R297): the block is written with OPCODE 0x2F. -/
def execRunCancel (t : Nat) (src : Src) (x : Bytes) (s : State) : Host.Outcome State Fault Refusal :=
  s.runIf t Dev.coreOn fun d => d.submit src (withOp 0x2F x)

/-- LOOKUP (R343): the block is written with OPCODE 0x30. -/
def execLookup (t : Nat) (src : Src) (x : Bytes) (s : State) : Host.Outcome State Fault Refusal :=
  s.runIf t Dev.coreOn fun d => d.submit src (withOp 0x30 x)

/-- UPDATE (R347): the block is written with OPCODE 0x31. -/
def execUpdate (t : Nat) (src : Src) (x : Bytes) (s : State) : Host.Outcome State Fault Refusal :=
  s.runIf t Dev.coreOn fun d => d.submit src (withOp 0x31 x)

/-- ROW_SET (R347): the block is written with OPCODE 0x32. -/
def execRowSet (t : Nat) (src : Src) (x : Bytes) (s : State) : Host.Outcome State Fault Refusal :=
  s.runIf t Dev.coreOn fun d => d.submit src (withOp 0x32 x)

/-- STEP_END (R348): the block is written with OPCODE 0x33. -/
def execStepEnd (t : Nat) (src : Src) (x : Bytes) (s : State) : Host.Outcome State Fault Refusal :=
  s.runIf t Dev.coreOn fun d => d.submit src (withOp 0x33 x)

/-- SEG_READ (R368): the block is written with OPCODE 0x40. -/
def execSegRead (t : Nat) (src : Src) (x : Bytes) (s : State) : Host.Outcome State Fault Refusal :=
  s.runIf t Dev.coreOn fun d => d.submit src (withOp 0x40 x)

/-- SEG_STAT (R363): the block is written with OPCODE 0x41. -/
def execSegStat (t : Nat) (src : Src) (x : Bytes) (s : State) : Host.Outcome State Fault Refusal :=
  s.runIf t Dev.coreOn fun d => d.submit src (withOp 0x41 x)

/-- SEG_CREATE (R363): the block is written with OPCODE 0x48. -/
def execSegCreate (t : Nat) (src : Src) (x : Bytes) (s : State) : Host.Outcome State Fault Refusal :=
  s.runIf t Dev.coreOn fun d => d.submit src (withOp 0x48 x)

/-- SEG_WRITE (R365): the block is written with OPCODE 0x49. -/
def execSegWrite (t : Nat) (src : Src) (x : Bytes) (s : State) : Host.Outcome State Fault Refusal :=
  s.runIf t Dev.coreOn fun d => d.submit src (withOp 0x49 x)

/-- SEG_FLUSH (R366): the block is written with OPCODE 0x4A. -/
def execSegFlush (t : Nat) (src : Src) (x : Bytes) (s : State) : Host.Outcome State Fault Refusal :=
  s.runIf t Dev.coreOn fun d => d.submit src (withOp 0x4A x)

/-- SEG_PUBLISH (R367): the block is written with OPCODE 0x4B. -/
def execSegPublish (t : Nat) (src : Src) (x : Bytes) (s : State) : Host.Outcome State Fault Refusal :=
  s.runIf t Dev.coreOn fun d => d.submit src (withOp 0x4B x)

/-- SEG_RENEW (R369): the block is written with OPCODE 0x4C. -/
def execSegRenew (t : Nat) (src : Src) (x : Bytes) (s : State) : Host.Outcome State Fault Refusal :=
  s.runIf t Dev.coreOn fun d => d.submit src (withOp 0x4C x)

/-- SEG_HANDOFF (R372): the block is written with OPCODE 0x4D. -/
def execSegHandoff (t : Nat) (src : Src) (x : Bytes) (s : State) : Host.Outcome State Fault Refusal :=
  s.runIf t Dev.coreOn fun d => d.submit src (withOp 0x4D x)

/-- SEG_DROP (R363): the block is written with OPCODE 0x4E. -/
def execSegDrop (t : Nat) (src : Src) (x : Bytes) (s : State) : Host.Outcome State Fault Refusal :=
  s.runIf t Dev.coreOn fun d => d.submit src (withOp 0x4E x)

/-- ALLOC (R391): the block is written with OPCODE 0x50. -/
def execAlloc (t : Nat) (src : Src) (x : Bytes) (s : State) : Host.Outcome State Fault Refusal :=
  s.runIf t Dev.coreOn fun d => d.submit src (withOp 0x50 x)

/-- FREE (R398): the block is written with OPCODE 0x51. -/
def execFree (t : Nat) (src : Src) (x : Bytes) (s : State) : Host.Outcome State Fault Refusal :=
  s.runIf t Dev.coreOn fun d => d.submit src (withOp 0x51 x)

/-- TILE_WRITE (R395): the block is written with OPCODE 0x52. -/
def execTileWrite (t : Nat) (src : Src) (x : Bytes) (s : State) : Host.Outcome State Fault Refusal :=
  s.runIf t Dev.coreOn fun d => d.submit src (withOp 0x52 x)

/-- TILE_READ (R396): the block is written with OPCODE 0x53. -/
def execTileRead (t : Nat) (src : Src) (x : Bytes) (s : State) : Host.Outcome State Fault Refusal :=
  s.runIf t Dev.coreOn fun d => d.submit src (withOp 0x53 x)

/-- SET_HINT (R397): the block is written with OPCODE 0x54. -/
def execSetHint (t : Nat) (src : Src) (x : Bytes) (s : State) : Host.Outcome State Fault Refusal :=
  s.runIf t Dev.coreOn fun d => d.submit src (withOp 0x54 x)

/-- PREFETCH (R396): the block is written with OPCODE 0x55. -/
def execPrefetch (t : Nat) (src : Src) (x : Bytes) (s : State) : Host.Outcome State Fault Refusal :=
  s.runIf t Dev.coreOn fun d => d.submit src (withOp 0x55 x)

/-- DISCARD (R422): the block is written with OPCODE 0x58. -/
def execDiscard (t : Nat) (src : Src) (x : Bytes) (s : State) : Host.Outcome State Fault Refusal :=
  s.runIf t Dev.coreOn fun d => d.submit src (withOp 0x58 x)

/-- SCRUB (R423): the block is written with OPCODE 0x59. -/
def execScrub (t : Nat) (src : Src) (x : Bytes) (s : State) : Host.Outcome State Fault Refusal :=
  s.runIf t Dev.coreOn fun d => d.submit src (withOp 0x59 x)

/-- LOAD_IMAGE (R62): the block is written with OPCODE 0x60. -/
def execLoadImage (t : Nat) (src : Src) (x : Bytes) (s : State) : Host.Outcome State Fault Refusal :=
  s.runIf t Dev.coreOn fun d => d.submit src (withOp 0x60 x)

/-- CONTRACT_SET (R108): the block is written with OPCODE 0x61. -/
def execContractSet (t : Nat) (src : Src) (x : Bytes) (s : State) : Host.Outcome State Fault Refusal :=
  s.runIf t Dev.coreOn fun d => d.submit src (withOp 0x61 x)

/-- BIB_ENABLE (R123): the block is written with OPCODE 0x62. -/
def execBibEnable (t : Nat) (src : Src) (x : Bytes) (s : State) : Host.Outcome State Fault Refusal :=
  s.runIf t Dev.coreOn fun d => d.submit src (withOp 0x62 x)

/-- BIB_DISABLE (R123): the block is written with OPCODE 0x63. -/
def execBibDisable (t : Nat) (src : Src) (x : Bytes) (s : State) : Host.Outcome State Fault Refusal :=
  s.runIf t Dev.coreOn fun d => d.submit src (withOp 0x63 x)

/-- BIB_RESET (R123): the block is written with OPCODE 0x64. -/
def execBibReset (t : Nat) (src : Src) (x : Bytes) (s : State) : Host.Outcome State Fault Refusal :=
  s.runIf t Dev.coreOn fun d => d.submit src (withOp 0x64 x)

/-- BIB_BIND (R129): the block is written with OPCODE 0x65. -/
def execBibBind (t : Nat) (src : Src) (x : Bytes) (s : State) : Host.Outcome State Fault Refusal :=
  s.runIf t Dev.coreOn fun d => d.submit src (withOp 0x65 x)

/-- RING_SET (R156): the block is written with OPCODE 0x66. -/
def execRingSet (t : Nat) (src : Src) (x : Bytes) (s : State) : Host.Outcome State Fault Refusal :=
  s.runIf t Dev.coreOn fun d => d.submit src (withOp 0x66 x)

/-- FAULT_ACK (R504): the block is written with OPCODE 0x67. -/
def execFaultAck (t : Nat) (src : Src) (x : Bytes) (s : State) : Host.Outcome State Fault Refusal :=
  s.runIf t Dev.coreOn fun d => d.submit src (withOp 0x67 x)

/-- QUOTE (R548): the block is written with OPCODE 0x68. -/
def execQuote (t : Nat) (src : Src) (x : Bytes) (s : State) : Host.Outcome State Fault Refusal :=
  s.runIf t Dev.coreOn fun d => d.submit src (withOp 0x68 x)

/-- KEY_ADMIN (R549): the block is written with OPCODE 0x69. -/
def execKeyAdmin (t : Nat) (src : Src) (x : Bytes) (s : State) : Host.Outcome State Fault Refusal :=
  s.runIf t Dev.coreOn fun d => d.submit src (withOp 0x69 x)

/-- LOG_READ (R424): the block is written with OPCODE 0x6A. -/
def execLogRead (t : Nat) (src : Src) (x : Bytes) (s : State) : Host.Outcome State Fault Refusal :=
  s.runIf t Dev.coreOn fun d => d.submit src (withOp 0x6A x)

/-- NOP (R155): the block is written with OPCODE 0x6B. -/
def execNop (t : Nat) (src : Src) (x : Bytes) (s : State) : Host.Outcome State Fault Refusal :=
  s.runIf t Dev.coreOn fun d => d.submit src (withOp 0x6B x)

/-- MEET_STAT (R495): the block is written with OPCODE 0x6C. -/
def execMeetStat (t : Nat) (src : Src) (x : Bytes) (s : State) : Host.Outcome State Fault Refusal :=
  s.runIf t Dev.coreOn fun d => d.submit src (withOp 0x6C x)

/-- HEAT_ROLE (R483): the block is written with OPCODE 0x6D. -/
def execHeatRole (t : Nat) (src : Src) (x : Bytes) (s : State) : Host.Outcome State Fault Refusal :=
  s.runIf t Dev.coreOn fun d => d.submit src (withOp 0x6D x)

/-- MEET_RESTART (R489): the block is written with OPCODE 0x6E. -/
def execMeetRestart (t : Nat) (src : Src) (x : Bytes) (s : State) : Host.Outcome State Fault Refusal :=
  s.runIf t Dev.coreOn fun d => d.submit src (withOp 0x6E x)

/-- BATON_MOVE (R480): the block is written with OPCODE 0x6F. -/
def execBatonMove (t : Nat) (src : Src) (x : Bytes) (s : State) : Host.Outcome State Fault Refusal :=
  s.runIf t Dev.coreOn fun d => d.submit src (withOp 0x6F x)

/-- UNKNOWN_OPCODE (R25): the block lands with the OPCODE that it carries. -/
def execUnknownOpcode (t : Nat) (src : Src) (x : Bytes) (s : State) : Host.Outcome State Fault Refusal :=
  s.runIf t Dev.coreOn fun d => d.submit src (fit 64 x)

/-! ## RoCEv2 submissions (R441, R442) -/

/-- Table 18.3: whether a payload matches its immediate value. -/
def subOk (imm : Nat) (payload : Bytes) : Bool :=
  let n := payload.length
  imm < 32 && (if imm < 8 then 64 ≤ n && n ≤ 4096 && n % 64 == 0 else (imm == 8 || imm == 16) && n == 64)

/-- R149: a release record for a bib's rings, where the bib takes writes. -/
def Dev.subRelease (d : Dev) (src : Src) (rec : Bytes) : Dev :=
  match d.srcWin src with
  | none => d.bump .BIBTAB_STRAY_COUNT
  | some k => if d.discards k then d.bump .BIBTAB_STRAY_COUNT else d.releaseRec k rec

/-- R132: the fabric binding that a change of the bib has left and that drains. -/
def Dev.oldFabric (d : Dev) (b : Nat) : Option Binding := (d.bib b).old.bind fun o => if o.kind = 2 then some o else none

/-- R441: a SEND with Immediate of a fabric-bound bib, on the path in force, else on the one that drains (R132). A bib with
neither has no windows there: the write is stray (R116). -/
def Dev.submission (d : Dev) (b imm : Nat) (payload : Bytes) : Dev :=
  let now := (d.bib b).bind.kind = 2
  if now && !(d.bib b).qpReady then d
  else if !now && (d.oldFabric b).isNone then d.bump .BIBTAB_STRAY_COUNT
  else
    let src (w : Nat) : Src := if now then .fab b w else .fabOld b w
    let port := if now then (d.bib b).bind.port else ((d.oldFabric b).map (·.port)).getD 0
    let d := d.bump .ETH_RXFRAMES_COUNT 1 port
    if !subOk imm payload then d.dropBlock (src (imm % 8)) 0
    else if imm = 16 then d.updBib b fun x => if now then { x with keys := some payload } else { x with oldKeys := some payload }
    else if imm = 8 then (d.subRelease (src 7) payload).pump
    else (chunks 64 (payload.length / 64) payload).foldl (fun d x => d.submit (src imm) x) d

/-- ROCE_SUBMISSION (R441). -/
def execRoceSubmission (t bib imm : Nat) (payload : Bytes) (s : State) : Host.Outcome State Fault Refusal :=
  s.runIf t Dev.coreOn fun d => d.submission bib imm payload

end Sys2Proof.Machine
end

