-- ==== Sys2Proof/Machine/Engines.lean ====
section
/-!
DEFINITION. The commands of the Walk engines, the Pack coalescer, the Stride engines and Podium (spec files 08 to 11), and
the end of an Infield layer.
-/
namespace Sys2Proof.Machine

/-- R225, R250: a batch whose window has ended closes. -/
def Dev.batchWindow (d : Dev) (n : Nat) (side : Bool) : Dev :=
  match d.batch n with
  | none => d
  | some b =>
    let win := if b.side then d.rg .SIDE_CFG2_WIN b.heat else d.rg .STK_CFG_SCANWIN 0
    if b.side == side && !b.closed && b.opened + win * 1000 ≤ d.now then d.closeBatch n else d

/-- Rows of a RUN whose lists have their slots now. -/
def Dev.fillRows (d : Dev) : Dev :=
  d.inf.rows.foldl (fun d p =>
    match d.plist p.1, Tab.find d.reqs p.2.r with
    | some l, some _ =>
      if l.sel.isNone then d
      else if (match l.owner with | .seg _ _ _ => true | _ => false) then d.fillRow p.1 p.2.prog p.2.base p.2.cols
      else d.openRow p.1 p.2
    | _, _ => d.setInf fun x => { x with rows := Tab.del x.rows p.1 }) d

/-- WALK_SLOT_FREE (R197). -/
def execWalkSlotFree (t part : Nat) (s : State) : Host.Outcome State Fault Refusal :=
  s.act t Dev.coreOn fun d => d.placeWaiting part

/-- PACK_WINDOW_CLOSE (R210). -/
def execPackWindowClose (t grp : Nat) (s : State) : Host.Outcome State Fault Refusal := s.act t Dev.coreOn fun d => d.packClose grp

/-- STRIDE_GROUP_RETURN (R211, R235). -/
def execStrideGroupReturn (t grp : Nat) (ecc : EccOutcome) (s : State) : Host.Outcome State Fault Refusal :=
  s.act t Dev.coreOn fun d => (d.groupReturn grp ecc).pauseDue

/-- SLICE_BOUNDARY (R231). -/
def execSliceBoundary (t : Nat) (s : State) : Host.Outcome State Fault Refusal :=
  s.act t Dev.coreOn fun d => if d.now % 2000 = 0 then d.sliceStart else d

/-- SLICE_GUARD (R232): the last 160 ns of a slice. -/
def execSliceGuard (t : Nat) (s : State) : Host.Outcome State Fault Refusal :=
  s.act t Dev.coreOn fun d => if 1840 ≤ d.now % 2000 then d.sliceGuard else d

/-- SCAN_BATCH_CLOSE (R225). -/
def execScanBatchClose (t batch : Nat) (s : State) : Host.Outcome State Fault Refusal :=
  s.act t Dev.coreOn fun d => d.batchWindow batch false

/-- SIDE_BATCH_CLOSE (R250). -/
def execSideBatchClose (t batch : Nat) (s : State) : Host.Outcome State Fault Refusal :=
  s.act t Dev.coreOn fun d => d.batchWindow batch true

/-- STRIDE_BATCH_RETURN (R226, R228). -/
def execStrideBatchReturn (t batch engine unit : Nat) (ecc : EccOutcome) (s : State) : Host.Outcome State Fault Refusal :=
  s.act t Dev.coreOn fun d => d.batchReturn batch engine unit ecc

/-- MISS_NOTICE (R227). -/
def execMissNotice (t batch engine tile : Nat) (s : State) : Host.Outcome State Fault Refusal :=
  s.act t Dev.coreOn fun d => d.missNotice batch engine tile

/-- STR_WDOG (R236). -/
def execStrWdog (t engine : Nat) (s : State) : Host.Outcome State Fault Refusal :=
  s.act t Dev.coreOn fun d => d.strWdog engine

/-- POD_SLOTS_FREE (R258). -/
def execPodSlotsFree (t part : Nat) (s : State) : Host.Outcome State Fault Refusal :=
  s.act t Dev.coreOn fun d => (d.placeLists part).fillRows

/-- LIST_DELIVERY (R266). -/
def execListDelivery (t list : Nat) (s : State) : Host.Outcome State Fault Refusal :=
  s.act t Dev.coreOn fun d => d.deliverList list

/-- LAYER_END (R299). -/
def execLayerEnd (t pass : Nat) (s : State) : Host.Outcome State Fault Refusal :=
  s.act t Dev.coreOn fun d => d.reapPasses.layerEnd pass

end Sys2Proof.Machine
end

