-- ==== Sys2Proof/Machine/FlashCmds.lean ====
section
/-!
DEFINITION. The commands of the flash tier (spec files 16, 17, 22).
-/
namespace Sys2Proof.Machine

/-- DIRTY_WRITEBACK (R389). -/
def execDirtyWriteback (t tile : Nat) (s : State) : Host.Outcome State Fault Refusal :=
  s.act t Dev.coreOn fun d =>
    if d.oldestDirty != some tile then d
    else if d.rg .FTL_SUPPLY_NVLOW = 1 then d.bump .FTL_NVBLK_COUNT
    else if d.mayProgram then
      (d.program (.writeBack tile) (some tile) 1 [] false).updTile tile fun t => { t with writing := true }
    else d

/-- FOLD_START (R414): the oldest tiles of the buffer, as many as stand above FOLD_PCT, are copied into native blocks. -/
def execFoldStart (t : Nat) (s : State) : Host.Outcome State Fault Refusal :=
  s.act t Dev.coreOn fun d =>
    let lim := d.rg .FTL_SLC_CAP_TILES * d.rg .FTL_CFG_FOLD_PCT / 100
    let flying := (d.copying.filter fun k => (d.tile k).st == 1).length
    if d.bufUsed ≤ lim then d
    else if d.rg .FTL_SUPPLY_NVLOW = 1 then d.bump .FTL_NVBLK_COUNT
    else if !d.mayProgram then d
    else (d.foldable.take (d.bufUsed - lim - flying)).foldl (fun d k => d.copyTile k (.fold k)) d

/-- RECLAIM_START (R415), on a sled that takes erases (R407). -/
def execReclaimStart (t target : Nat) (s : State) : Host.Outcome State Fault Refusal :=
  s.act t Dev.coreOn fun d =>
    match Tab.find d.fl.targets target with
    | none => d
    | some x =>
      if 2 * x.usable ≤ 100 * x.freeCount || !d.writable target false then d
      else if d.rg .FTL_SUPPLY_NVLOW = 1 then d.bump .FTL_NVBLK_COUNT
      else
        match d.reclaimBlk target x with
        | none => d
        | some b =>
          let v := d.validIn target b
          if v.isEmpty then d.eraseBlock target b true
          else (v.filter fun k => !d.copying.contains k && (d.tile k).bad.isEmpty).foldl (fun d k => d.copyTile k (.move k target b)) d

/-- JOURNAL_WRITEBACK (R412): at 75% of the bound the oldest dirty segments are written, sixteen to a program. -/
def execJournalWriteback (t : Nat) (s : State) : Host.Outcome State Fault Refusal :=
  s.act t Dev.coreOn fun d =>
    if d.fl.dirtySegs.isEmpty || 4 * d.dirtyCount < 3 * d.segBound then d
    else if d.rg .FTL_SUPPLY_NVLOW = 1 then d.bump .FTL_NVBLK_COUNT
    else if !d.mayProgram then d
    else
      let l := d.fl.dirtySegs.take 16
      let d : Dev := { d with fl := { d.fl with dirtySegs := d.fl.dirtySegs.drop 16 } }
      d.program (.mapSegments l) none 1 (l.flatMap d.segBytes) false

/-- Tiles of a target whose unit has uncorrectable codewords. -/
def Dev.badOn (d : Dev) (target : Nat) : List (Nat × List Nat) :=
  (d.fl.map.filter fun p => !p.2.bad.isEmpty && p.2.target == target).map fun p => (p.1, p.2.bad)

/-- R419: patrol finds codewords of a unit uncorrectable. -/
def Dev.patrolBad (d : Dev) (k : Nat) (bad : List Nat) : Dev :=
  let y := d.tile k
  let o : FOp := { kind := 0, tile := some k, target := y.target, blk := y.blk, page := y.page, native := y.st == 2, raw := true }
  let bad := (List.range 16).filter bad.contains
  let x : ReadOut := { levels := (List.range 16).map fun i => if bad.contains i then 8 else 0, bad := bad }
  (((d.countReadEnd o x 0 0).mediaEvent o 2 none).markBad o bad).reportMedia y.target k none

/-- PATROL_READ (R419, R420): a target is read through; units found uncorrectable are recorded, units with many corrected bits are
rewritten above the NV bar. -/
def execPatrolRead (t target : Nat) (found : PatrolFinds) (s : State) : Host.Outcome State Fault Refusal :=
  s.act t Dev.coreOn fun d =>
    match Tab.find d.fl.targets target with
    | none => d
    | some _ =>
     if !d.sledReads (sledOf target) then d
     else
      let d : Dev := { d with fl := { d.fl with targets := Tab.upd d.fl.targets target fun x => { x with patrolAt := d.now } } }
      let d := (d.bump .FLC_READS_COUNT 1 (chanOf target)).healthErr (sledOf target) 6 found.crcFails
      let here (k : Nat) : Bool := (d.tile k).onFlash && (d.tile k).target = target
      let all := found.bad ++ d.badOn target
      let ks := (all.map (·.1)).eraseDups.filter here
      let d := ks.foldl (fun d k => d.patrolBad k ((all.filter fun p => p.1 == k).flatMap (·.2))) d
      (found.heavy.filter fun k => here k && (d.tile k).bad.isEmpty && !d.copying.contains k).foldl (fun d k =>
        if d.mayProgram then d.program (.rewrite k none) (some k) 1 [] false (d.tile k).seq else d.bump .FTL_NVBLK_COUNT) d

/-- TRACKER_ENTRY_FREE (R32): a stalled unit resumes. -/
def execTrackerEntryFree (t : Nat) (s : State) : Host.Outcome State Fault Refusal :=
  s.act t Dev.coreOn fun d => (Dev.unstall (d.fl.stalled.length + 1) d).sweepBlocks.kick

/-! ## Ends of flash operations -/

/-- R419: a tile that shard queries wait for cannot be read: once for each of their bibs. -/
def Dev.mediaQueries (d : Dev) (o : FOp) (qs : List Nat) : Dev :=
  (qs.map d.sqBib).eraseDups.foldl (fun d b => d.reportMedia o.target (o.tile.getD 0) b) d

/-- One waiter of a read takes what it brought (R386, R418, R419). -/
def Dev.wake (d : Dev) (o : FOp) (x : ReadOut) (w : Wait) : Dev :=
  let k := o.tile.getD 0
  let levels := x.allMisses
  let ok := x.allOk
  match w with
  | .req r i => if d.liveJob r then d.tierReadEnd r i o x else d
  | .group g =>
    let (off, len) := d.groupSpan g
    let qs := match Tab.find d.ix.groups g with | some x => x.reqs.map (·.1) | none => []
    (if x.ok off len then d else d.mediaQueries o qs).groupTile g (x.misses off len) (x.ok off len)
  | .scan n e u =>
    let qs := match d.batch n with | some b => Tab.get [] b.noticed (e * 2 ^ 32 + u) | none => []
    (if ok then d else d.mediaQueries o qs).scanTile n e u levels ok
  | .weight n l i => d.weightRead n l i k levels o.target ok
  | .gather g => d.gatherTile g k x o.target
  | .pool b => d.blockBack b levels o.target ok
  | .copy w => d.copyRead o w ok
  | .internal => if ok then d else d.reportMedia o.target k none

/-- The local bib of the first request that waits for a read. -/
def Dev.readBib (d : Dev) (o : FOp) : Option Nat :=
  match o.waiters with
  | .req r _ :: _ => (Tab.find d.reqs r).bind (·.bib)
  | _ => none

/-- A flash read has ended. In flush mode nothing waits for it any more (R427). -/
def Dev.flashReadEnd (d : Dev) (n : Nat) (o : FOp) (x : FlashRead) : Dev :=
  let y := d.readOut o x
  let d := d.countReadEnd o y x.corrected x.crcFails
  let d := if y.bad.isEmpty then d else (d.mediaEvent o 2 (d.readBib o)).markBad o y.bad
  let d := d.endRead n o y.bad.isEmpty
  if !d.coreOn then d else o.waiters.foldl (fun d w => d.wake o y w) d

/-- A journal program, which no read suspends (R416). -/
def FOp.journal (o : FOp) : Bool := o.kind == 1 && match o.why with | some w => w.journal | none => false

/-- R416: a read of a target ends after the reads that came before it, and after a journal program that it found there. -/
def Dev.readFirst (d : Dev) (n : Nat) (o : FOp) : Bool :=
  !(d.fl.ops.any fun p => decide (p.1 < n) && p.2.target == o.target && (p.2.kind == 0 || p.2.journal))

/-- R416: a program or an erase is suspended while its target has reads. -/
def Dev.suspended (d : Dev) (o : FOp) : Bool := !o.journal && (d.opsOn o.target).any fun p => p.kind == 0

/-- FLASH_READ_DONE (R386, R416 to R419). -/
def execFlashReadDone (t op : Nat) (res : FlashRead) (s : State) : Host.Outcome State Fault Refusal :=
  s.act t Dev.flashOn fun d =>
    match Tab.find d.fl.ops op with
    | some o => if o.kind = 0 && d.readFirst op o then d.flashReadEnd op o res else d
    | none => d

/-- R389: the flash copy of a tile is written; where the tile has changed since the write began, the flash holds less than
the tile does, and the journal keeps the difference. -/
def Dev.tileHome (d : Dev) (k : Nat) : Dev :=
  let d := (d.homeTile k).homeRows k
  if 2 ^ 42 ≤ k then d
  else match d.heatIdx (k / 2 ^ 32) with
    | some i => d.trimJournal i
    | none => d

/-- What a program that has ended well leaves (Tables 17.4, 17.7, 21.2). -/
def Dev.programDone (d : Dev) (w : Why) (o : FOp) : Dev :=
  match w with
  | .groupJournal h e => d.groupDurable h e o
  | .stepJournal n st => if d.coreOn then d.stepDurable n st o else d.stepRecorded n st o
  | .writeBack k =>
    let whole := (d.tile k).writing
    let d := d.programEnd w o
    let d := if whole then d.tileHome k else d
    if d.coreOn then Dev.installGo (d.em.installs.length + 1) (Dev.refillGo (d.ix.refills.length + 1) d.stepsGo) else d
  | .spill b => (d.programEnd w o).spilled b
  | .removal n => d.removalRecorded n
  | .startRecord => d.flushEnd1 w o
  | .openPages => d.flushEnd1 w o
  | .flushSegments _ => d.flushEnd1 w o
  | .endRecord => d.flushEnd1 w o
  | _ => d.programEnd w o

/-- A program has ended; what waited for room goes on, and empty blocks are erased. -/
def Dev.writeDone (d : Dev) (n : Nat) (o : FOp) (ok : Bool) : Dev :=
  let d := d.dropOp n
  let d := match o.why with
    | some w => if ok then d.programDone w o else d.programFail o
    | none => d
  if d.coreOn then d.sweepBlocks.kick else if d.rg .FTL_SUPPLY_FLUSH = 1 then Dev.flushPump 8 d else d

/-- FLASH_PROGRAM_DONE (R395, R414, R420, R427). -/
def execFlashProgramDone (t op : Nat) (ok : Bool) (s : State) : Host.Outcome State Fault Refusal :=
  s.act t Dev.flashOn fun d =>
    match Tab.find d.fl.ops op with
    | some o => if o.kind = 1 && !d.suspended o then d.writeDone op o ok else d
    | none => d

/-- FLASH_ERASE_DONE (R420). -/
def execFlashEraseDone (t op : Nat) (ok : Bool) (s : State) : Host.Outcome State Fault Refusal :=
  s.act t Dev.flashOn fun d =>
    match Tab.find d.fl.ops op with
    | some o =>
      if o.kind != 2 || d.suspended o then d
      else
        let d := d.eraseEnd op o ok
        if d.coreOn then d.kick else d
    | none => d

/-- NV_BAR_ENTRY (R425). VSENSE_MAIN is in 1/1,000 of nominal. Programs that wait for room are held from now on, or their requests end;
what waits for a spill is served anew (R375, R395). -/
def execNvBarEntry (t main : Nat) (s : State) : Host.Outcome State Fault Refusal :=
  s.act t Dev.mgmtOn fun d =>
    let d := d.setRg .PWR_SENSE_MAIN main
    if main < d.rg .FTL_VTHR_NVBAR * 10 && d.rg .FTL_SUPPLY_NVLOW = 0 then
      let d := (d.setRg .FTL_SUPPLY_NVLOW 1).bump .FTL_NVENTRY_COUNT
      if d.coreOn then d.unspill.kick else d
    else d

/-- TIER_SWEEP (R387), every 10 ms. -/
def execTierSweep (t : Nat) (s : State) : Host.Outcome State Fault Refusal :=
  s.act t Dev.coreOn Dev.sweepDue

/-- R532: a loss where no flush can be made: HALT, where only a NOR or fuse write already started goes on. -/
def Dev.lossHalt (d : Dev) : Dev :=
  let d : Dev := { d with rcv := match d.rcv with | some x => if x.writing then some x else none | none => none }
  d.halt

/-- A loss (R425, R427, R532): flush mode once boot step 7 has started, HALT before that and in recovery. -/
def Dev.loss (d : Dev) (cause : Nat) : Dev :=
  if d.power = 7 then d.lossHalt
  else if !d.coreOn then d
  else if d.power = 2 && !(5 ≤ d.rg .BOOT_STAT_PHASE && d.rg .BOOT_STAT_PHASE ≤ 7) then d.lossHalt
  else d.dropPasses.beginFlush cause

/-- FLUSH_ENTRY (R427): VSENSE_MAIN below LOSS (cause 0, in 1/1,000 of nominal), or HOLDUP_N asserted (cause 1). -/
def execFlushEntry (t cause main : Nat) (s : State) : Host.Outcome State Fault Refusal :=
  s.act t Dev.mgmtOn fun d =>
    let d := d.setRg .PWR_SENSE_MAIN main
    if cause = 1 || main < d.rg .FTL_VTHR_LOSS * 10 then d.loss (cause % 2) else d

end Sys2Proof.Machine
end

