-- ==== Sys2Proof/Machine/Manage.lean ====
section
/-!
DEFINITION. Registers as a host reads and writes them (R15, R16, R75, R76, R544, R568), the Start List in PF0 BAR0, and the
management port (R551, Table 22.15).
-/
namespace Sys2Proof.Machine

/-! ## Writes (R15) -/

/-- One field of a register is written, by its access type (Table 00.3). -/
def Dev.writeField (d : Dev) (f : Fld) (inst rec v : Nat) : Dev :=
  let x := bits v f.info.hi f.info.lo
  match f.info.acc with
  | .rw => d.setRg f x inst rec
  | .rwl => if d.imageLoaded then d else d.setRg f x inst rec
  | .w1c => d.setRg f (d.rg f inst rec &&& ((f.top - 1) ^^^ x)) inst rec
  | _ => d

/-- A register that stores what is written. -/
def Dev.storeReg (d : Dev) (blk inst off v : Nat) : Dev :=
  (fieldsAt blk off).foldl (fun d p => d.writeField p.1 inst p.2 v) d

/-- SOFT_RESET's key (R537). -/
def Dev.softReset (d : Dev) (v : Nat) : Dev := if v % 65536 = 0x5AA5 then d.nodeReset CAUSE_SOFT else d

/-- PANEL_CMD (R520): removal requests, then cancels. -/
def Dev.panelCmd (d : Dev) (v : Nat) : Dev :=
  if !d.coreOn then d
  else
    let d := (maskSlots (bits v 3 0)).foldl Dev.removeRequest d
    ((maskSlots (bits v 7 4)).foldl (fun d n => if d.inWindow n then d.cancelRemoval n else d) d).panelStep

/-- A whole register is written through a port. The registers with a behaviour of their own have it here too. -/
def Dev.putReg1 (d : Dev) (port blk inst off v : Nat) : Dev :=
  if blk = 7 && off = 0x2000 then d.admBase inst v
  else if blk = 7 && off = 0x2008 then d.admCfg inst v
  else if blk = 0x65 && off = 4 then d.panelCmd v
  else if blk = 5 && off = 0xC then d.softReset v
  else if blk = 0x102 then (if port = 0 then (if off = 0x1814 then d.rcvCmd port v else d.storeReg blk 0 off v) else d)
  else d.storeReg blk inst off v

/-- Four bytes of a block are written: the register there, or the half of a 64-bit register. -/
def Dev.putHalf (d : Dev) (port blk inst off v : Nat) : Dev :=
  let low := fieldsAt blk off
  let high := if off ≥ 4 then fieldsAt blk (off - 4) else []
  if reg64 low then d.putReg1 port blk inst off (d.regValue port low inst / 2 ^ 32 * 2 ^ 32 + v % 2 ^ 32)
  else if low.isEmpty && reg64 high then d.putReg1 port blk inst (off - 4) (d.regValue port high inst % 2 ^ 32 + v % 2 ^ 32 * 2 ^ 32)
  else d.putReg1 port blk inst off (v % 2 ^ 32)

/-- A write of four or eight bytes that reaches a block: eight write a 64-bit register whole, or two registers. -/
def Dev.putWord (d : Dev) (port blk inst off size v : Nat) : Dev :=
  if size = 4 then d.putHalf port blk inst off v
  else if reg64 (fieldsAt blk off) then d.putReg1 port blk inst off (v % 2 ^ 64)
  else (d.putHalf port blk inst off (v % 2 ^ 32)).putHalf port blk inst (off + 4) (v / 2 ^ 32 % 2 ^ 32)

/-- A write to a VF's BAR0: a part of a window's block is dropped (R137); VF_INFO and what lies behind it do not take it. -/
def Dev.writeVf (d : Dev) (port vf off : Nat) : Dev := if off < 0x10000 then d.dropBlock (.vf port vf (off / 0x2000)) off else d

/-- A write of `size` bytes at an offset of a block or a BAR (R15, R72, R76). -/
def Dev.writeReg (d : Dev) (port blk inst off size v : Nat) : Dev :=
  let whole := (size = 4 || size = 8) && off % size = 0
  let bar2 (fn : Nat) (d : Dev) : Dev :=
    let d := d.msixWrite port fn off v
    if size = 8 then d.msixWrite port fn (off + 4) (v / 2 ^ 32) else d
  if outsideBlocks blk then
    if blk != 0x102 && !d.vfOn port inst then d.emit (.unsupported port)
    else if blk = 0x100 then d.writeVf port inst off
    else if !whole then d
    else if blk = 0x103 then bar2 inst d
    else if off < 0x1800 then bar2 0 d
    else d.putWord port blk 0 off size v
  else if blk = 7 && off < 0x2000 && d.blockOpen blk inst then d.dropBlock (.pf0 inst) off
  else if !whole || !d.blockOpen blk inst then d.strayAccess port true size
  else d.putWord port blk inst off size v

/-- REGISTER_WRITE (R15). -/
def execRegisterWrite (t port blk inst : Nat) (span : Span) (value : Nat) (s : State) : Host.Outcome State Fault Refusal :=
  s.act t Dev.portsOn fun d => d.writeReg port blk inst span.off span.size value

/-! ## Reads -/

/-- RC_REGISTER_READ (R15): a register is read, and cleared where it is RC; `hw` is what the same cycle counts. -/
def execRcRegisterRead (t port blk inst : Nat) (span : Span) (hw : Nat) (s : State) : Host.Outcome State Fault Refusal :=
  s.runIf t Dev.portsOn fun d => d.readReg port blk inst span.off span.size hw

/-- The block of BAR0 that holds an offset, with the offset in it. -/
def Dev.blockAt (d : Dev) (off : Nat) : Option (SlEnt × Nat) :=
  (d.sl.ents.find? fun e => e.bar == 0 && !e.off && decide (e.base ≤ off) && decide (off < e.base + e.size)).map fun e =>
    (e, off - e.base)

/-- An access to PF0 BAR0, `wr` the value that a write brings: the Start List, whose writes are discarded; a block; or neither (R72,
R76, R78, R93). -/
def Dev.bar0 (d : Dev) (port off size : Nat) (wr : Option Nat) : Dev :=
  if off < 0x10000 then
    if wr.isSome || size = 0 || off % 64 + size > 64 then d.strayAccess port wr.isSome size
    else
      let (n, d) := if d.loader = 4 then d.draw else (0, d)
      let d := d.rewriting n
      let b := d.startBytes n
      d.answerRead port (sub (b ++ fill (0x10000 - b.length) 0) off size)
  else match d.blockAt off with
    | none => d.strayAccess port wr.isSome size
    | some (e, o) => match wr with
      | some v => d.writeReg port e.type e.inst o size v
      | none => d.readReg port e.type e.inst o size 0

/-- BAR0_STRAY_ACCESS (R76): an access by its offset, whatever it finds there. -/
def execBar0StrayAccess (t port off size : Nat) (wr : Option Nat) (s : State) : Host.Outcome State Fault Refusal :=
  s.act t Dev.portsOn fun d => d.bar0 port off size wr

/-! ## The management port (R551) -/

/-- MCTP_SET_ENDPOINT_ID: 0 and 255 name no endpoint (PRESUMED, log 34). -/
def execMctpSetEndpointId (t eid : Nat) (s : State) : Host.Outcome State Fault Refusal :=
  s.runIf t Dev.mgmtOn fun d =>
    let d : Dev := if 1 ≤ eid && eid ≤ 254 then { d with mctpEid := eid } else d
    d.emit (.mctp (Config.mctpReply 1 ++ le 1 d.mctpEid))

/-- MCTP_GET_ENDPOINT_ID. -/
def execMctpGetEndpointId (t : Nat) (s : State) : Host.Outcome State Fault Refusal :=
  s.runIf t Dev.mgmtOn fun d => d.emit (.mctp (Config.mctpReply 2 ++ le 1 d.mctpEid))

/-- MCTP_GET_VERSION_SUPPORT. -/
def execMctpGetVersionSupport (t : Nat) (s : State) : Host.Outcome State Fault Refusal :=
  s.runIf t Dev.mgmtOn fun d => d.emit (.mctp (Config.mctpReply 4))

/-- MCTP_GET_MESSAGE_TYPE: vendor-defined PCI, 0x7E. -/
def execMctpGetMessageType (t : Nat) (s : State) : Host.Outcome State Fault Refusal :=
  s.runIf t Dev.mgmtOn fun d => d.emit (.mctp (Config.mctpReply 5 ++ le 1 0x7E))

/-- MCTP_GET_VDM_SUPPORT. -/
def execMctpGetVdmSupport (t : Nat) (s : State) : Host.Outcome State Fault Refusal :=
  s.runIf t Dev.mgmtOn fun d => d.emit (.mctp (Config.mctpReply 6))

/-- A whole register as bytes. -/
def Dev.regBytes (d : Dev) (blk off n : Nat) : Bytes := le n (d.regValue 0 (fieldsAt blk off) 0)

/-- GET_STATUS (Table 22.15): BOOT_STAT, PWR_STATE, REF_STAT, FTL_SUPPLY, PWR_TEMP, in that order (log 34). -/
def Dev.statusReply (d : Dev) : Bytes :=
  d.regBytes 0x102 0x1800 8 ++ d.regBytes 5 0 4 ++ d.regBytes 3 4 4 ++ d.regBytes 0x42 Fld.FTL_SUPPLY_FLUSH.info.off 4
    ++ d.regBytes 5 0x20 4

def execGetStatus (t : Nat) (s : State) : Host.Outcome State Fault Refusal :=
  s.runIf t Dev.mgmtOn fun d => d.emit (.mctp d.statusReply)

/-- GET_POWER (Table 22.15): PWR_POWER and PWR_SENSE, as the node measures them now. -/
def execGetPower (t : Nat) (sample : PowerSample) (s : State) : Host.Outcome State Fault Refusal :=
  s.runIf t Dev.mgmtOn fun d =>
    let d := ((d.setRg .PWR_POWER_WATTS sample.watts).setRg .PWR_SENSE_MAIN sample.main).setRg .PWR_SENSE_HOLD sample.hold
    d.emit (.mctp (d.regBytes 5 0x1C 4 ++ d.regBytes 5 0x10 8))

/-- READ_LOG (Table 22.15): 64 bytes of log 0x01 or 0x40, under the ranges of R424; anything else is refused. -/
def Dev.mctpLog (d : Dev) (log sled off : Nat) : Bytes :=
  let b := if log = 1 && sled ≤ 3 then d.healthLog sled else if log = 0x40 && sled = 0xFF then d.measLogBytes else []
  if off % 64 = 0 && off + 64 ≤ b.length then sub b off 64 else []

def execReadLog (t log sled off : Nat) (s : State) : Host.Outcome State Fault Refusal :=
  s.runIf t Dev.mgmtOn fun d => d.emit (.mctp (d.mctpLog log sled off))

/-- SET_IDENTIFY (Table 22.15, R518). -/
def execSetIdentify (t : Nat) (value : Bool) (s : State) : Host.Outcome State Fault Refusal :=
  s.runIf t Dev.mgmtOn fun d => (d.setRg .PANEL_CFG_ID (ofBool value)).emit (.mctp [])

end Sys2Proof.Machine
end

