-- ==== Sys2Proof/Machine/RelayCmds.lean ====
section
/-!
DEFINITION. The commands of Relay and the meet (spec file 19): frames as they arrive, and the meet's timed events.
-/
namespace Sys2Proof.Machine

/-- HEARTBEAT. -/
def execHeartbeat (t : Nat) (h : RHdr) (body : Bytes) (s : State) : Host.Outcome State Fault Refusal :=
  s.act t Dev.coreOn (Dev.relayCmd K_HEARTBEAT h body)

/-- BEACON. -/
def execBeacon (t : Nat) (h : RHdr) (body : Bytes) (s : State) : Host.Outcome State Fault Refusal :=
  s.act t Dev.coreOn (Dev.relayCmd K_BEACON h body)

/-- MEMBERS. -/
def execMembers (t : Nat) (h : RHdr) (body : Bytes) (s : State) : Host.Outcome State Fault Refusal :=
  s.act t Dev.coreOn (Dev.relayCmd K_MEMBERS h body)

/-- ROLES. -/
def execRoles (t : Nat) (h : RHdr) (body : Bytes) (s : State) : Host.Outcome State Fault Refusal :=
  s.act t Dev.coreOn (Dev.relayCmd K_ROLES h body)

/-- LOST. -/
def execLost (t : Nat) (h : RHdr) (body : Bytes) (s : State) : Host.Outcome State Fault Refusal :=
  s.act t Dev.coreOn (Dev.relayCmd K_LOST h body)

/-- TAKEOVER. -/
def execTakeover (t : Nat) (h : RHdr) (body : Bytes) (s : State) : Host.Outcome State Fault Refusal :=
  s.act t Dev.coreOn (Dev.relayCmd K_TAKEOVER h body)

/-- BATON. -/
def execBaton (t : Nat) (h : RHdr) (body : Bytes) (s : State) : Host.Outcome State Fault Refusal :=
  s.act t Dev.coreOn (Dev.relayCmd K_BATON h body)

/-- RESTART. -/
def execRestart (t : Nat) (h : RHdr) (body : Bytes) (s : State) : Host.Outcome State Fault Refusal :=
  s.act t Dev.coreOn (Dev.relayCmd K_RESTART h body)

/-- JOIN. -/
def execJoin (t : Nat) (h : RHdr) (body : Bytes) (s : State) : Host.Outcome State Fault Refusal :=
  s.act t Dev.coreOn (Dev.relayCmd K_JOIN h body)

/-- REFILL. -/
def execRefill (t : Nat) (h : RHdr) (body : Bytes) (s : State) : Host.Outcome State Fault Refusal :=
  s.act t Dev.coreOn (Dev.relayCmd K_REFILL h body)

/-- RELAY_ACK. -/
def execRelayAck (t : Nat) (h : RHdr) (s : State) : Host.Outcome State Fault Refusal :=
  s.act t Dev.coreOn (Dev.relayCmd K_ACK h [])

/-- SHARD_QUERY. -/
def execShardQuery (t : Nat) (h : RHdr) (body : Bytes) (s : State) : Host.Outcome State Fault Refusal :=
  s.act t Dev.coreOn (Dev.relayCmd K_SHARD_QUERY h body)

/-- PARTIAL_LIST. -/
def execPartialList (t : Nat) (h : RHdr) (body : Bytes) (s : State) : Host.Outcome State Fault Refusal :=
  s.act t Dev.coreOn (Dev.relayCmd K_PARTIAL_LIST h body)

/-- SHARD_FAIL. -/
def execShardFail (t : Nat) (h : RHdr) (body : Bytes) (s : State) : Host.Outcome State Fault Refusal :=
  s.act t Dev.coreOn (Dev.relayCmd K_SHARD_FAIL h body)

/-- SHARD_CANCEL. -/
def execShardCancel (t : Nat) (h : RHdr) (body : Bytes) (s : State) : Host.Outcome State Fault Refusal :=
  s.act t Dev.coreOn (Dev.relayCmd K_SHARD_CANCEL h body)

/-- UPDATE over Relay. -/
def execUpdateFrame (t : Nat) (h : RHdr) (body : Bytes) (s : State) : Host.Outcome State Fault Refusal :=
  s.act t Dev.coreOn (Dev.relayCmd K_UPDATE h body)

/-- OUTCOME. -/
def execOutcome (t : Nat) (h : RHdr) (body : Bytes) (s : State) : Host.Outcome State Fault Refusal :=
  s.act t Dev.coreOn (Dev.relayCmd K_OUTCOME h body)

/-- GROUP. -/
def execGroup (t : Nat) (h : RHdr) (body : Bytes) (s : State) : Host.Outcome State Fault Refusal :=
  s.act t Dev.coreOn (Dev.relayCmd K_GROUP h body)

/-- GROUP_ACK. -/
def execGroupAck (t : Nat) (h : RHdr) (body : Bytes) (s : State) : Host.Outcome State Fault Refusal :=
  s.act t Dev.coreOn (Dev.relayCmd K_GROUP_ACK h body)

/-- COMMIT. -/
def execCommit (t : Nat) (h : RHdr) (body : Bytes) (s : State) : Host.Outcome State Fault Refusal :=
  s.act t Dev.coreOn (Dev.relayCmd K_COMMIT h body)

/-- EMBED. -/
def execEmbedFrame (t : Nat) (h : RHdr) (body : Bytes) (s : State) : Host.Outcome State Fault Refusal :=
  s.act t Dev.coreOn (Dev.relayCmd K_EMBED h body)

/-- POOL. -/
def execPoolFrame (t : Nat) (h : RHdr) (body : Bytes) (s : State) : Host.Outcome State Fault Refusal :=
  s.act t Dev.coreOn (Dev.relayCmd K_POOL h body)

/-- RELAY_BAD_FRAME (R467): discarded and counted. -/
def execRelayBadFrame (t : Nat) (_raw : Bytes) (s : State) : Host.Outcome State Fault Refusal :=
  s.act t (fun d => d.coreOn && d.mt.on) fun d => d.bump .RLY_BADFRAME_COUNT

/-- RELAY_RETRANSMIT. -/
def execRelayRetransmit (t dst seq : Nat) (s : State) : Host.Outcome State Fault Refusal :=
  s.act t Dev.coreOn fun d => d.retransmit dst seq

/-- HEARTBEAT_INSTANT. -/
def execHeartbeatInstant (t : Nat) (s : State) : Host.Outcome State Fault Refusal :=
  s.act t Dev.coreOn fun d => d.heartbeatNow.meetEnd

/-- MEMBERS_PERIOD (R472). -/
def execMembersPeriod (t : Nat) (s : State) : Host.Outcome State Fault Refusal :=
  s.act t Dev.coreOn fun d => if d.now % 1000000 = 0 && d.isHolder && d.inMeet then d.sendMembers else d

/-- SLOT_LOSS_DEADLINE (R473). -/
def execSlotLossDeadline (t slot : Nat) (s : State) : Host.Outcome State Fault Refusal :=
  s.act t Dev.coreOn fun d =>
    if d.isHolder && d.inMeet && slot != d.mt.slot && d.memberLive slot && missed4 ((d.member slot).hbInst.getD 0) d.now then
      (d.declareLost slot (d.member slot).hbAt 0 true).meetEnd
    else d

/-- BEACON_SILENCE_COMMIT (R474). -/
def execBeaconSilenceCommit (t : Nat) (s : State) : Host.Outcome State Fault Refusal :=
  s.act t Dev.coreOn fun d =>
    if d.silent && d.mt.member && !d.mt.silentDone then
      let d := d.setMt fun x => { x with silentDone := true }
      ((Tab.keys d.ix.heats).foldl (fun d i => (d.silenceCommit i).releaseHeld i) d)
    else d

/-- SELF_FENCE (R474). -/
def execSelfFence (t : Nat) (s : State) : Host.Outcome State Fault Refusal :=
  s.act t Dev.coreOn fun d =>
    if d.inMeet && !d.isHolder && d.mt.beaconAt + 225000 ≤ d.now then d.selfFenceNow.meetEnd else d

/-- STANDBY_TAKES_BATON. -/
def execStandbyTakesBaton (t : Nat) (s : State) : Host.Outcome State Fault Refusal :=
  s.act t Dev.coreOn fun d => d.standbyTakes.meetEnd

/-- JOIN_WINDOW_END. -/
def execJoinWindowEnd (t : Nat) (s : State) : Host.Outcome State Fault Refusal :=
  s.act t Dev.coreOn fun d => d.joinWindow.meetEnd

/-- COLD_START_LISTEN_END. -/
def execColdStartListenEnd (t : Nat) (s : State) : Host.Outcome State Fault Refusal := s.act t Dev.coreOn Dev.coldStart

/-- PLANNED_HANDOFF_BOUNDARY. -/
def execPlannedHandoffBoundary (t heat : Nat) (s : State) : Host.Outcome State Fault Refusal :=
  s.act t Dev.coreOn fun d => match d.heatIdx heat with
    | some i => d.handoffBoundary i
    | none => d

/-- HEDGE_THRESHOLD (R486). -/
def execHedgeThreshold (t req source : Nat) (s : State) : Host.Outcome State Fault Refusal :=
  s.act t Dev.coreOn fun d => if d.mt.on then (d.hedgeDue req source) else d

/-- SOURCE_GIVE_UP (R486). -/
def execSourceGiveUp (t req source : Nat) (s : State) : Host.Outcome State Fault Refusal :=
  s.act t Dev.coreOn fun d => if d.mt.on then (d.giveUpDue req source) else d

/-- HEDGE_RECOMPUTE (R485). -/
def execHedgeRecompute (t : Nat) (s : State) : Host.Outcome State Fault Refusal := s.act t Dev.coreOn Dev.hedgeRecompute

/-- INTERRUPTED_HOUR_ROLL (R496). -/
def execInterruptedHourRoll (t : Nat) (s : State) : Host.Outcome State Fault Refusal := s.act t Dev.coreOn Dev.hourRoll

/-- HOLDOVER_LIMIT (R481, R482): a second of holdover has passed. -/
def execHoldoverLimit (t : Nat) (s : State) : Host.Outcome State Fault Refusal := s.act t Dev.mgmtOn Dev.holdoverDown

/-- COMMIT_GROUP_CLOSE (R178, R241): `heat` is the heat's number. -/
def execCommitGroupClose (t heat : Nat) (s : State) : Host.Outcome State Fault Refusal :=
  s.act t Dev.coreOn fun d => match d.heatIdx heat with
    | some i => ((d.groupClose i).releaseHeld i)
    | none => d

/-- COMMIT_GROUP_PUBLISH (R178, R241). -/
def execCommitGroupPublish (t heat : Nat) (s : State) : Host.Outcome State Fault Refusal :=
  s.act t Dev.coreOn fun d => match d.heatIdx heat with
    | some i => (((d.groupPublish i).copiesUp).releaseHeld i)
    | none => d

/-- LAGHOLD_EXPIRY (R180). -/
def execLagholdExpiry (t sq : Nat) (s : State) : Host.Outcome State Fault Refusal :=
  s.act t Dev.coreOn fun d => d.lagExpiry sq

end Sys2Proof.Machine
end

