-- ==== Sys2Proof/Machine/WorkCmds.lean ====
section
/-!
DEFINITION. The commands of Infield, the embedding tables, the KV pool, consolidation, and of the signing and fuse engines.
-/
namespace Sys2Proof.Machine

/-- PASS_GRANT. -/
def execPassGrant (t part : Nat) (s : State) : Host.Outcome State Fault Refusal :=
  s.act t Dev.coreOn fun d => d.reapPasses.grantPass part

/-- WEIGHT_TILE_ARRIVAL. -/
def execWeightTileArrival (t pass layer tile : Nat) (s : State) : Host.Outcome State Fault Refusal :=
  s.act t Dev.coreOn fun d => d.reapPasses.weightArrival pass layer tile

/-- TILE_WDOG. -/
def execTileWdog (t tile : Nat) (s : State) : Host.Outcome State Fault Refusal :=
  s.act t Dev.coreOn fun d => d.reapPasses.tileWdog tile

/-- PROG_CHECK_TIMEOUT (R291): a PROG_LOAD whose check has not ended within 20 ms. -/
def execProgCheckTimeout (t req : Nat) (s : State) : Host.Outcome State Fault Refusal :=
  s.act t Dev.coreOn fun d =>
    match Tab.find d.reqs req with
    | some q => if q.live && u8 q.desc 0 = 0x20 && q.admitted + 20000000 ≤ d.now then d.complete req ST_TIMEOUT else d
    | none => d

/-- STEP_TIMEOUT (R349): STEP_TO_US after the first change or marker of the next step. -/
def execStepTimeout (t table step : Nat) (s : State) : Host.Outcome State Fault Refusal :=
  s.act t Dev.coreOn fun d =>
    match d.tableIdx table with
    | none => d
    | some i =>
      match (d.table i).bind fun t => t.buf step with
      | none => d
      | some b => if b.firstAt + d.em.stepTo * 1000 ≤ d.now then d.closeSteps 4 i else d

/-- LOAD_WINDOW_END (R354), at whole milliseconds: `busy` ns of the window in which the busiest resource of EMB_CFG.PART was
occupied, as the node measures it. -/
def execLoadWindowEnd (t busy : Nat) (s : State) : Host.Outcome State Fault Refusal :=
  s.act t Dev.coreOn fun d => if d.now % 1000000 = 0 then d.windowEnd busy else d

/-- MIGRATION_TIMEOUT. -/
def execMigrationTimeout (t mig : Nat) (s : State) : Host.Outcome State Fault Refusal :=
  s.act t Dev.coreOn fun d => d.migTimeout mig

/-- MIGRATION_SWITCH. -/
def execMigrationSwitch (t mig : Nat) (s : State) : Host.Outcome State Fault Refusal :=
  s.act t Dev.coreOn fun d => d.migSwitch mig

/-- LEASE_EXPIRY (R370). -/
def execLeaseExpiry (t key : Nat) (s : State) : Host.Outcome State Fault Refusal :=
  s.act t Dev.coreOn fun d =>
    match (d.seg key).bind (·.lease) with
    | some e => if e ≤ d.now then d.expire key else d
    | none => d

/-- OFFER_EXPIRY (Table 15.7). -/
def execOfferExpiry (t key : Nat) (s : State) : Host.Outcome State Fault Refusal :=
  s.act t Dev.coreOn fun d =>
    match (d.seg key).bind (·.offer) with
    | some (_, _, _, at_) =>
      if at_ + d.pl.handoffMs * 1000000 ≤ d.now then (d.updSeg key fun s => { s with offer := none }).bump .POOL_OFFERTO_COUNT else d
    | none => d

/-- APERTURE_SLOT_SET (R379, R381): POOL_APTKEY or POOL_APTCTL.EN of a slot. -/
def execApertureSlotSet (t slot : Nat) (isKey : Bool) (value : Nat) (s : State) : Host.Outcome State Fault Refusal :=
  s.runIf t Dev.coreOn fun d => d.onBlock 0x63 0 fun d =>
    if slot > 63 then d
    else if isKey then d.setRg .POOL_APTKEY_KEY value 0 slot
    else d.setRg .POOL_APTCTL_EN (value % 2) 0 slot

/-- R73: BAR4 of a port is there, and the active image has a POOL section. -/
def Dev.aptOn (d : Dev) (port : Nat) : Bool := (d.port port).apt && d.pl.on

/-- APERTURE_READ (R73, R379, R380): served whole from one published version. -/
def execApertureRead (t port off len : Nat) (s : State) : Host.Outcome State Fault Refusal :=
  s.runIf t Dev.portsOn fun d =>
    let slot := off / 2 ^ 30
    let o := off % 2 ^ 30
    let key := d.rg .POOL_APTKEY_KEY 0 slot
    if !d.aptOn port then d.emit (.unsupported port)
    else if slot > 63 || d.rg .POOL_APTCTL_EN 0 slot = 0 || keyHome key != d.mt.slot then d.aptAnswer port none
    else match d.seg key with
      | none => d.aptAnswer port none
      | some s =>
        if s.version = 0 || s.blocks * 65536 < o + len then d.aptAnswer port none
        else d.startSegRead { who := .apt port o len, desc := [], slot := d.mt.slot, bib := 0, key := key } s o len

/-- APERTURE_WRITE (R379): dropped and counted; with no POOL section, Unsupported Request as every request to BAR4 (R73). -/
def execApertureWrite (t port off len : Nat) (s : State) : Host.Outcome State Fault Refusal :=
  s.runIf t Dev.portsOn fun d =>
    if !d.aptOn port then d.emit (.unsupported port) else if off < 2 ^ 36 && 0 < len then d.bump .POOL_APTUR_COUNT else d

/-- BUILD_WALK_START (R252): the hosted copy of a heat starts its next build walk. -/
def execBuildWalkStart (t heat : Nat) (s : State) : Host.Outcome State Fault Refusal :=
  s.act t Dev.coreOn fun d =>
    match d.heatIdx heat with
    | none => d
    | some i =>
      match d.heat i with
      | none => d
      | some h =>
        if h.pausing || d.loader = 3 || d.loader = 4 then d.stageGo i else (d.stageGo i).buildWalk i

/-- CONSOLIDATION_PAUSE (R254): at a whole millisecond, one copy whose staging is complete, in turn; R494 may
defer it. -/
def execConsolidationPause (t : Nat) (s : State) : Host.Outcome State Fault Refusal :=
  s.act t Dev.coreOn fun d =>
    let ms := d.now / 1000000
    if d.now % 1000000 != 0 || d.ix.pausedAt = some ms || d.loader = 3 || d.loader = 4 then d
    else
      let d := (Tab.keys d.ix.heats).foldl (fun d i => (d.restage i).stageGo i) d
      let ready := (Tab.keys d.ix.heats).filter fun i => d.staged i && d.pauseFits i
      match (ready.find? fun i => d.ix.turn < i) with
      | some i => ((d.setIx fun x => { x with turn := i, pausedAt := some ms }).pauseBegin i).pauseDue
      | none =>
        match ready with
        | i :: _ => ((d.setIx fun x => { x with turn := i, pausedAt := some ms }).pauseBegin i).pauseDue
        | [] => d

/-- QUOTE_SIGNED (R548). -/
def execQuoteSigned (t : Nat) (s : State) : Host.Outcome State Fault Refusal := s.act t Dev.coreOn Dev.quoteSigned

/-- FUSE_WRITE_DONE (R549, R426: a fuse write once started completes). -/
def execFuseWriteDone (t : Nat) (s : State) : Host.Outcome State Fault Refusal :=
  s.runFuse t fun d => { d.fuseDone.pump with fuses := d.burnt }

end Sys2Proof.Machine
end

