-- ==== Sys2Proof/Machine/Dispatch.lean ====
section
/-!
DEFINITION. One arm per command.
-/
namespace Sys2Proof.Machine

def exec (i : Instr) (s : State) : Host.Outcome State Fault Refusal :=
  match i with
  | .search t src d => Sys2Proof.Machine.execSearch t src d s
  | .searchCode t src d => Sys2Proof.Machine.execSearchCode t src d s
  | .insert t src d => Sys2Proof.Machine.execInsert t src d s
  | .delete t src d => Sys2Proof.Machine.execDelete t src d s
  | .cancel t src d => Sys2Proof.Machine.execCancel t src d s
  | .progLoad t src d => Sys2Proof.Machine.execProgLoad t src d s
  | .progFree t src d => Sys2Proof.Machine.execProgFree t src d s
  | .run t src d => Sys2Proof.Machine.execRun t src d s
  | .runCancel t src d => Sys2Proof.Machine.execRunCancel t src d s
  | .lookup t src d => Sys2Proof.Machine.execLookup t src d s
  | .update t src d => Sys2Proof.Machine.execUpdate t src d s
  | .rowSet t src d => Sys2Proof.Machine.execRowSet t src d s
  | .stepEnd t src d => Sys2Proof.Machine.execStepEnd t src d s
  | .segRead t src d => Sys2Proof.Machine.execSegRead t src d s
  | .segStat t src d => Sys2Proof.Machine.execSegStat t src d s
  | .segCreate t src d => Sys2Proof.Machine.execSegCreate t src d s
  | .segWrite t src d => Sys2Proof.Machine.execSegWrite t src d s
  | .segFlush t src d => Sys2Proof.Machine.execSegFlush t src d s
  | .segPublish t src d => Sys2Proof.Machine.execSegPublish t src d s
  | .segRenew t src d => Sys2Proof.Machine.execSegRenew t src d s
  | .segHandoff t src d => Sys2Proof.Machine.execSegHandoff t src d s
  | .segDrop t src d => Sys2Proof.Machine.execSegDrop t src d s
  | .alloc t src d => Sys2Proof.Machine.execAlloc t src d s
  | .free t src d => Sys2Proof.Machine.execFree t src d s
  | .tileWrite t src d => Sys2Proof.Machine.execTileWrite t src d s
  | .tileRead t src d => Sys2Proof.Machine.execTileRead t src d s
  | .setHint t src d => Sys2Proof.Machine.execSetHint t src d s
  | .prefetch t src d => Sys2Proof.Machine.execPrefetch t src d s
  | .discard t src d => Sys2Proof.Machine.execDiscard t src d s
  | .scrub t src d => Sys2Proof.Machine.execScrub t src d s
  | .loadImage t src d => Sys2Proof.Machine.execLoadImage t src d s
  | .contractSet t src d => Sys2Proof.Machine.execContractSet t src d s
  | .bibEnable t src d => Sys2Proof.Machine.execBibEnable t src d s
  | .bibDisable t src d => Sys2Proof.Machine.execBibDisable t src d s
  | .bibReset t src d => Sys2Proof.Machine.execBibReset t src d s
  | .bibBind t src d => Sys2Proof.Machine.execBibBind t src d s
  | .ringSet t src d => Sys2Proof.Machine.execRingSet t src d s
  | .faultAck t src d => Sys2Proof.Machine.execFaultAck t src d s
  | .quote t src d => Sys2Proof.Machine.execQuote t src d s
  | .keyAdmin t src d => Sys2Proof.Machine.execKeyAdmin t src d s
  | .logRead t src d => Sys2Proof.Machine.execLogRead t src d s
  | .nop t src d => Sys2Proof.Machine.execNop t src d s
  | .meetStat t src d => Sys2Proof.Machine.execMeetStat t src d s
  | .heatRole t src d => Sys2Proof.Machine.execHeatRole t src d s
  | .meetRestart t src d => Sys2Proof.Machine.execMeetRestart t src d s
  | .batonMove t src d => Sys2Proof.Machine.execBatonMove t src d s
  | .unknownOpcode t src d => Sys2Proof.Machine.execUnknownOpcode t src d s
  | .ringRelease t src rec => Sys2Proof.Machine.execRingRelease t src rec s
  | .strayWindowWrite t port vf => Sys2Proof.Machine.execStrayWindowWrite t port vf s
  | .tlpDropped t src kind off => Sys2Proof.Machine.execTlpDropped t src kind off s
  | .bar0StrayAccess t port off size wr => Sys2Proof.Machine.execBar0StrayAccess t port off size wr s
  | .rcRegisterRead t port blk inst span hw => Sys2Proof.Machine.execRcRegisterRead t port blk inst span hw s
  | .registerWrite t port blk inst span value => Sys2Proof.Machine.execRegisterWrite t port blk inst span value s
  | .refPendClear t value hwSet => Sys2Proof.Machine.execRefPendClear t value hwSet s
  | .errclassWrite t value => Sys2Proof.Machine.execErrclassWrite t value s
  | .softReset t port value => Sys2Proof.Machine.execSoftReset t port value s
  | .adminRingConfig t port value => Sys2Proof.Machine.execAdminRingConfig t port value s
  | .apertureSlotSet t slot isKey value => Sys2Proof.Machine.execApertureSlotSet t slot isKey value s
  | .apertureRead t port off len => Sys2Proof.Machine.execApertureRead t port off len s
  | .apertureWrite t port off len => Sys2Proof.Machine.execApertureWrite t port off len s
  | .panelRemove t mask => Sys2Proof.Machine.execPanelRemove t mask s
  | .panelCancel t mask => Sys2Proof.Machine.execPanelCancel t mask s
  | .identifyWrite t value => Sys2Proof.Machine.execIdentifyWrite t value s
  | .recoveryLoad t port value => Sys2Proof.Machine.execRecoveryLoad t port value s
  | .vfFlr t port vf => Sys2Proof.Machine.execVfFlr t port vf s
  | .pf0Flr t port => Sys2Proof.Machine.execPf0Flr t port s
  | .portBindingLoss t port kind => Sys2Proof.Machine.execPortBindingLoss t port kind s
  | .perstAssert t port => Sys2Proof.Machine.execPerstAssert t port s
  | .linkDegraded t port lanes rate => Sys2Proof.Machine.execLinkDegraded t port lanes rate s
  | .dmaReadDone t id res => Sys2Proof.Machine.execDmaReadDone t id res s
  | .roceSubmission t bib imm payload => Sys2Proof.Machine.execRoceSubmission t bib imm payload s
  | .roceKeyRecord t bib rec => Sys2Proof.Machine.execRoceKeyRecord t bib rec s
  | .roceCeReceived t bib => Sys2Proof.Machine.execRoceCeReceived t bib s
  | .roceRetryExhausted t bib => Sys2Proof.Machine.execRoceRetryExhausted t bib s
  | .pauseReceived t port => Sys2Proof.Machine.execPauseReceived t port s
  | .neighborFrame t port kind => Sys2Proof.Machine.execNeighborFrame t port kind s
  | .ptpMessage t port offset freq => Sys2Proof.Machine.execPtpMessage t port offset freq s
  | .ptpSyncTimeout t => Sys2Proof.Machine.execPtpSyncTimeout t s
  | .holdoverLimit t => Sys2Proof.Machine.execHoldoverLimit t s
  | .heartbeat t h body => Sys2Proof.Machine.execHeartbeat t h body s
  | .beacon t h body => Sys2Proof.Machine.execBeacon t h body s
  | .members t h body => Sys2Proof.Machine.execMembers t h body s
  | .roles t h body => Sys2Proof.Machine.execRoles t h body s
  | .lost t h body => Sys2Proof.Machine.execLost t h body s
  | .takeover t h body => Sys2Proof.Machine.execTakeover t h body s
  | .baton t h body => Sys2Proof.Machine.execBaton t h body s
  | .restart t h body => Sys2Proof.Machine.execRestart t h body s
  | .join t h body => Sys2Proof.Machine.execJoin t h body s
  | .refill t h body => Sys2Proof.Machine.execRefill t h body s
  | .relayAck t h => Sys2Proof.Machine.execRelayAck t h s
  | .shardQuery t h body => Sys2Proof.Machine.execShardQuery t h body s
  | .partialList t h body => Sys2Proof.Machine.execPartialList t h body s
  | .shardFail t h body => Sys2Proof.Machine.execShardFail t h body s
  | .shardCancel t h body => Sys2Proof.Machine.execShardCancel t h body s
  | .updateFrame t h body => Sys2Proof.Machine.execUpdateFrame t h body s
  | .outcome t h body => Sys2Proof.Machine.execOutcome t h body s
  | .group t h body => Sys2Proof.Machine.execGroup t h body s
  | .groupAck t h body => Sys2Proof.Machine.execGroupAck t h body s
  | .commit t h body => Sys2Proof.Machine.execCommit t h body s
  | .embedFrame t h body => Sys2Proof.Machine.execEmbedFrame t h body s
  | .poolFrame t h body => Sys2Proof.Machine.execPoolFrame t h body s
  | .relayBadFrame t raw => Sys2Proof.Machine.execRelayBadFrame t raw s
  | .relayRetransmit t dst seq => Sys2Proof.Machine.execRelayRetransmit t dst seq s
  | .heartbeatInstant t => Sys2Proof.Machine.execHeartbeatInstant t s
  | .membersPeriod t => Sys2Proof.Machine.execMembersPeriod t s
  | .slotLossDeadline t slot => Sys2Proof.Machine.execSlotLossDeadline t slot s
  | .beaconSilenceCommit t => Sys2Proof.Machine.execBeaconSilenceCommit t s
  | .selfFence t => Sys2Proof.Machine.execSelfFence t s
  | .standbyTakesBaton t => Sys2Proof.Machine.execStandbyTakesBaton t s
  | .joinWindowEnd t => Sys2Proof.Machine.execJoinWindowEnd t s
  | .coldStartListenEnd t => Sys2Proof.Machine.execColdStartListenEnd t s
  | .plannedHandoffBoundary t heat => Sys2Proof.Machine.execPlannedHandoffBoundary t heat s
  | .hedgeThreshold t req source => Sys2Proof.Machine.execHedgeThreshold t req source s
  | .sourceGiveUp t req source => Sys2Proof.Machine.execSourceGiveUp t req source s
  | .hedgeRecompute t => Sys2Proof.Machine.execHedgeRecompute t s
  | .interruptedHourRoll t => Sys2Proof.Machine.execInterruptedHourRoll t s
  | .commitGroupClose t heat => Sys2Proof.Machine.execCommitGroupClose t heat s
  | .commitGroupPublish t heat => Sys2Proof.Machine.execCommitGroupPublish t heat s
  | .lagholdExpiry t sq => Sys2Proof.Machine.execLagholdExpiry t sq s
  | .contextFree t req => Sys2Proof.Machine.execContextFree t req s
  | .trackerEntryFree t => Sys2Proof.Machine.execTrackerEntryFree t s
  | .walkSlotFree t part => Sys2Proof.Machine.execWalkSlotFree t part s
  | .packWindowClose t grp => Sys2Proof.Machine.execPackWindowClose t grp s
  | .strideGroupReturn t grp ecc => Sys2Proof.Machine.execStrideGroupReturn t grp ecc s
  | .sliceBoundary t => Sys2Proof.Machine.execSliceBoundary t s
  | .sliceGuard t => Sys2Proof.Machine.execSliceGuard t s
  | .scanBatchClose t batch => Sys2Proof.Machine.execScanBatchClose t batch s
  | .sideBatchClose t batch => Sys2Proof.Machine.execSideBatchClose t batch s
  | .missNotice t batch engine tile => Sys2Proof.Machine.execMissNotice t batch engine tile s
  | .strWdog t engine => Sys2Proof.Machine.execStrWdog t engine s
  | .podSlotsFree t part => Sys2Proof.Machine.execPodSlotsFree t part s
  | .listDelivery t list => Sys2Proof.Machine.execListDelivery t list s
  | .passGrant t part => Sys2Proof.Machine.execPassGrant t part s
  | .weightTileArrival t pass layer tile => Sys2Proof.Machine.execWeightTileArrival t pass layer tile s
  | .layerEnd t pass => Sys2Proof.Machine.execLayerEnd t pass s
  | .tileWdog t tile => Sys2Proof.Machine.execTileWdog t tile s
  | .buildWalkStart t heat => Sys2Proof.Machine.execBuildWalkStart t heat s
  | .consolidationPause t => Sys2Proof.Machine.execConsolidationPause t s
  | .stepTimeout t table step => Sys2Proof.Machine.execStepTimeout t table step s
  | .loadWindowEnd t busy => Sys2Proof.Machine.execLoadWindowEnd t busy s
  | .migrationTimeout t mig => Sys2Proof.Machine.execMigrationTimeout t mig s
  | .migrationSwitch t mig => Sys2Proof.Machine.execMigrationSwitch t mig s
  | .leaseExpiry t key => Sys2Proof.Machine.execLeaseExpiry t key s
  | .offerExpiry t key => Sys2Proof.Machine.execOfferExpiry t key s
  | .tierSweep t => Sys2Proof.Machine.execTierSweep t s
  | .pacerRefill t pacer => Sys2Proof.Machine.execPacerRefill t pacer s
  | .gateChange t outlet => Sys2Proof.Machine.execGateChange t outlet s
  | .outletCommit t outlet lane => Sys2Proof.Machine.execOutletCommit t outlet lane s
  | .promotionAge t outlet sub svc => Sys2Proof.Machine.execPromotionAge t outlet sub svc s
  | .modTimeExpiry t ring => Sys2Proof.Machine.execModTimeExpiry t ring s
  | .ringFullTimeout t ring => Sys2Proof.Machine.execRingFullTimeout t ring s
  | .errorReport t e => Sys2Proof.Machine.execErrorReport t e s
  | .graceExpiry t rec => Sys2Proof.Machine.execGraceExpiry t rec s
  | .teardownGraceEnd t bib => Sys2Proof.Machine.execTeardownGraceEnd t bib s
  | .teardownEnd t bib => Sys2Proof.Machine.execTeardownEnd t bib s
  | .teardownStuck t bib => Sys2Proof.Machine.execTeardownStuck t bib s
  | .loaderChecksDone t => Sys2Proof.Machine.execLoaderChecksDone t s
  | .admissionTimeout t => Sys2Proof.Machine.execAdmissionTimeout t s
  | .contractCheckTimeout t => Sys2Proof.Machine.execContractCheckTimeout t s
  | .storeEnd t => Sys2Proof.Machine.execStoreEnd t s
  | .drainEnd t => Sys2Proof.Machine.execDrainEnd t s
  | .applyingEnd t => Sys2Proof.Machine.execApplyingEnd t s
  | .flashReadDone t op res => Sys2Proof.Machine.execFlashReadDone t op res s
  | .flashProgramDone t op ok => Sys2Proof.Machine.execFlashProgramDone t op ok s
  | .flashEraseDone t op ok => Sys2Proof.Machine.execFlashEraseDone t op ok s
  | .foldStart t => Sys2Proof.Machine.execFoldStart t s
  | .reclaimStart t target => Sys2Proof.Machine.execReclaimStart t target s
  | .journalWriteback t => Sys2Proof.Machine.execJournalWriteback t s
  | .dirtyWriteback t tile => Sys2Proof.Machine.execDirtyWriteback t tile s
  | .patrolRead t target found => Sys2Proof.Machine.execPatrolRead t target found s
  | .nvBarEntry t main => Sys2Proof.Machine.execNvBarEntry t main s
  | .nvBarExit t main => Sys2Proof.Machine.execNvBarExit t main s
  | .flushEntry t cause main => Sys2Proof.Machine.execFlushEntry t cause main s
  | .holdFloorReached t hold => Sys2Proof.Machine.execHoldFloorReached t hold s
  | .flushEnd t => Sys2Proof.Machine.execFlushEnd t s
  | .resumeReset t main => Sys2Proof.Machine.execResumeReset t main s
  | .pwrOkFall t => Sys2Proof.Machine.execPwrOkFall t s
  | .pwrOkRise t => Sys2Proof.Machine.execPwrOkRise t s
  | .resetPin t => Sys2Proof.Machine.execResetPin t s
  | .resetRelease t straps => Sys2Proof.Machine.execResetRelease t straps s
  | .controlWdog t => Sys2Proof.Machine.execControlWdog t s
  | .clockLoss t clk => Sys2Proof.Machine.execClockLoss t clk s
  | .timeClockReturn t => Sys2Proof.Machine.execTimeClockReturn t s
  | .thermalTrip t => Sys2Proof.Machine.execThermalTrip t s
  | .sledDiscoveryEnd t sled info => Sys2Proof.Machine.execSledDiscoveryEnd t sled info s
  | .bootStepOverrun t => Sys2Proof.Machine.execBootStepOverrun t s
  | .attnButtonPress t slot => Sys2Proof.Machine.execAttnButtonPress t slot s
  | .attnLongPress t slot => Sys2Proof.Machine.execAttnLongPress t slot s
  | .sledInsertion t slot => Sys2Proof.Machine.execSledInsertion t slot s
  | .sledRemoval t slot => Sys2Proof.Machine.execSledRemoval t slot s
  | .abortWindowEnd t slot => Sys2Proof.Machine.execAbortWindowEnd t slot s
  | .sledPowerOffDone t slot => Sys2Proof.Machine.execSledPowerOffDone t slot s
  | .mctpSetEndpointId t eid => Sys2Proof.Machine.execMctpSetEndpointId t eid s
  | .mctpGetEndpointId t => Sys2Proof.Machine.execMctpGetEndpointId t s
  | .mctpGetVersionSupport t => Sys2Proof.Machine.execMctpGetVersionSupport t s
  | .mctpGetMessageType t => Sys2Proof.Machine.execMctpGetMessageType t s
  | .mctpGetVdmSupport t => Sys2Proof.Machine.execMctpGetVdmSupport t s
  | .getStatus t => Sys2Proof.Machine.execGetStatus t s
  | .getPower t sample => Sys2Proof.Machine.execGetPower t sample s
  | .readLog t log sled off => Sys2Proof.Machine.execReadLog t log sled off s
  | .nodeReset t b0 b1 => Sys2Proof.Machine.execNodeReset t b0 b1 s
  | .setIdentify t value => Sys2Proof.Machine.execSetIdentify t value s
  | .jtagBypass t => Sys2Proof.Machine.execJtagBypass t s
  | .jtagIdcode t => Sys2Proof.Machine.execJtagIdcode t s
  | .jtagSamplePreload t => Sys2Proof.Machine.execJtagSamplePreload t s
  | .jtagExtest t => Sys2Proof.Machine.execJtagExtest t s
  | .jtagClamp t => Sys2Proof.Machine.execJtagClamp t s
  | .jtagHighz t => Sys2Proof.Machine.execJtagHighz t s
  | .tapReset t => Sys2Proof.Machine.execTapReset t s
  | .perstDeassert t port aptEn => Sys2Proof.Machine.execPerstDeassert t port aptEn s
  | .ethLinkChange t port up lock => Sys2Proof.Machine.execEthLinkChange t port up lock s
  | .roceAckTimeout t bib => Sys2Proof.Machine.execRoceAckTimeout t bib s
  | .roceInvalidRequest t bib kind => Sys2Proof.Machine.execRoceInvalidRequest t bib kind s
  | .cnpReceived t port => Sys2Proof.Machine.execCnpReceived t port s
  | .pcieConfigRequest t port cfg => Sys2Proof.Machine.execPcieConfigRequest t port cfg s
  | .msixUnmask t port fn vec => Sys2Proof.Machine.execMsixUnmask t port fn vec s
  | .ptpSendInterval t => Sys2Proof.Machine.execPtpSendInterval t s
  | .notifyHoldoffEnd t => Sys2Proof.Machine.execNotifyHoldoffEnd t s
  | .flashTempSample t sled celsius => Sys2Proof.Machine.execFlashTempSample t sled celsius s
  | .holdFloorRecovered t hold => Sys2Proof.Machine.execHoldFloorRecovered t hold s
  | .strideBatchReturn t batch engine unit ecc => Sys2Proof.Machine.execStrideBatchReturn t batch engine unit ecc s
  | .contractCheckDone t => Sys2Proof.Machine.execContractCheckDone t s
  | .progCheckTimeout t req => Sys2Proof.Machine.execProgCheckTimeout t req s
  | .quoteSigned t => Sys2Proof.Machine.execQuoteSigned t s
  | .fuseWriteDone t => Sys2Proof.Machine.execFuseWriteDone t s
  | .recoveryWriteDone t ok => Sys2Proof.Machine.execRecoveryWriteDone t ok s

end Sys2Proof.Machine
end

