-- ==== Sys2Proof/Machine/Pins.lean ====
section
/-!
DEFINITION. The lands that the node drives as levels (R511, R518, R519, R561, Table 23.6). In OFF and RESET no land is driven
by a unit, and in HALT only ERR_N and THERMTRIP_N are.
-/
namespace Sys2Proof.Machine

/-- Table 23.6: the lands of the panel follow their registers, except in OFF, RESET and HALT. -/
def Dev.drives (d : Dev) : Bool := 2 ≤ d.power && d.power != 6

/-- SLED_PWR_EN of a slot. -/
def Dev.sledPwrEn (d : Dev) (n : Nat) : Bool := d.drives && d.rg .PANEL_SLED_PWREN 0 n = 1

/-- ATTN_LED and PWR_LED of a slot (R519). -/
def Dev.attnPin (d : Dev) (n : Nat) : Bool := d.drives && d.attnLed n
def Dev.pwrPin (d : Dev) (n : Nat) : Bool := d.drives && d.pwrLed n

/-- ID_LED (R518). -/
def Dev.idPin (d : Dev) : Bool := d.drives && d.rg .PANEL_CFG_ID = 1

/-- ERR_N is held low (R511); it is released in OFF and RESET. -/
def Dev.errPin (d : Dev) : Bool := 2 ≤ d.power && d.errN

/-- THERMTRIP_N is held low during a trip only (R566). -/
def Dev.thermPin (d : Dev) : Bool := d.thermTrip

end Sys2Proof.Machine
end

