-- ==== Sys2Proof/Safety.lean ====
section
/-!
DEFINITION. What counts as a safe run: every step of it answers a next state.
-/
namespace Sys2Proof.Machine

/-- Nothing but admission goes on of itself in the node: boot has ended, no search, list or pass is under way, no unit is
fenced, no sled is being removed, and no empty copy of a heat waits for its first commit boundary. -/
structure Dev.Settled (d : Dev) : Prop where
  booted : d.power ≠ 2
  noSearches : d.ix.srch = []
  noQueries : d.ix.sqs = []
  noLists : d.ix.lists = []
  noPasses : d.inf.passes = []
  noRuns : d.inf.queue = []
  noJobs : d.inf.jobs = []
  noFence : d.fenced = []
  noRemoval : ∀ n < 4, d.seqOf n = 0 ∨ 4 < d.seqOf n
  noEmpty : ∀ i h, d.heat i = some h → h.started = true ∨ h.empty = false
  noPoolOps : d.pl.ops = []
  noPoolJobs : d.pl.jobs = []

/-- Nothing goes on of itself in the node: there is no request either. A command then has its own effect and sets
nothing else going. -/
structure Dev.Quiet (d : Dev) : Prop extends Dev.Settled d where
  noReqs : d.reqs = []

/-- `n` steps from a state all answer a next state. -/
def safeRun : Nat → State → Prop
  | 0, _ => True
  | n + 1, s => ∃ t, step s = .next t ∧ safeRun n t

end Sys2Proof.Machine
end

