-- ==== Sys2Proof/WellFormed.lean ====
section
/-!
DEFINITION. Which commands can occur: operands within the ranges of the interface. A port is 0 (A) or 1 (B), an
Ethernet port 0 or 1; a descriptor or a record written through a window is 64 bytes (R137).
-/
namespace Sys2Proof

/-- A source of 64-byte writes that exists (R72, R119, R136). -/
def Src.ok : Src → Bool
  | .pf0 p => p < 2
  | .vf p v w => p < 2 && 1 ≤ v && v ≤ 512 && w < 8
  | .fab b w => b < 1024 && w < 8
  | .fabOld b w => b < 1024 && w < 8

/-- A descriptor that a window can take (R137). -/
def descOk (src : Src) (d : Bytes) : Bool := src.ok && d.length == 64

/-- A Relay header whose fields fit Table 19.3. -/
def RHdr.ok (h : RHdr) : Bool :=
  h.src < 256 && h.dst < 256 && h.restart < 2 ^ 32 && h.baton < 2 ^ 32 && h.seq < 2 ^ 32 && h.ack < 2 ^ 32

/-- R529, Table 23.5: a sense conversion, in 0.1% of nominal, is at most 150%. -/
def senseTop : Nat := 1500

/-- A lost reference names its port, a PLL of a stack or of a base die its stack. -/
def ClkLoss.ok : ClkLoss → Bool
  | .pcieRef p => p < 2
  | .stk n => n < 8
  | .stride n => n < 8
  | _ => true

/-- Operands within the ranges of the interface. -/
def Instr.wellFormed (i : Instr) : Bool :=
  match i with
  | .search _ src x => descOk src x
  | .searchCode _ src x => descOk src x
  | .insert _ src x => descOk src x
  | .delete _ src x => descOk src x
  | .cancel _ src x => descOk src x
  | .progLoad _ src x => descOk src x
  | .progFree _ src x => descOk src x
  | .run _ src x => descOk src x
  | .runCancel _ src x => descOk src x
  | .lookup _ src x => descOk src x
  | .update _ src x => descOk src x
  | .rowSet _ src x => descOk src x
  | .stepEnd _ src x => descOk src x
  | .segRead _ src x => descOk src x
  | .segStat _ src x => descOk src x
  | .segCreate _ src x => descOk src x
  | .segWrite _ src x => descOk src x
  | .segFlush _ src x => descOk src x
  | .segPublish _ src x => descOk src x
  | .segRenew _ src x => descOk src x
  | .segHandoff _ src x => descOk src x
  | .segDrop _ src x => descOk src x
  | .alloc _ src x => descOk src x
  | .free _ src x => descOk src x
  | .tileWrite _ src x => descOk src x
  | .tileRead _ src x => descOk src x
  | .setHint _ src x => descOk src x
  | .prefetch _ src x => descOk src x
  | .discard _ src x => descOk src x
  | .scrub _ src x => descOk src x
  | .loadImage _ src x => descOk src x
  | .contractSet _ src x => descOk src x
  | .bibEnable _ src x => descOk src x
  | .bibDisable _ src x => descOk src x
  | .bibReset _ src x => descOk src x
  | .bibBind _ src x => descOk src x
  | .ringSet _ src x => descOk src x
  | .faultAck _ src x => descOk src x
  | .quote _ src x => descOk src x
  | .keyAdmin _ src x => descOk src x
  | .logRead _ src x => descOk src x
  | .nop _ src x => descOk src x
  | .meetStat _ src x => descOk src x
  | .heatRole _ src x => descOk src x
  | .meetRestart _ src x => descOk src x
  | .batonMove _ src x => descOk src x
  | .unknownOpcode _ src x => descOk src x
  | .ringRelease _ src x => descOk src x
  | .strayWindowWrite _ p v => p < 2 && 1 ≤ v && v ≤ 512
  | .tlpDropped _ src _ _ => src.ok
  | .bar0StrayAccess _ p _ n _ => p < 2 && n > 0
  | .rcRegisterRead _ p _ _ a _ => p < 2 && a.size > 0
  | .registerWrite _ p _ _ a _ => p < 2 && a.size > 0
  | .refPendClear .. => true
  | .errclassWrite .. => true
  | .softReset _ p _ => p < 2
  | .adminRingConfig _ p _ => p < 2
  | .apertureSlotSet _ n _ _ => n < 64
  | .apertureRead _ p _ n => p < 2 && n > 0
  | .apertureWrite _ p _ n => p < 2 && n > 0
  | .panelRemove .. => true
  | .panelCancel .. => true
  | .identifyWrite .. => true
  | .recoveryLoad _ p _ => p < 2
  | .vfFlr _ p v => p < 2 && 1 ≤ v && v ≤ 512
  | .pf0Flr _ p => p < 2
  | .portBindingLoss _ p _ => p < 2
  | .perstAssert _ p => p < 2
  | .linkDegraded _ p n _ => p < 2 && n ≤ 16
  | .dmaReadDone .. => true
  | .roceSubmission _ b _ _ => b < 1024
  | .roceKeyRecord _ b x => b < 1024 && x.length == 64
  | .roceCeReceived _ b => b < 1024
  | .roceRetryExhausted _ b => b < 1024
  | .pauseReceived _ p => p < 2
  | .neighborFrame _ p _ => p < 2
  | .ptpMessage _ p _ _ => p < 2
  | .ptpSyncTimeout .. => true
  | .holdoverLimit .. => true
  | .heartbeat _ h _ => h.ok
  | .beacon _ h _ => h.ok
  | .members _ h _ => h.ok
  | .roles _ h _ => h.ok
  | .lost _ h _ => h.ok
  | .takeover _ h _ => h.ok
  | .baton _ h _ => h.ok
  | .restart _ h _ => h.ok
  | .join _ h _ => h.ok
  | .refill _ h _ => h.ok
  | .relayAck _ h => h.ok
  | .shardQuery _ h _ => h.ok
  | .partialList _ h _ => h.ok
  | .shardFail _ h _ => h.ok
  | .shardCancel _ h _ => h.ok
  | .updateFrame _ h _ => h.ok
  | .outcome _ h _ => h.ok
  | .group _ h _ => h.ok
  | .groupAck _ h _ => h.ok
  | .commit _ h _ => h.ok
  | .embedFrame _ h _ => h.ok
  | .poolFrame _ h _ => h.ok
  | .relayBadFrame .. => true
  | .relayRetransmit _ m _ => m < 256
  | .heartbeatInstant .. => true
  | .membersPeriod .. => true
  | .slotLossDeadline _ n => n < 256
  | .beaconSilenceCommit .. => true
  | .selfFence .. => true
  | .standbyTakesBaton .. => true
  | .joinWindowEnd .. => true
  | .coldStartListenEnd .. => true
  | .plannedHandoffBoundary _ n => n < 1024
  | .hedgeThreshold .. => true
  | .sourceGiveUp .. => true
  | .hedgeRecompute .. => true
  | .interruptedHourRoll .. => true
  | .commitGroupClose _ n => n < 1024
  | .commitGroupPublish _ n => n < 1024
  | .lagholdExpiry .. => true
  | .contextFree .. => true
  | .trackerEntryFree .. => true
  | .walkSlotFree _ n => n < 64
  | .packWindowClose .. => true
  | .strideGroupReturn .. => true
  | .sliceBoundary .. => true
  | .sliceGuard .. => true
  | .scanBatchClose .. => true
  | .sideBatchClose .. => true
  | .missNotice _ _ e _ => e < 128
  | .strWdog _ e => e < 128
  | .podSlotsFree _ n => n < 64
  | .listDelivery .. => true
  | .passGrant _ n => n < 64
  | .weightTileArrival .. => true
  | .layerEnd .. => true
  | .tileWdog _ n => n < 96
  | .buildWalkStart _ n => n < 1024
  | .consolidationPause .. => true
  | .stepTimeout .. => true
  | .loadWindowEnd _ n => n ≤ 1000000
  | .migrationTimeout .. => true
  | .migrationSwitch .. => true
  | .leaseExpiry .. => true
  | .offerExpiry .. => true
  | .tierSweep .. => true
  | .pacerRefill .. => true
  | .gateChange _ o => o < 4
  | .outletCommit _ o l => o < 4 && l < 2
  | .promotionAge _ o b w => o < 4 && b ≤ 1024 && w < 8
  | .modTimeExpiry .. => true
  | .ringFullTimeout .. => true
  | .errorReport .. => true
  | .graceExpiry _ r => r ≤ 10239
  | .teardownGraceEnd _ b => b < 1024
  | .teardownEnd _ b => b < 1024
  | .teardownStuck _ b => b < 1024
  | .loaderChecksDone .. => true
  | .admissionTimeout .. => true
  | .contractCheckTimeout .. => true
  | .storeEnd .. => true
  | .drainEnd .. => true
  | .applyingEnd .. => true
  | .flashReadDone .. => true
  | .flashProgramDone .. => true
  | .flashEraseDone .. => true
  | .foldStart .. => true
  | .reclaimStart _ n => n < 512
  | .journalWriteback .. => true
  | .dirtyWriteback .. => true
  | .patrolRead _ n _ => n < 512
  | .nvBarEntry _ m => m ≤ senseTop
  | .nvBarExit _ m => m ≤ senseTop
  | .flushEntry _ c m => c < 2 && m ≤ senseTop
  | .holdFloorReached _ m => m ≤ senseTop
  | .flushEnd .. => true
  | .resumeReset _ m => m ≤ senseTop
  | .pwrOkFall .. => true
  | .pwrOkRise .. => true
  | .resetPin .. => true
  | .resetRelease _ x => x.bootMode < 4
  | .controlWdog .. => true
  | .clockLoss _ c => c.ok
  | .timeClockReturn .. => true
  | .thermalTrip .. => true
  | .sledDiscoveryEnd _ n _ => n < 4
  | .bootStepOverrun .. => true
  | .attnButtonPress _ n => n < 4
  | .attnLongPress _ n => n < 4
  | .sledInsertion _ n => n < 4
  | .sledRemoval _ n => n < 4
  | .abortWindowEnd _ n => n < 4
  | .sledPowerOffDone _ n => n < 4
  | .mctpSetEndpointId _ n => n < 256
  | .mctpGetEndpointId .. => true
  | .mctpGetVersionSupport .. => true
  | .mctpGetMessageType .. => true
  | .mctpGetVdmSupport .. => true
  | .getStatus .. => true
  | .getPower _ x => x.main ≤ senseTop && x.hold ≤ senseTop
  | .readLog _ _ n _ => n < 4 || n = 255
  | .nodeReset _ b0 b1 => b0 < 256 && b1 < 256
  | .setIdentify .. => true
  | .jtagBypass .. => true
  | .jtagIdcode .. => true
  | .jtagSamplePreload .. => true
  | .jtagExtest .. => true
  | .jtagClamp .. => true
  | .jtagHighz .. => true
  | .tapReset .. => true
  | .perstDeassert _ p _ => p < 2
  | .ethLinkChange _ p up lock => p < 2 && up < 4 && lock < 256
  | .roceAckTimeout _ b => b < 1024
  | .roceInvalidRequest _ b _ => b < 1024
  | .cnpReceived _ p => p < 2
  | .pcieConfigRequest _ p _ => p < 2
  | .msixUnmask _ p _ _ => p < 2
  | .ptpSendInterval .. => true
  | .notifyHoldoffEnd .. => true
  | .flashTempSample _ n _ => n < 4
  | .holdFloorRecovered _ m => m ≤ senseTop
  | .strideBatchReturn _ _ e _ _ => e < 128
  | .contractCheckDone .. => true
  | .progCheckTimeout .. => true
  | .quoteSigned .. => true
  | .fuseWriteDone .. => true
  | .recoveryWriteDone .. => true

end Sys2Proof
end

