-- ==== Sys2Proof/Certificates/Slice0/Obligations.lean ====
section
/-!
DEFINITION. The statements for the provers.
-/
namespace Sys2Proof.Spec
open Sys2Proof.Machine

/-- The node at the split time of a command. -/
abbrev node (s : State) (t : Nat) : Dev := s.dev.advance t

/-- The node at the split time of a command, its passes that must stop stopped (R306, R308), the runs that have ended out of the
queues. -/
abbrev settled (s : State) (t : Nat) : Dev := (node s t).reapPasses

/-- A command answers a next state whose node is `e`: the queue is left as it was, and so are the fuses, the boot ROM
and the TAP's instruction. -/
def Goes (c : Instr) (s : State) (e : Dev) : Prop := exec c s = .next { s with dev := s.dev.sealed e }

/-- The descriptor that a command writes to a window: its split time, its opcode (Table 00.6), where it is written, its
64 bytes. CANCEL, RUN_CANCEL and an undefined opcode have statements of their own. -/
def descriptor : Instr → Option (Nat × Nat × Src × Bytes)
  | .search t src x => some (t, 0x10, src, x)
  | .searchCode t src x => some (t, 0x11, src, x)
  | .insert t src x => some (t, 0x18, src, x)
  | .delete t src x => some (t, 0x19, src, x)
  | .progLoad t src x => some (t, 0x20, src, x)
  | .progFree t src x => some (t, 0x21, src, x)
  | .run t src x => some (t, 0x22, src, x)
  | .lookup t src x => some (t, 0x30, src, x)
  | .update t src x => some (t, 0x31, src, x)
  | .rowSet t src x => some (t, 0x32, src, x)
  | .stepEnd t src x => some (t, 0x33, src, x)
  | .segRead t src x => some (t, 0x40, src, x)
  | .segStat t src x => some (t, 0x41, src, x)
  | .segCreate t src x => some (t, 0x48, src, x)
  | .segWrite t src x => some (t, 0x49, src, x)
  | .segFlush t src x => some (t, 0x4A, src, x)
  | .segPublish t src x => some (t, 0x4B, src, x)
  | .segRenew t src x => some (t, 0x4C, src, x)
  | .segHandoff t src x => some (t, 0x4D, src, x)
  | .segDrop t src x => some (t, 0x4E, src, x)
  | .alloc t src x => some (t, 0x50, src, x)
  | .free t src x => some (t, 0x51, src, x)
  | .tileWrite t src x => some (t, 0x52, src, x)
  | .tileRead t src x => some (t, 0x53, src, x)
  | .setHint t src x => some (t, 0x54, src, x)
  | .prefetch t src x => some (t, 0x55, src, x)
  | .discard t src x => some (t, 0x58, src, x)
  | .scrub t src x => some (t, 0x59, src, x)
  | .loadImage t src x => some (t, 0x60, src, x)
  | .contractSet t src x => some (t, 0x61, src, x)
  | .bibEnable t src x => some (t, 0x62, src, x)
  | .bibDisable t src x => some (t, 0x63, src, x)
  | .bibReset t src x => some (t, 0x64, src, x)
  | .bibBind t src x => some (t, 0x65, src, x)
  | .ringSet t src x => some (t, 0x66, src, x)
  | .faultAck t src x => some (t, 0x67, src, x)
  | .quote t src x => some (t, 0x68, src, x)
  | .keyAdmin t src x => some (t, 0x69, src, x)
  | .logRead t src x => some (t, 0x6A, src, x)
  | .nop t src x => some (t, 0x6B, src, x)
  | .meetStat t src x => some (t, 0x6C, src, x)
  | .heatRole t src x => some (t, 0x6D, src, x)
  | .meetRestart t src x => some (t, 0x6E, src, x)
  | .batonMove t src x => some (t, 0x6F, src, x)
  | _ => none

/-- A window takes a descriptor in a quiet node: its ring is enabled, no check at landing fails, nothing waits in any
FIFO, and a context is free where the opcode needs one. -/
structure Takes (d : Dev) (k : Nat) (x : Bytes) : Prop where
  quiet : d.Quiet
  on : d.coreOn = true
  empty : ∀ w ∈ d.wins, w.2.fifo = []
  ready : winIsPf0 k = true → 3 ≤ d.power
  ring : (d.ring (ringKey k (u8 x 1 % 8))).en = true
  lands : d.landFails k x = []
  context : needsCtx (u8 x 0) = true → d.ctxFor (d.bib (winBib k)).part = 1 ∨ d.ctxFor (d.bib (winBib k)).part = 2

/-- The context that a descriptor takes: none, 1 of its partition's reserve, 2 of the shared remainder. -/
def contextOf (d : Dev) (k : Nat) (x : Bytes) : Nat := if needsCtx (u8 x 0) then d.ctxFor (d.bib (winBib k)).part else 0

/-- The Relay frames but RELAY_BAD_FRAME, with their kind of Table 19.3, header and payload. -/
def relayFrame : Instr → Option (Nat × Nat × RHdr × Bytes)
  | .heartbeat t h b => some (t, K_HEARTBEAT, h, b)
  | .beacon t h b => some (t, K_BEACON, h, b)
  | .members t h b => some (t, K_MEMBERS, h, b)
  | .roles t h b => some (t, K_ROLES, h, b)
  | .lost t h b => some (t, K_LOST, h, b)
  | .takeover t h b => some (t, K_TAKEOVER, h, b)
  | .baton t h b => some (t, K_BATON, h, b)
  | .restart t h b => some (t, K_RESTART, h, b)
  | .join t h b => some (t, K_JOIN, h, b)
  | .refill t h b => some (t, K_REFILL, h, b)
  | .relayAck t h => some (t, K_ACK, h, [])
  | .shardQuery t h b => some (t, K_SHARD_QUERY, h, b)
  | .partialList t h b => some (t, K_PARTIAL_LIST, h, b)
  | .shardFail t h b => some (t, K_SHARD_FAIL, h, b)
  | .shardCancel t h b => some (t, K_SHARD_CANCEL, h, b)
  | .updateFrame t h b => some (t, K_UPDATE, h, b)
  | .outcome t h b => some (t, K_OUTCOME, h, b)
  | .group t h b => some (t, K_GROUP, h, b)
  | .groupAck t h b => some (t, K_GROUP_ACK, h, b)
  | .commit t h b => some (t, K_COMMIT, h, b)
  | .embedFrame t h b => some (t, K_EMBED, h, b)
  | .poolFrame t h b => some (t, K_POOL, h, b)
  | _ => none

/-- R467: a frame of a live member at the restart epoch of the receiver. -/
structure FrameOk (d : Dev) (h : RHdr) : Prop where
  on : d.coreOn = true
  meet : d.mt.on = true
  member : Tab.has d.mt.members h.src = true
  other : h.src ≠ d.mt.slot
  epoch : h.restart = d.mt.restart
  state : (d.member h.src).state ≠ 1 ∧ (d.member h.src).state ≠ 2

/-- A Podium list in form: at most k entries, each before the next (R259), no index twice. -/
def ListOk (l : PList) : Prop :=
  l.ents.length ≤ l.k ∧ l.ents.Pairwise (fun a b => a.before l.mode b = true) ∧ (l.ents.map (·.idx)).Nodup

/-- R507: record `n` after an escalation that leaves it as `x`: one more step, a new grace window, one more escalation
counted. -/
def escalated (d : Dev) (n : Nat) (x : RefRec) : Dev :=
  { d.bump .REF_ESCAL_COUNT with recs := Tab.ins d.recs n { x with steps := min 15 (x.steps + 1), since := d.now } }

/-- What stays from one set of fuses to a later one (R549: every action is one-way): floors never fall, the raises left
never grow, a revoked ROM key stays revoked, a programmed slot keeps its key and is at most revoked, a revoked slot stays
revoked, and what the factory wrote stays. -/
structure Later (a b : Fuses) : Prop where
  ciFloor : a.ciFloor ≤ b.ciFloor
  fwFloor : a.fwFloor ≤ b.fwFloor
  ciRaises : b.ciRaises ≤ a.ciRaises
  fwRaises : b.fwRaises ≤ a.fwRaises
  romKeys : ∀ i, bit a.romRevoked i = true → bit b.romRevoked i = true
  slots : b.slots.length = a.slots.length
  programmed : ∀ (i : Nat) (x y : OwnerSlot), a.slots[i]? = some x → b.slots[i]? = some y → x.state = 1 →
    y.key = x.key ∧ (y.state = 1 ∨ y.state = 2)
  revoked : ∀ (i : Nat) (x y : OwnerSlot), a.slots[i]? = some x → b.slots[i]? = some y → x.state = 2 →
    y.key = x.key ∧ y.state = 2
  factory : b.secret = a.secret ∧ b.fingerprint = a.fingerprint ∧ b.serial = a.serial ∧ b.step = a.step ∧ b.mac0 = a.mac0
    ∧ b.mac1 = a.mac1

end Sys2Proof.Spec

open Sys2Proof Sys2Proof.Machine Sys2Proof.Spec

/-! ## The block as a whole -/

/-- In place of 'a step runs the decoded instruction': a step takes the command at the front of the queue and runs
it with the rest of the queue. -/
def Obligations.StepRunsTheFrontCommand : Prop :=
  ∀ (d : Dev) (c : Instr) (r : List Instr), step { dev := d, pending := c :: r } = exec c { dev := d, pending := r }

/-- Commands are served first in, first out: as many steps as there are commands before `r` in the queue leave `r` alone
and do to the node what they do where `r` does not wait. -/
def Obligations.QueueIsServedInOrder : Prop :=
  ∀ (l r : List Instr) (d : Dev), ∃ e : Dev,
    core.run l.length ({ dev := d, pending := l ++ r } : State) = .next ({ dev := e, pending := r } : State)
    ∧ core.run l.length ({ dev := d, pending := l } : State) = .next ({ dev := e, pending := [] } : State)

/-- Every command answers a next state, and leaves the queue and the boot ROM alone; the fuses, unless it is the end of a
fuse write (R549); the TAP's instruction, unless it is a command of the TAP (R550). -/
def Obligations.EveryCommandAnswersANextState : Prop :=
  ∀ (c : Instr) (s : State), ∃ e : Dev, exec c s = .next { s with dev := e } ∧ e.rom = s.dev.rom
    ∧ ((∀ t, c ≠ .fuseWriteDone t) → e.fuses = s.dev.fuses)
    ∧ ((∀ t, c ≠ .jtagBypass t ∧ c ≠ .jtagIdcode t ∧ c ≠ .jtagSamplePreload t ∧ c ≠ .jtagExtest t ∧ c ≠ .jtagClamp t
        ∧ c ≠ .jtagHighz t ∧ c ≠ .tapReset t) → e.jtagInstr = s.dev.jtagInstr)

/-- No run of any length ends in a fault or a refusal. -/
def Obligations.EveryRunIsSafe : Prop := ∀ (n : Nat) (s : State), safeRun n s

/-- R549: whatever stood in the fuses before a step still stands after it. -/
def Obligations.FusesAreOneWay : Prop :=
  ∀ (f : Fuses) (s s' : State), Later f s.dev.fuses → step s = .next s' → Later f s'.dev.fuses

/-- The fuses of State.reset are the part's own (log 6), so that every later state's fuses are later than those. -/
def Obligations.FusesAtReset : Prop := Later Fuses.initial State.reset.dev.fuses ∧ State.reset.pending = []

/-- After reset (R15, R538): every register field reads its reset value, no window or ring is in use, no request, read,
Referee record or fence is there, every bib is ABSENT, and memories have nothing listed. -/
def Obligations.ResetLeavesResetValues : Prop :=
  (∀ (f : Fld) (i r : Nat), State.reset.dev.rg f i r = f.info.rst) ∧ State.reset.dev.reqs = [] ∧ State.reset.dev.dmas = []
    ∧ State.reset.dev.recs = [] ∧ State.reset.dev.fenced = [] ∧ State.reset.dev.queues = []
    ∧ (∀ b, (State.reset.dev.bib b).state = 0) ∧ (∀ k, (State.reset.dev.win k).fifo = [])
    ∧ (∀ k, (State.reset.dev.ring k).en = false) ∧ State.reset.dev.nor = [] ∧ State.reset.dev.out = []
    ∧ State.reset.pending = []

/-! ## Registers -/

/-- A register field, written by the node, reads what was written, cut to its width; every other field, of this register
or another, of this instance and record or another, reads as before, and nothing else changes. A counter rises by what is
counted and stops at its maximum (R17, first sentence), and nothing else changes. -/
def Obligations.FieldReadAfterWrite : Prop :=
  (∀ (d : Dev) (f : Fld) (v i r : Nat), (d.setRg f v i r).rg f i r = v % f.top
    ∧ (∀ (g : Fld) (j q : Nat), g.key j q ≠ f.key i r → (d.setRg f v i r).rg g j q = d.rg g j q)
    ∧ d.setRg f v i r = { d with regs := (d.setRg f v i r).regs })
  ∧ (∀ (d : Dev) (f : Fld) (n i r : Nat), (d.bump f n i r).rg f i r = min (f.top - 1) (d.rg f i r + n)
    ∧ (∀ (g : Fld) (j q : Nat), g.key j q ≠ f.key i r → (d.bump f n i r).rg g j q = d.rg g j q)
    ∧ d.bump f n i r = { d with regs := (d.bump f n i r).regs })

/-- R15, Table 00.3: what a write of a register does to one field of it, by the field's access type: RW takes its bits of
the value written; RWL takes them while no image is loaded, and is else left; W1C is cleared where a 1 is written; RO, RC
and WO fields keep what they hold. -/
def Obligations.FieldWriteFollowsAccessType : Prop :=
  ∀ (d : Dev) (f : Fld) (i r v : Nat),
    (f.info.acc = .rw → d.writeField f i r v = d.setRg f (bits v f.info.hi f.info.lo) i r)
    ∧ (f.info.acc = .rwl → d.imageLoaded = false → d.writeField f i r v = d.setRg f (bits v f.info.hi f.info.lo) i r)
    ∧ (f.info.acc = .rwl → d.imageLoaded = true → d.writeField f i r v = d)
    ∧ (f.info.acc = .w1c → ∀ n, bit ((d.writeField f i r v).rg f i r) n = (bit (d.rg f i r) n && !bit (bits v f.info.hi f.info.lo) n && decide (2 ^ n < f.top)))
    ∧ (f.info.acc = .ro ∨ f.info.acc = .rc ∨ f.info.acc = .wo → d.writeField f i r v = d)

/-- REGISTER_WRITE and RC_REGISTER_READ of an open block (R15, R72, R91): a register without a behaviour of its own takes a
write field by field, by access type (Table 00.3), 4 bytes or, where it is a 64-bit register, 8; a read answers the register
as it stood, in the port's CONTROL queue, and leaves in an RC field what the hardware counts in the same cycle. Where the
block does not answer (R84, R91), or the access is not aligned (R76), it is counted in ID_STRAY, a read answers 0, a write
does nothing. ERRCLASS_WRITE stores the RW fields of REF_CFG, and GRACE_US while no image is loaded. -/
def Obligations.RegisterAccessesComplete : Prop :=
  (∀ (s : State) (t port blk inst off v size : Nat), (node s t).portsOn = true → outsideBlocks blk = false →
      (node s t).blockOpen blk inst = true → (blk = 7 → 0x2010 ≤ off) → ¬(blk = 5 ∧ off = 0xC) → ¬(blk = 0x65 ∧ off = 4) →
      fieldsAt blk off ≠ [] → size = (if reg64 (fieldsAt blk off) then 8 else 4) → off % size = 0 →
      Goes (.registerWrite t port blk inst ⟨off, size⟩ v) s
        (((fieldsAt blk off).foldl (fun d p => d.writeField p.1 inst p.2 (v % 2 ^ (8 * size))) (node s t)).pump))
  ∧ (∀ (s : State) (t port blk inst off size hw : Nat), (node s t).portsOn = true → outsideBlocks blk = false →
      (node s t).blockOpen blk inst = true → (blk = 7 → 0x2000 ≤ off) → (blk = 0x31 → off < 0x40 ∨ 0x80 ≤ off) →
      fieldsAt blk off ≠ [] → size = (if reg64 (fieldsAt blk off) then 8 else 4) → off % size = 0 →
      (size = 8 → fieldsAt blk (off + 4) = []) →
      Goes (.rcRegisterRead t port blk inst ⟨off, size⟩ hw) s
        (((node s t).clearRc (fieldsAt blk off) inst hw).answerRead port
          (le size ((node s t).regValue port (fieldsAt blk off) inst))))
  ∧ (∀ (s : State) (t port blk inst off size v : Nat), (node s t).portsOn = true → outsideBlocks blk = false →
      (blk = 7 → 0x2000 ≤ off) → (node s t).blockOpen blk inst = false ∨ ¬(size = 4 ∨ size = 8) ∨ off % size ≠ 0 →
      Goes (.registerWrite t port blk inst ⟨off, size⟩ v) s ((node s t).bump .ID_STRAY_COUNT).pump
      ∧ ∀ hw, Goes (.rcRegisterRead t port blk inst ⟨off, size⟩ hw) s
        (((node s t).bump .ID_STRAY_COUNT).answerRead port (fill size 0)))
  ∧ (∀ (s : State) (t v : Nat), (node s t).portsOn = true → (node s t).blockOpen 3 0 = true →
      ((node s t).imageLoaded = true → Goes (.errclassWrite t v) s ((((node s t).setRg .REF_CFG_ERRCLASS (bits v 29 27)).setRg
        .REF_CFG_NOTIFY (bits v 26 24)).setRg .REF_CFG_VEC (bits v 23 22)))
      ∧ ((node s t).imageLoaded = false → Goes (.errclassWrite t v) s (((((node s t).setRg .REF_CFG_ERRCLASS (bits v 29 27)).setRg
        .REF_CFG_NOTIFY (bits v 26 24)).setRg .REF_CFG_VEC (bits v 23 22)).setRg .REF_CFG_GRACE_US (bits v 16 0))))

/-- Registers with a behaviour of their own, in open blocks: the base of an admin ring (R158), PANEL_CMD (R520), PWR_RST
(R537), a register of the boot block through port 0 (R544), PANEL_CFG (R518), REF_PEND (R512): hardware setting the bit wins
over a clear of the same cycle. Where the block does not answer (R91), the write is counted in ID_STRAY and does no more. -/
def Obligations.SpecialRegistersComplete : Prop :=
  (∀ (s : State) (t port i v : Nat), (node s t).portsOn = true → (node s t).blockOpen 7 i = true →
      Goes (.registerWrite t port 7 i ⟨0x2000, 8⟩ v) s (((node s t).updRing (pf0Win i) fun r =>
        { r with base := v % 2 ^ 64 / 4096 * 4096 }).pump))
  ∧ (∀ (s : State) (t port v : Nat), (node s t).coreOn = true → (node s t).blockOpen 0x65 0 = true →
      Goes (.registerWrite t port 0x65 0 ⟨4, 4⟩ v) s (((maskSlots (bits (v % 2 ^ 32) 7 4)).foldl
        (fun d n => if d.inWindow n then d.cancelRemoval n else d)
        ((maskSlots (bits (v % 2 ^ 32) 3 0)).foldl Dev.removeRequest (node s t))).panelStep.pump))
  ∧ (∀ (s : State) (t port v : Nat), (node s t).portsOn = true → (node s t).blockOpen 5 0 = true → v % 65536 = 0x5AA5 →
      Goes (.registerWrite t port 5 0 ⟨0xC, 4⟩ v) s ((node s t).nodeReset CAUSE_SOFT).pump)
  ∧ (∀ (s : State) (t inst off v size : Nat), (node s t).portsOn = true → 0x1800 ≤ off → off ≠ 0x1814 →
      fieldsAt 0x102 off ≠ [] → size = (if reg64 (fieldsAt 0x102 off) then 8 else 4) → off % size = 0 →
      Goes (.registerWrite t 0 0x102 inst ⟨off, size⟩ v) s
        (((fieldsAt 0x102 off).foldl (fun d p => d.writeField p.1 0 p.2 (v % 2 ^ (8 * size))) (node s t)).pump))
  ∧ (∀ (s : State) (t v : Nat), (node s t).portsOn = true → (node s t).blockOpen 0x65 0 = true →
      Goes (.identifyWrite t v) s (((node s t).setRg .PANEL_CFG_ID (bits v 8 8)).setRg .PANEL_CFG_LOCK (bits v 3 0)))
  ∧ (∀ (s : State) (t v : Nat), (node s t).portsOn = true → (node s t).blockOpen 3 0 = true →
      (bit v 0 = true → Goes (.refPendClear t v false) s ((node s t).setRg .REF_PEND_PEND 0)
        ∧ Goes (.refPendClear t v true) s (((node s t).setRg .REF_PEND_PEND 0).setRg .REF_PEND_PEND 1))
      ∧ (bit v 0 = false → Goes (.refPendClear t v false) s (node s t)
        ∧ Goes (.refPendClear t v true) s ((node s t).setRg .REF_PEND_PEND 1)))
  ∧ (∀ (s : State) (t v : Nat), (node s t).portsOn = true →
      ((node s t).blockOpen 0x65 0 = false → Goes (.identifyWrite t v) s ((node s t).bump .ID_STRAY_COUNT))
      ∧ ((node s t).blockOpen 3 0 = false → Goes (.refPendClear t v false) s ((node s t).bump .ID_STRAY_COUNT)
        ∧ Goes (.errclassWrite t v) s ((node s t).bump .ID_STRAY_COUNT)))

/-- An access to PF0 BAR0 by its offset (R72, R76, R78): a read inside the Start List, while no image is being applied, answers
the list's bytes; inside a block it is a register access as that block's; elsewhere it is counted in ID_STRAY and a read
answers 0. A write to the Start List is counted and has no other effect. -/
def Obligations.Bar0AccessesComplete : Prop :=
  (∀ (s : State) (t port off size v : Nat), (node s t).portsOn = true → (node s t).loader ≠ 4 → off < 0x10000 → 0 < size →
      off % 64 + size ≤ 64 →
      Goes (.bar0StrayAccess t port off size none) s (((node s t).answerRead port
        (sub ((node s t).sl.bytes ++ fill (0x10000 - (node s t).sl.bytes.length) 0) off size)).pump))
  ∧ (∀ (s : State) (t port off size v : Nat) (e : SlEnt) (o : Nat), (node s t).portsOn = true → 0x10000 ≤ off →
      (node s t).blockAt off = some (e, o) →
      Goes (.bar0StrayAccess t port off size none) s (((node s t).readReg port e.type e.inst o size 0).pump)
      ∧ Goes (.bar0StrayAccess t port off size (some v)) s (((node s t).writeReg port e.type e.inst o size v).pump))
  ∧ (∀ (s : State) (t port off size v : Nat), (node s t).portsOn = true → 0x10000 ≤ off → (node s t).blockAt off = none →
      Goes (.bar0StrayAccess t port off size none) s
        ((((node s t).bump .ID_STRAY_COUNT).answerRead port (fill size 0)).pump))
  ∧ (∀ (s : State) (t port off size v : Nat), (node s t).portsOn = true → (off < 0x10000 ∨ (node s t).blockAt off = none) →
      Goes (.bar0StrayAccess t port off size (some v)) s ((node s t).bump .ID_STRAY_COUNT).pump)

/-! ## Command windows -/

/-- R136 to R145, R33: in a quiet node a descriptor that its window takes is admitted at once: it has landed as `landIn` says,
leaves its FIFO, takes its context and its work begins. -/
def Obligations.DescriptorsRunAtOnceInAQuietNode : Prop :=
  ∀ (c : Instr) (s : State) (t op : Nat) (src : Src) (x : Bytes) (k : Nat), descriptor c = some (t, op, src, x) →
    (node s t).srcWin src = some k → (node s t).discards k = false → Takes (node s t) k (fit 64 (withOp op x)) →
    Goes c s (Dev.pumpN 1 (((node s t).landIn k (fit 64 (withOp op x))).1.admitReq (node s t).ids
      (contextOf (node s t) k (fit 64 (withOp op x)))))

/-- In any node whose domains all run, a descriptor is written to its window, where it lands, is refused or is discarded;
then everything that can goes on. -/
def Obligations.DescriptorsAreSubmitted : Prop :=
  ∀ (c : Instr) (s : State) (t op : Nat) (src : Src) (x : Bytes), descriptor c = some (t, op, src, x) →
    (node s t).coreOn = true →
    Goes c s ((((node s t).land src (fit 64 (withOp op x))).1.landed ((node s t).land src (fit 64 (withOp op x))).2).pump)

/-- CANCEL and RUN_CANCEL that pass the checks at landing leave their FIFO at once (R196, R297) and complete with ST_OK,
RESULT the number cancelled. -/
def Obligations.CancelsCompleteAtLanding : Prop :=
  ∀ (s : State) (t k n : Nat) (src : Src) (x : Bytes) (q : Req) (e : Dev), (node s t).coreOn = true →
    (node s t).srcWin src = some k → (node s t).discards k = false →
    ((node s t).landIn k (fit 64 (withOp 0x1F x)) = (e, some n) → Tab.find e.reqs n = some q → q.desc = fit 64 (withOp 0x1F x) →
      payloadOk [(0x10, 4)] q.desc = true →
      Goes (.cancel t src x) s
        (((e.leaveFifo n).cancelSearch q.bib (u32 q.desc 0x10)).2.complete n ST_OK
          ((e.leaveFifo n).cancelSearch q.bib (u32 q.desc 0x10)).1).pump)
    ∧ ((node s t).landIn k (fit 64 (withOp 0x2F x)) = (e, some n) → Tab.find e.reqs n = some q → q.desc = fit 64 (withOp 0x2F x) →
      payloadOk [(0x10, 4)] q.desc = true →
      Goes (.runCancel t src x) s
        (((e.leaveFifo n).runCancel q.bib (u32 q.desc 0x10)).2.complete n ST_OK
          ((e.leaveFifo n).runCancel q.bib (u32 q.desc 0x10)).1).pump)

/-- R25, R136: a descriptor whose opcode no chapter defines takes no slot: it completes with ST_BAD_DESC, RESULT 0, in the
ring that its header names where that is enabled, and its credit is returned. -/
def Obligations.UndefinedOpcodesAreBadDescriptors : Prop :=
  ∀ (s : State) (t k : Nat) (src : Src) (x : Bytes), (node s t).coreOn = true → (node s t).srcWin src = some k →
    (node s t).discards k = false → ((node s t).ring (ringKey k (u8 (fit 64 x) 1 % 8))).en = true →
    definedOps.contains (u8 (fit 64 x) 0) = false → ((node s t).win k).fifo.length < 256 →
    Goes (.unknownOpcode t src x) s
      ((((node s t).setWin k { (node s t).win k with accum := min 511 (((node s t).win k).accum + 1) }).post
        { win := k, bib := if winIsPf0 k then none else some (winBib k), ring := u8 (fit 64 x) 1 % 8, tag := u32 (fit 64 x) 4
          gen := if winIsPf0 k then 0 else ((node s t).bib (winBib k)).gen, opcode := u8 (fit 64 x) 0
          irq := bit (u8 (fit 64 x) 2) 0, landed := (node s t).now, status := ST_BAD_DESC, flags := 0, result := 0 }).pump)

/-- R116. A write to the command window of a VF that carries no bib: no completion, no Referee fault, nothing but the
count; the frame is everything else. Where other work waits, that goes on as after any command. -/
def Obligations.StrayWindowWritesAreCounted : Prop :=
  (∀ (s : State) (t p v : Nat), (node s t).coreOn = true → (node s t).vfBib p v = none →
      Goes (.strayWindowWrite t p v) s ((node s t).bump .BIBTAB_STRAY_COUNT))
  ∧ (∀ (s : State) (t p v w : Nat) (rec : Bytes), (node s t).coreOn = true → (node s t).vfBib p v = none →
      Goes (.ringRelease t (.vf p v w) rec) s ((node s t).bump .BIBTAB_STRAY_COUNT))
  ∧ (∀ (c : Instr) (s : State) (t p v w : Nat) (x : Bytes), (∃ op, descriptor c = some (t, op, .vf p v w, x))
        ∨ c = .cancel t (.vf p v w) x ∨ c = .runCancel t (.vf p v w) x ∨ c = .unknownOpcode t (.vf p v w) x →
      (node s t).coreOn = true → (node s t).vfBib p v = none →
      Goes c s ((node s t).bump .BIBTAB_STRAY_COUNT).pump
      ∧ ((node s t).Quiet → Goes c s ((node s t).bump .BIBTAB_STRAY_COUNT)))

/-- R149: a valid HEAD of an enabled ring takes effect, and completions that wait for the ring take the entries that are
free now (`rehome`); a HEAD that would decrease, or that passes the write count, changes no ring, and the Referee records
CW_RELEASE; one of a ring that is not enabled does nothing. -/
def Obligations.ReleaseReturnsRingSpace : Prop :=
  ∀ (d : Dev) (b path r head : Nat), b < 1024 → path < 2 → r < 8 →
    let rk := bibWin b path r
    let step := (head + 4294967296 - (d.ring rk).head) % 4294967296
    ((d.ring rk).en = false → d.releaseHead (bibWin b path 7) r head = d)
    ∧ ((d.ring rk).en = true → step ≤ (d.ring rk).used → d.releaseHead (bibWin b path 7) r head =
        (d.setRing rk { d.ring rk with head := head }).rehome rk)
    ∧ ((d.ring rk).en = true → (d.ring rk).used < step → d.releaseHead (bibWin b path 7) r head =
        d.reportWin SRC_CW_RELEASE (bibWin b path 7) (r * 4294967296 + head) 10)

/-- The other events of the windows: a release record acts on each ring that its mask names; an incomplete block is
counted as dropped and recorded (R137), a poisoned TLP reported to AER too, a malformed one or, where its checking is
enabled (R159), one with an ECRC error to AER alone; an admin ring is configured (R158), and what waits for it goes on; MOD_TIME ends the moderation of a ring that holds an unsignalled entry (R152); completions that waited 1 ms
for a full ring are given up (R150); a pending vector leaves when it is unmasked (R152); PERST_N released samples
APT_EN, the first sample fixing ID_CAP0.APT (R73, R94), and starts link training, while the node is in RESET at the end of
that (R539). -/
def Obligations.WindowEventsComplete : Prop :=
  (∀ (s : State) (t k : Nat) (src : Src) (rec : Bytes), (node s t).coreOn = true → (node s t).srcWin src = some k →
      (node s t).discards k = false →
      Goes (.ringRelease t src rec) s ([0, 1, 2, 3, 4, 5, 6, 7].foldl (fun d r =>
        if bit (u8 rec 0x20) r then d.releaseHead k r (u32 rec (4 * r)) else d) (node s t)))
  ∧ (∀ (s : State) (t k off : Nat) (src : Src), (node s t).coreOn = true → (node s t).srcWin src = some k →
      (node s t).discards k = false →
      Goes (.tlpDropped t src .incomplete off) s (((node s t).updWin k fun w =>
        { w with dropped := min 255 (w.dropped + 1) }).reportWin SRC_CW_PARTIAL k off 10))
  ∧ (∀ (s : State) (t p v w k off : Nat), (node s t).coreOn = true → (node s t).srcWin (.vf p v w) = some k →
      (node s t).discards k = false →
      Goes (.tlpDropped t (.vf p v w) .poisoned off) s ((((node s t).emit (.aer p)).updWin k fun w =>
        { w with dropped := min 255 (w.dropped + 1) }).reportWin SRC_CW_PARTIAL k off 10))
  ∧ (∀ (s : State) (t p v w off : Nat), (node s t).coreOn = true →
      Goes (.tlpDropped t (.vf p v w) .malformed off) s ((node s t).emit (.aer p))
      ∧ (((node s t).port p).ecrcCheck = true → Goes (.tlpDropped t (.vf p v w) .ecrc off) s ((node s t).emit (.aer p)))
      ∧ (((node s t).port p).ecrcCheck = false → Goes (.tlpDropped t (.vf p v w) .ecrc off) s (node s t)))
  ∧ (∀ (s : State) (t p v : Nat), (node s t).coreOn = true → bit v 31 = false →
      Goes (.adminRingConfig t p v) s (((node s t).setRing (16384 + p) { (node s t).ring (16384 + p) with
        vec := bits v 11 10, modTime := bits v 30 21, modCount := bits v 20 12, size := bits v 4 0, en := false }).rehome
          (16384 + p)))
  ∧ (∀ (s : State) (t p v : Nat), (node s t).coreOn = true → bit v 31 = true → ((node s t).ring (16384 + p)).en = false →
      6 ≤ bits v 4 0 → bits v 4 0 ≤ 16 → 1 ≤ bits v 20 12 → bits v 20 12 ≤ 256 →
      Goes (.adminRingConfig t p v) s (((node s t).setRing (16384 + p) { (node s t).ring (16384 + p) with
        vec := bits v 11 10, modTime := bits v 30 21, modCount := bits v 20 12, size := bits v 4 0, en := true
        written := 0, head := 0, unsig := 0, setup := ((node s t).ring (16384 + p)).setup + 1
        past := ((node s t).ring (16384 + p)).close.past }).rehome (16384 + p)))
  ∧ (∀ (s : State) (t p v : Nat), (node s t).coreOn = true → bit v 31 = true → ((node s t).ring (16384 + p)).en = true →
      6 ≤ bits v 4 0 → bits v 4 0 ≤ 16 → 1 ≤ bits v 20 12 → bits v 20 12 ≤ 256 →
      Goes (.adminRingConfig t p v) s (((node s t).setRing (16384 + p) { (node s t).ring (16384 + p) with
        vec := bits v 11 10, modTime := bits v 30 21, modCount := bits v 20 12, size := bits v 4 0, en := true }).rehome
          (16384 + p)))
  ∧ (∀ (s : State) (t p v : Nat), (node s t).coreOn = true → bit v 31 = true →
      bits v 4 0 < 6 ∨ 16 < bits v 4 0 ∨ bits v 20 12 < 1 ∨ 256 < bits v 20 12 → Goes (.adminRingConfig t p v) s (node s t))
  ∧ (∀ (s : State) (t rk p fn : Nat), (node s t).coreOn = true → 0 < ((node s t).ring rk).unsig →
      ((node s t).ring rk).firstAt + ((node s t).ring rk).modTime * 1000 ≤ (node s t).now →
      (∀ m ∈ ((node s t).ring rk).past, m.2.unsig = 0) → ((node s t).ring rk).lastDest = .pcie p fn →
      Goes (.modTimeExpiry t rk) s (((node s t).setRing rk { (node s t).ring rk with unsig := 0 }).pushCtl (2 + p)
        (((node s t).outlet (2 + p)).counted 4 1) [.msix p fn ((node s t).ring rk).vec]))
  ∧ (∀ (s : State) (t rk k p fn : Nat) (m : RingMod), (node s t).coreOn = true → ((node s t).ring rk).past = [(k, m)] →
      0 < m.unsig → m.firstAt + m.modTime * 1000 ≤ (node s t).now → m.dest = .pcie p fn → ((node s t).ring rk).unsig = 0 →
      Goes (.modTimeExpiry t rk) s (((node s t).setRing rk { (node s t).ring rk with past := [(k, { m with unsig := 0 })] }).pushCtl
        (2 + p) (((node s t).outlet (2 + p)).counted 4 1) [.msix p fn m.vec]))
  ∧ (∀ (s : State) (t rk at_ : Nat) (c : Cpl), (node s t).coreOn = true → ((node s t).ring rk).wait = [(at_, c)] →
      at_ + 1000000 ≤ (node s t).now → c.rerouted = false →
      Goes (.ringFullTimeout t rk) s (((((((node s t).setRing rk { (node s t).ring rk with wait := [] }).updWin c.win fun w =>
        w.credit c.credits).discardCpl c).reportWin SRC_RING_FULL c.win (rk % 8 % 8) 4).configAfter rk c).ringGoesOn rk))
  ∧ (∀ (s : State) (t p fn v : Nat) (m : Msix), (node s t).coreOn = true → Tab.find ((node s t).port p).msix fn = some m →
      m.enabled = true → m.pendingVecs = [v] → m.unmasked = [] →
      Goes (.msixUnmask t p fn v) s (((node s t).updPort p fun x =>
        { x with msix := Tab.ins x.msix fn { m with unmasked := [v], pendingVecs := [] } }).emit (.msix p fn v)))
  ∧ (∀ (s : State) (t p : Nat) (en : Bool) (d : Dev), d = ((node s t).sampleApt p en).updPort p (fun x => { x with perst := false }) →
      ((node s t).mgmtOn = true → (p ≠ 1 ∨ d.straps.bootMode < 2) →
        Goes (.perstDeassert t p en) s ((d.lockPcie p true).updPort p fun x =>
          { x with up := true, rate := 32, width := 16, perst := false, answersAt := d.now + 100000000 }))
      ∧ ((node s t).mgmtOn = true → p = 1 → 2 ≤ d.straps.bootMode → Goes (.perstDeassert t p en) s d)
      ∧ ((node s t).power = 1 → (node s t).thermTrip = false → Goes (.perstDeassert t p en) s d))

/-! ## Ports, RoCEv2, Ethernet, PTP -/

/-- The events of a port: a VF reset resets the bib bound to the VF and disables its rings; losing VFs, the link or the
reset pin of a port faults every bib bound to it (Table 06.10); a configuration request of a port that answers takes effect (R159), and a read answers the field (Table 06.9); losing the
reference clock of PCIe stops that port alone, that of Ethernet both ports, any other resets the node (R535); a link that
comes up worse than at the last load is recorded (R449). -/
def Obligations.PortEventsComplete : Prop :=
  (∀ (s : State) (t p v b path : Nat), (node s t).coreOn = true → (node s t).vfBib p v = some (b, path) →
      path = ((node s t).bib b).path →
      Goes (.vfFlr t p v) s (([0, 1, 2, 3, 4, 5, 6, 7].foldl (fun d r => d.clearRing (bibWin b path r))
        (((node s t).updPort p fun x => { x with msix := Tab.del x.msix v, d3 := x.d3.filter (· != v) }).bibEvent b
          .resetPf0 none)).pump))
  ∧ (∀ (s : State) (t p v : Nat), (node s t).coreOn = true → (node s t).vfBib p v = none →
      Goes (.vfFlr t p v) s ((node s t).updPort p fun x =>
        { x with msix := Tab.del x.msix v, d3 := x.d3.filter (· != v) }).pump)
  ∧ (∀ (s : State) (t p : Nat), (node s t).coreOn = true →
      Goes (.pf0Flr t p) s ((((node s t).dropPf0 p).updPort p fun x =>
        { x with vfEnable := false, numVfs := 0, msix := [], d3 := [] }).bindingLost p).pump)
  ∧ (∀ (s : State) (t p : Nat), (node s t).coreOn = true →
      Goes (.portBindingLoss t p .vfEnableCleared) s (((node s t).updPort p fun x =>
        { x with vfEnable := false, numVfs := 0 }).bindingLost p).pump
      ∧ Goes (.portBindingLoss t p .linkDown) s (((node s t).updPort p fun x => { x with up := false }).bindingLost p).pump
      ∧ Goes (.portBindingLoss t p .hotReset) s (((node s t).resetPort p).trainPort p).pump)
  ∧ (∀ (s : State) (t p : Nat), (node s t).mgmtOn = true →
      Goes (.perstAssert t p) s (((node s t).resetPort p).updPort p fun x => { x with perst := true }).pump)
  ∧ (∀ (s : State) (t p n : Nat), (node s t).mgmtOn = true → ((node s t).port p).answersAt ≤ (node s t).now →
      (∀ f v, ((node s t).port p).cfgField f = some v →
        Goes (.pcieConfigRequest t p (.read f)) s ((node s t).emit (.readData p (le 4 v))).pump)
      ∧ Goes (.pcieConfigRequest t p (.vfEnable true n)) s ((node s t).updPort p fun x =>
        { x with vfEnable := true, numVfs := min 512 n }).pump
      ∧ (n = 128 ∨ n = 256 ∨ n = 512 →
        Goes (.pcieConfigRequest t p (.maxPayload n)) s ((node s t).updPort p fun x => { x with mps := n }).pump)
      ∧ Goes (.pcieConfigRequest t p (.powerState n false)) s ((node s t).updPort p fun x =>
        { x with d3 := x.d3.filter (· != n) }).pump)
  ∧ (∀ (s : State) (t : Nat), (node s t).mgmtOn = true →
      (∀ p, Goes (.clockLoss t (.pcieRef p)) s ((((node s t).lockPcie p false).updPort
          p fun x => { x with up := false }).bindingLost p).pump)
      ∧ Goes (.clockLoss t .ethRef) s (((((((node s t).setRg .PWR_CLK_ETH 0).setRg .PWR_CLK_TIMEBK 1).setRg .ETH_LINK_UP 0 0).setRg
        .ETH_LINK_UP 0 1).setRg .ETH_LINK_LOCK 0 0).setRg .ETH_LINK_LOCK 0 1).pump
      ∧ Goes (.clockLoss t .sysRef) s ((node s t).nodeReset CAUSE_CLOCK).pump)
  ∧ (∀ (s : State) (t p lanes rate : Nat), (node s t).coreOn = true → (node s t).imageLoaded = true →
      ((node s t).port p).loadRate * ((node s t).port p).loadWidth ≤ rate * lanes →
      Goes (.linkDegraded t p lanes rate) s ((node s t).updPort p fun x =>
        { x with up := decide (lanes > 0), rate := rate, width := lanes, degraded := x.degraded || false }))
  ∧ (∀ (s : State) (t p lanes rate : Nat), (node s t).coreOn = true → (node s t).imageLoaded = true →
      rate * lanes < ((node s t).port p).loadRate * ((node s t).port p).loadWidth →
      ∀ e : Dev, e = (((node s t).updPort p fun x => { x with
        up := decide (lanes > 0), rate := rate, width := lanes, degraded := true }).report SRC_LINK_DEGRADED 6 p none
          (lanes % 256 + rate % 256 * 256) 0) →
      Goes (.linkDegraded t p lanes rate) s { e with reqs := Tab.mapV e.reqs fun _ q =>
        if (e.winDest q.win).outlet == 2 + p then { q with excused := true } else q })

/-- What a fabric-bound bib with a ready queue pair brings: a submission of 64-byte blocks is written block by block to
its service window; a key record replaces the bib's regions (R441, R442); a packet marked CE is answered by one CNP where
none has gone within 50 µs (R440); unacknowledged packets are sent again; an operation that the node does not take is
answered by a NAK (R438); the queue pair that gives up is BINDING_LOST against its bib (R439). -/
def Obligations.FabricEventsComplete : Prop :=
  ∀ (s : State) (t b : Nat), (node s t).coreOn = true → (node s t).fabReady b = true →
    (∀ (imm : Nat) (x : Bytes), subOk imm x = true → imm ≠ 16 → imm ≠ 8 →
      Goes (.roceSubmission t b imm x) s ((chunks 64 (x.length / 64) x).foldl (fun d y => d.submit (.fab b imm) y)
        ((node s t).bump .ETH_RXFRAMES_COUNT 1 ((node s t).bib b).bind.port)))
    ∧ (∀ x : Bytes, Goes (.roceKeyRecord t b x) s (((node s t).updBib b fun y => { y with keys := some x }).bump
        .ETH_RXFRAMES_COUNT 1 ((node s t).bib b).bind.port))
    ∧ (((node s t).bib b).cnpAt = none → Goes (.roceCeReceived t b) s ((((node s t).updBib b fun y =>
        { y with cnpAt := some (node s t).now }).bump .ETH_CNPTX_COUNT 1 ((node s t).bib b).bind.port).ethSend ((node s t).bib b).bind.port (.roceCnp b)))
    ∧ Goes (.roceAckTimeout t b) s ((node s t).emit (.roceRetransmit b))
    ∧ (∀ k, Goes (.roceInvalidRequest t b k) s ((node s t).ethSend ((node s t).bib b).bind.port (.roceNak b)))
    ∧ Goes (.roceRetryExhausted t b) s (((node s t).updBib b fun y => { y with qpReady := false }).report
        SRC_BINDING_LOST 0x51 ((node s t).bib b).bind.port (some b) 0 0).pump

/-- Ethernet and PTP events: a PAUSE frame is counted and discarded (R436); ARP, Neighbor Discovery and ICMP echo are
answered, any other frame dropped, both counted (R437); a CNP is counted (R440); a link change sets the lane groups up and
locked and may move PTP (R443); a synchronisation of the port PTP runs on sets offset, frequency and lock (R444, R445), and
one of another port is only counted; two seconds without one lose the lock; a clock's message enters CONTROL (R448). -/
def Obligations.EthernetAndPtpComplete : Prop :=
  ∀ (s : State) (t : Nat), (node s t).coreOn = true →
    (∀ p, Goes (.pauseReceived t p) s ((node s t).bump .ETH_PAUSE_COUNT 1 p))
    ∧ (∀ p, Goes (.neighborFrame t p .other) s ((node s t).bump .ETH_DROPS_COUNT 1 p)
        ∧ Goes (.neighborFrame t p .arp) s (((node s t).bump .ETH_RXFRAMES_COUNT 1 p).ethSend p (.neighborReply p .arp)))
    ∧ (∀ p, Goes (.cnpReceived t p) s (((node s t).bump .ETH_RXFRAMES_COUNT 1 p).bump .ETH_CNPRX_COUNT 1 p))
    ∧ (∀ p up lock, Goes (.ethLinkChange t p up lock) s
        ((((node s t).setRg .ETH_LINK_UP up p).setRg .ETH_LINK_LOCK lock p).setRg .PTP_STAT_PORT
          (((node s t).setRg .ETH_LINK_UP up p).setRg .ETH_LINK_LOCK lock p).ptpPort))
    ∧ (∀ p off f, p = (node s t).ptpPort → (node s t).ptpSync ≠ none → 1000 < Int.natAbs off →
        Goes (.ptpMessage t p off f) s
          (({ ((((node s t).bump .ETH_RXFRAMES_COUNT 1 p).setRg .PTP_OFFSET_NS (unsigned 32 off)).setRg .PTP_FREQ_PPB
            (unsigned 32 (max (-100000) (min 100000 f)))) with ptpSync := some (node s t).now, ptpCount := 0 } : Dev).noteMaster.setRg
              .PTP_STAT_MASTER 0 |>.setRg .PTP_STAT_PORT p |>.unlock))
    ∧ (∀ p off f, p ≠ (node s t).ptpPort → Goes (.ptpMessage t p off f) s ((node s t).bump .ETH_RXFRAMES_COUNT 1 p))
    ∧ (∀ u, (node s t).ptpSync = some u → u + 2000000000 ≤ (node s t).now → (node s t).rg .PTP_CFG_MASTER = 0 →
        Goes (.ptpSyncTimeout t) s { (node s t).unlock with ptpCount := 0 })
    ∧ ((node s t).rg .ETH_LINK_UP (node s t).ptpPort ≠ 0 → Goes (.ptpSendInterval t) s ((node s t).pushCtl (node s t).ptpPort
        (((node s t).outlet (node s t).ptpPort).counted 114 1) [.ptp (node s t).ptpPort ((node s t).rg .PTP_STAT_MASTER = 1)]))

/-! ## Traffic -/

/-- Pacers, gates and outlets: at a period a Pacer's tokens rise by its rate and stop at its depth, a CONTROL Pacer's at
16,384 bytes (R452, R448); the gate list in force shows its entry (R455); an outlet that is free commits CONTROL's head
before any other (R456), and where nothing waits only brings its promotion bucket up to date (R457); an OPEN head older
than PROMO_AGE becomes urgent (R457). -/
def Obligations.TrafficEventsComplete : Prop :=
  ∀ (s : State) (t : Nat), (node s t).coreOn = true →
    (∀ (k : Nat) (p : Pacer), k < 9220 → Tab.find (node s t).pacers k = some p → p.period ≠ 0 → (node s t).now % p.period = 0 →
      p.refilled < (node s t).now → p.next = none →
      Goes (.pacerRefill t k) s { node s t with pacers := Tab.ins (node s t).pacers k { p.refill with refilled := (node s t).now } })
    ∧ (∀ o, (node s t).now % 1000 = 0 → ((node s t).outlet o).ctlAt < (node s t).now →
      Goes (.pacerRefill t (9220 + o)) s ((node s t).updOutlet o fun x =>
        { x with ctlTokens := min (16384 * 65536) (x.ctlTokens + (refillAmount ((node s t).lineRate o / 100) 1000 ((node s t).outlet o).ctlRem).1)
                 ctlRem := (refillAmount ((node s t).lineRate o / 100) 1000 ((node s t).outlet o).ctlRem).2, ctlAt := (node s t).now }))
    ∧ (∀ o, ((node s t).outlet o).gates ≠ [] → gateCycle ((node s t).outlet o).gates ≠ 0 → ((node s t).outlet o).base ≤ (node s t).now →
      Goes (.gateChange t o) s ((node s t).setRg .TM_GCL_CUR
        (gateAt ((node s t).outlet o).gates (((node s t).now - ((node s t).outlet o).base) % gateCycle ((node s t).outlet o).gates)).1 0 o))
    ∧ (∀ (o : Nat) (f : Frame) (d : Dev), d = (node s t).refillsDue o → 2 ≤ o → o < 4 → (d.port (o - 2)).up = true →
      (d.outlet o).busy0 ≤ d.now → (d.outlet o).ctl = [f] → f.lane = 0 → f.charge * 65536 ≤ (d.outlet o).ctlTokens →
      o < d.outlets.length →
      ∃ e : Dev, Goes (.outletCommit t o 0) s (f.emits.foldl Dev.release e) ∧ (e.outlet o).ctl = [] ∧ e.queues = d.queues
        ∧ (e.outlet o).ctlTokens = (d.outlet o).ctlTokens - f.charge * 65536
        ∧ (e.outlet o).busy0 = d.now + d.txTime o f.len ∧ e.out = d.out)
    ∧ (∀ (o : Nat) (d : Dev), d = (node s t).refillsDue o → o < 4 → (d.outlet o).busy0 ≤ d.now → d.linkUp o 0 = true →
      (d.outlet o).ctl = [] → (d.outlet o).apt = [] → d.queues = [] → o < d.outlets.length →
      Goes (.outletCommit t o 0) s (d.updOutlet o fun x => { x with bucket := d.bucketNow o, bucketAt := d.now }))
    ∧ (∀ (o sub svc : Nat) (f : Frame) (r : List Frame), ((node s t).outlet o).promoAge.getD svc 0 ≠ 0 →
      (node s t).contracted sub svc = false → Tab.find (node s t).queues (queueKey o sub svc) = some (f :: r) →
      ((node s t).outlet o).promoAge.getD svc 0 * 1000 < (node s t).now - f.since →
      Goes (.promotionAge t o sub svc) s { node s t with
        queues := Tab.upd (node s t).queues (queueKey o sub svc) fun _ => { f with urgent := true } :: r })

/-! ## The meet -/

/-- R467: a Relay frame of a live member, at the restart epoch of the receiver, is taken: its acknowledgement counts, and it
is delivered in order as its kind's chapter says. -/
def Obligations.RelayFramesAreTaken : Prop :=
  ∀ (c : Instr) (s : State) (t kind : Nat) (h : RHdr) (b : Bytes), relayFrame c = some (t, kind, h, b) → FrameOk (node s t) h →
    Goes c s ((node s t).relayTake kind h b).intrTick.pump

/-- R467: a frame that is not whole, or that names a slot outside the meet, is discarded and counted in RLY_BADFRAME; one of
an older restart epoch is counted in RLY_STALE and refused with ST_STALE_EPOCH; a member's own frame is discarded. -/
def Obligations.RelayFramesAreChecked : Prop :=
  (∀ (s : State) (t : Nat) (raw : Bytes), (node s t).coreOn = true → (node s t).mt.on = true →
      Goes (.relayBadFrame t raw) s ((node s t).bump .RLY_BADFRAME_COUNT).pump)
  ∧ (∀ (c : Instr) (s : State) (t kind : Nat) (h : RHdr) (b : Bytes), relayFrame c = some (t, kind, h, b) →
      (node s t).coreOn = true → (node s t).mt.on = true →
      (Tab.has (node s t).mt.members h.src = false → Goes c s ((node s t).bump .RLY_BADFRAME_COUNT).intrTick.pump)
      ∧ (Tab.has (node s t).mt.members h.src = true → h.src ≠ (node s t).mt.slot → stale 32 h.restart (node s t).mt.restart = true →
          kind ≠ K_JOIN → kind ≠ K_RESTART →
          Goes c s (((node s t).bump .RLY_STALE_COUNT).refuseFrame h.src kind ST_STALE_EPOCH b).intrTick.pump))

/-- R470: a frame that stands unacknowledged for the retransmission time is sent again with RETX, its number and body as
they were, and counted: three times at most, an UPDATE until it is answered. -/
def Obligations.UnacknowledgedFramesAreSentAgain : Prop :=
  ∀ (s : State) (t dst seq : Nat) (u : Unacked), (node s t).coreOn = true →
    ((node s t).peer dst).unacked.find? (fun u => u.seq == seq) = some u → u.sentAt + (node s t).mt.retx * 1000 ≤ (node s t).now →
    u.tries < 3 ∨ u.kind = K_UPDATE →
    Goes (.relayRetransmit t dst seq) s ((((node s t).setPeer dst { (node s t).peer dst with
        unacked := ((node s t).peer dst).unacked.map fun x =>
          if x.seq = seq then { x with sentAt := (node s t).now, tries := x.tries + 1 } else x }).bump
      .RLY_RETX_COUNT).relayFrame dst u.kind seq true u.more u.body).pump

/-- The meet's own clock: at each millisecond the holder sends MEMBERS (R472); a member whose heartbeats have been missing
for four instants is declared lost (R473); 200 µs without a beacon end the commits of a member (R474), 225 µs fence it;
a RESTART's window ends in the new epoch (R489); a cold node listens, then begins a restart (R493); at a planned
hand-over's epoch the new primary orders (R481); at each millisecond thresholds follow the latencies seen (R485), at each
hour interrupted time moves to the hour before (R496); an unsynchronised second takes a node's copies DOWN (R481). -/
def Obligations.MeetTimersComplete : Prop :=
  ∀ (s : State) (t : Nat), (node s t).coreOn = true →
    ((node s t).now % 50000 = 0 → (node s t).mt.on = true → (node s t).mt.member = true →
      Goes (.heartbeatInstant t) s (node s t).heartbeatNow.intrTick.pump)
    ∧ ((node s t).now % 1000000 = 0 → (node s t).isHolder = true → (node s t).inMeet = true →
      Goes (.membersPeriod t) s (node s t).sendMembers.pump)
    ∧ (∀ m i, (node s t).isHolder = true → (node s t).inMeet = true → m ≠ (node s t).mt.slot → (node s t).memberLive m = true →
      ((node s t).member m).hbInst = some i → 50000 * (i + 4) + 25000 ≤ (node s t).now →
      Goes (.slotLossDeadline t m) s (((node s t).declareLost m ((node s t).member m).hbAt 0 true).intrTick.pump))
    ∧ ((node s t).mt.on = true → (node s t).isHolder = false → (node s t).mt.beaconAt + 200000 ≤ (node s t).now →
      (node s t).mt.member = true → (node s t).mt.silentDone = false → (node s t).ix.heats = [] →
      Goes (.beaconSilenceCommit t) s ((node s t).setMt fun x => { x with silentDone := true }).pump)
    ∧ ((node s t).inMeet = true → (node s t).isHolder = false → (node s t).mt.beaconAt + 225000 ≤ (node s t).now →
      Goes (.selfFence t) s (node s t).selfFenceNow.intrTick.pump)
    ∧ ((node s t).mt.standby.head? = some (node s t).mt.slot → (node s t).inMeet = true → (node s t).isHolder = false →
      50000 * ((node s t).mt.beaconInst + 4) + 25000 ≤ (node s t).now →
      Goes (.standbyTakesBaton t) s (node s t).standbyTakes.intrTick.pump)
    ∧ (∀ r, (node s t).mt.run = some r → (node s t).isHolder = true → r.began + (node s t).mt.joinMs * 1000000 ≤ (node s t).now →
      Goes (.joinWindowEnd t) s (node s t).joinWindow.intrTick.pump)
    ∧ ((node s t).mt.anchor = (node s t).mt.slot → (node s t).mt.on = true → (node s t).mt.member = false → (node s t).isHolder = false →
      (node s t).mt.run = none → max (node s t).mt.coldAt (node s t).mt.heardAt + 2 * (node s t).mt.joinMs * 1000000 ≤ (node s t).now →
      Goes (.coldStartListenEnd t) s
        (((node s t).setMt fun x => { x with holder := some x.slot, baton := 1 }).beginRestart (node s t).mt.restart []).pump)
    ∧ (∀ n i h k, (node s t).heatIdx n = some i → (node s t).heat i = some h → h.handoff = some (k, (node s t).mt.slot) → h.role = 1 →
      k ≤ (node s t).now / (node s t).ivl + 4294967296 →
      Goes (.plannedHandoffBoundary t n) s ((node s t).updHeat i fun h =>
        { h with role := 0 }).pump)
    ∧ ((node s t).now % 1000000 = 0 → Goes (.hedgeRecompute t) s ((node s t).setIx fun x => { x with
        hedges := Tab.mapV x.hedges fun _ g => if g.lats.length < 1024 then g else { g with
          threshold := min ((node s t).mt.hedgeMax * 1000) ((sortBy (· < ·) g.lats).getD 972 0 + (node s t).mt.margin * 1000) } }).pump)
    ∧ ((node s t).now % 3600000000000 = 0 → Goes (.interruptedHourRoll t) s
        ((((node s t).intrTick.setRg .RLY_INTRPREV_NS ((node s t).intrTick.rg .RLY_INTR_NS)).setRg .RLY_INTR_NS 0).setMt fun x =>
          { x with members := Tab.mapV x.members fun _ m => { m with intr := 0 } }).pump)
    ∧ (∀ u, (node s t).rg .PTP_STAT_HOLDOVER = 1 → (node s t).mt.holdover = some u → u + 1000000000 ≤ (node s t).now → Goes (.holdoverLimit t) s
        ((node s t).ix.heats.foldl (fun d p => d.updHeat p.1 fun h => if h.state ≤ 1 && d.mt.on then { h with state := 2 } else h)
          (node s t)).pump)

/-- R486: a source of a search that has not answered within its threshold is hedged, or given up at four times that, where
the search is at its shards and the source is still open. -/
def Obligations.SourcesAreHedgedAndGivenUp : Prop :=
  ∀ (s : State) (t r i : Nat) (x : Srch) (y : Source), (node s t).coreOn = true → (node s t).mt.on = true →
    (node s t).srch r = some x → x.sources[i]? = some y → x.step = 2 → y.settled = false →
    (y.sent.length = 1 → y.first + (node s t).threshold y.heat ≤ (node s t).now →
      Goes (.hedgeThreshold t r i) s ((node s t).hedge r i).pump)
    ∧ (y.sent ≠ [] → y.first + 4 * (node s t).threshold y.heat ≤ (node s t).now →
      Goes (.sourceGiveUp t r i) s ((node s t).giveUp r i false).pump)

/-! ## The index -/

/-- R178, R241, R183: at k × I a primary that orders closes group k, what its updates were goes to the journal, and updates
of later groups stay; at k × I + P it publishes, and a group without updates moves the epoch on. Below the NV bar the
group's updates end with ST_NV_BLOCKED and an empty group closes. -/
def Obligations.CommitGroupsCloseAndPublish : Prop :=
  ∀ (s : State) (t n i : Nat) (h : Heat), (node s t).coreOn = true → (node s t).heatIdx n = some i → (node s t).heat i = some h →
    (∀ k, k = (node s t).now / (node s t).ivl + 4294967296 → (node s t).now % (node s t).ivl = 0 → h.orders (node s t).mt.slot k = true →
      (node s t).mt.on = false → h.started = true →
      ∀ (us : List Upd) (d : Dev), us = (h.opens.filter fun g => decide (g.epoch ≤ k)).flatMap (·.upds) →
      d = (node s t).updHeat i (fun h => { h with opens := h.opens.filter fun g => decide (k < g.epoch) }) →
      ((node s t).rg .FTL_SUPPLY_NVLOW = 0 → us = [] → Goes (.commitGroupClose t n) s ((d.updHeat i fun h => { h with
        closed := insertBy (fun a b => a.epoch < b.epoch) { epoch := k, closed := true, upds := [], durable := true, acks := [] }
          (h.closed.filter fun x => x.epoch != k) }).releaseHeld i).pump)
      ∧ ((node s t).rg .FTL_SUPPLY_NVLOW = 0 → (node s t).writables false ≠ [] →
        Goes (.commitGroupClose t n) s ((d.launchGroup i h k us).releaseHeld i).pump)
      ∧ ((node s t).rg .FTL_SUPPLY_NVLOW = 0 → (node s t).writables false = [] → Goes (.commitGroupClose t n) s
        (((us.foldl (fun d u => d.outcome i u.id ST_REFUSED_RESOURCE 0 7) d).launchGroup i h k []).releaseHeld i).pump)
      ∧ ((node s t).rg .FTL_SUPPLY_NVLOW = 1 → Goes (.commitGroupClose t n) s ((((d.nvGroup i us).bump .SIDE_EMPTY_COUNT 1 i).updHeat i
        fun h => { h with closed := h.closed ++ [{ epoch := k, closed := true, durable := true, nv := true }] }).releaseHeld i).pump))
    ∧ (∀ k, (node s t).pub ≤ (node s t).now → ((node s t).now - (node s t).pub) % (node s t).ivl = 0 → h.role = 0 → h.started = true →
      h.handoff = none → k = ((node s t).now - (node s t).pub) / (node s t).ivl + 4294967296 →
      (h.closed.filter fun g => decide (g.epoch ≤ k)) = [] →
      Goes (.commitGroupPublish t n) s ((((((node s t).updHeat i fun h => if h.applied < k then
        h.apply k ((node s t).floorOf h) ((node s t).batchBefore i) [] else h).trimJournal i).copiesUp).releaseHeld i).pump))

/-- The events of searches: a free walk slot begins the waiting query that arrived first (R199); a neighbour group is sent to
its engine when its window closes (R210) and scores its records when its read returns (R211); at a slice boundary every
engine serves the slice's owner (R231) and in the guard before it begins no more for an owner that does not go on (R232); a
scan batch closes after SCANWIN and a side batch after WIN (R225, R250), each unit of it returns (R226) or is missed (R227);
an engine that holds work in a slice and has finished no record within WDOG is recorded and fenced (R236); a free pod slot takes the lists that wait
(R258), a list that is whole is delivered to its owner (R266), and a query that waited LAGHOLD for its epoch ends with
ST_TIMEOUT (R180). -/
def Obligations.IndexEventsComplete : Prop :=
  ∀ (s : State) (t : Nat), (node s t).coreOn = true →
    (∀ p n q, (node s t).ix.sqs = [(n, q)] → q.stage = 1 → q.part = p →
      Goes (.walkSlotFree t p) s ((node s t).beginSq n).pump)
    ∧ (∀ g x, Tab.find (node s t).ix.groups g = some x → x.closed = false →
      x.opened + (node s t).rg .PACK_CFG_WINDOW ≤ (node s t).now → Goes (.packWindowClose t g) s ((node s t).closeGroup g).pump)
    ∧ (∀ g x h e ecc, Tab.find (node s t).ix.groups g = some x → (node s t).heat x.heat = some h → x.engine = some e → x.running = true →
      ecc.sectorBad = false → ecc.badEntry = none →
      ∀ (ent : Nat → Option QEnt) (d f : Dev),
        ent = (fun i => ((((node s t).engine e).walk.filter fun p => p.1 == g).find? fun p => p.2.1 == i).map fun p => p.2.2) →
        d = ((((((node s t).freeWalk e g).setEngine e ((((node s t).freeWalk e g).engine e).fed (node s t).now)).countEcc e ecc).bump
          .STR_GROUPS_COUNT 1 e).bump .STR_RECORDS_COUNT 1 e).bump .STR_PAIRS_COUNT (x.reqs.filter fun q => !q.2.2).length e →
        f = (if x.reqs.any fun q => q.2.2 then (d.setIx fun z => { z with groups := Tab.del z.groups g }).sendRet e
          { kind := 2, slot := 0, lid := x.lid } else d.setIx fun z => { z with groups := Tab.del z.groups g }) →
        Goes (.strideGroupReturn t g ecc) s (((List.zip (List.range x.reqs.length) x.reqs).foldl
          (fun d q => d.returnOne x h e q (ent q.1)) f).dispatchAll.pauseDue.pump))
    ∧ ((node s t).now % 2000 = 0 → Goes (.sliceBoundary t) s (node s t).sliceStart.pump)
    ∧ (1840 ≤ (node s t).now % 2000 → Goes (.sliceGuard t) s (node s t).sliceGuard.pump)
    ∧ (∀ n b, (node s t).batch n = some b → b.side = false → b.closed = false →
      b.opened + (node s t).rg .STK_CFG_SCANWIN 0 * 1000 ≤ (node s t).now → Goes (.scanBatchClose t n) s ((node s t).closeBatch n).pump)
    ∧ (∀ n b, (node s t).batch n = some b → b.side = true → b.closed = false →
      b.opened + (node s t).rg .SIDE_CFG2_WIN b.heat * 1000 ≤ (node s t).now → Goes (.sideBatchClose t n) s ((node s t).closeBatch n).pump)
    ∧ (∀ n e u ecc b h, (node s t).batch n = some b → (node s t).heat b.heat = some h → e < 128 → ((node s t).engine e).live = some n →
      ((node s t).engine e).owner = b.part → (node s t).engFenced e = false →
      Tab.find b.cur e = some u ∨ b.arrived.contains (unitKey e u) = true → b.side = false ∨ h.pausing = false →
      Goes (.strideBatchReturn t n e u ecc) s ((node s t).batchReturn n e u ecc).pump)
    ∧ (∀ n e u b h grant d, (node s t).batch n = some b → (node s t).heat b.heat = some h → b.sent.contains (unitKey e u) = true →
      (node s t).grantTile n (b.qs.filter fun q => match (node s t).sq q with | some y => y.stage == 3 && !y.missOut | none => false)
        = (grant, d) →
      (grant = [] → Goes (.missNotice t n e u) s (d.unitDone n e u).pump)
      ∧ (grant ≠ [] → ∀ f : Dev, f = d.updBatch n (fun b => { b with
          noticed := Tab.ins b.noticed (unitKey e u) grant, sent := b.sent.filter (· != unitKey e u) }) →
        f.look (heatTile h.number (e / 16) u) = .miss →
        Goes (.missNotice t n e u) s ((f.startRead (heatTile h.number (e / 16) u) 1 (.scan n e u)).settleBatch n).pump))
    ∧ (∀ e, e < 128 → (node s t).engFenced e = false → (node s t).busyAt e = true →
      (node s t).rg .STK_CFG_WDOG (e / 16) * 1000 ≤ ((node s t).engine e).acc + ((node s t).now - ((node s t).engine e).since) →
      Goes (.strWdog t e) s ((((node s t).report SRC_STR_WDOG 0x31 e none ((node s t).now / 2000 % 64) 0).fenceUnit 0x31 e).quitEngine e).pump)
    ∧ (∀ p, Goes (.podSlotsFree t p) s ((node s t).placeLists p).fillRows.pump)
    ∧ (∀ n l, (node s t).plist n = some l → l.closed = true →
      (∀ x, l.owner = .shard x → Goes (.listDelivery t n) s ((node s t).deliverShard n x l).pump)
      ∧ (∀ r, l.owner = .merge r → Goes (.listDelivery t n) s ((node s t).mergeDelivered r n l).pump)
      ∧ (∀ r, l.owner = .final r → Goes (.listDelivery t n) s (((node s t).dropList n).searchEnd r l.ents l.tieCnt).pump)
      ∧ (∀ r row j, l.owner = .seg r row j → Goes (.listDelivery t n) s (((node s t).dropList n).segDelivered r row j l).pump)
      ∧ (∀ r row, l.owner = .row r row → Goes (.listDelivery t n) s (((node s t).dropList n).rowDelivered r row l).pump))
    ∧ (∀ n q, (node s t).sq n = some q → q.stage = 0 → q.held + (node s t).ix.pre.hold * 1000 ≤ (node s t).now →
      Goes (.lagholdExpiry t n) s ((((node s t).bump .HEAT_LAGHOLD_COUNT 1 q.heat).failSq n ST_TIMEOUT).pump))

/-- R252, R254: the hosted copy of a heat begins its next build walk where nothing pauses it and no image is being applied;
at a whole millisecond one copy whose staging is complete begins its pause, the one after the last to pause first. -/
def Obligations.ConsolidationEventsComplete : Prop :=
  ∀ (s : State) (t : Nat), (node s t).coreOn = true → (node s t).loader ≠ 3 → (node s t).loader ≠ 4 →
    (∀ n i h, (node s t).heatIdx n = some i → (node s t).heat i = some h → h.pausing = false →
      Goes (.buildWalkStart t n) s (((node s t).stageGo i).buildWalk i).pump)
    ∧ ((node s t).now % 1000000 = 0 → (node s t).ix.pausedAt ≠ some ((node s t).now / 1000000) →
      ∀ d : Dev, d = (Tab.keys (node s t).ix.heats).foldl (fun d i => (d.restage i).stageGo i) (node s t) →
      (∀ i, ((Tab.keys d.ix.heats).filter fun j => d.staged j && d.pauseFits j) = [i] → d.ix.turn < i →
        Goes (.consolidationPause t) s (((d.setIx fun x => { x with turn := i, pausedAt := some ((node s t).now / 1000000) }).pauseBegin
          i).pauseDue).pump)
      ∧ (((Tab.keys d.ix.heats).filter fun j => d.staged j && d.pauseFits j) = [] → Goes (.consolidationPause t) s d.pump))

/-! ## Infield, embedding tables, the pool, the tiers -/

/-- Infield: the run that waits first is granted a pass of its partition's lowest free tiles (R293); an asked weight tile
arrives in turn (R299); a layer that is not the last is followed by the next (R299), the last ends the pass; a tile that
has not finished within WDOG is recorded, fenced, and its pass stops with ST_INTERNAL (R308); a PROG_LOAD whose check has
not ended in 20 ms completes with ST_TIMEOUT (R291). -/
def Obligations.InfieldEventsComplete : Prop :=
  ∀ (s : State) (t : Nat), (node s t).coreOn = true →
    (∀ p w g, Tab.get [] (settled s t).inf.queue p = [w] → (settled s t).prog p w.slot = some g → g.tiles ≤ ((settled s t).unfenced p).length → (settled s t).passReady w = true →
      ((Tab.vals (settled s t).inf.passes).any fun x => x.reqs.any fun q => q.r == w.r) = false → g.tiles ≤ (((settled s t).unfenced p).filter fun k => !(settled s t).tileBusy k).length → (settled s t).pagesHeld p + g.pages ≤ (settled s t).pageShare p →
      Goes (.passGrant t p) s ((settled s t).grantPass p).pump)
    ∧ (∀ p w g, Tab.get [] (settled s t).inf.queue p = [w] → (settled s t).prog p w.slot = some g → ((settled s t).unfenced p).length < g.tiles →
      Goes (.passGrant t p) s ((((settled s t).setInf fun x => { x with queue := Tab.put [] x.queue p [] }).complete w.r ST_REFUSED_RESOURCE 2).pump))
    ∧ (∀ p w, Tab.get [] (settled s t).inf.queue p = [w] → (settled s t).prog p w.slot = none →
      Goes (.passGrant t p) s ((((settled s t).setInf fun x => { x with queue := Tab.put [] x.queue p [] }).complete w.r ST_REFUSED_RESOURCE 4).pump))
    ∧ (∀ n p l i w, (settled s t).pass n = some p → (p.weights.find? fun w => w.layer == l && w.tile == i) = some w →
      w.state = 2 ∨ (w.state = 0 ∧ (p.weights.find? fun w => w.state == 0) = some w) →
      Goes (.weightTileArrival t n l i) s
        (((((settled s t).draw.2.storeWeight p.pages (p.freePlace (settled s t).draw.1) w.data).updPass n fun x => { x with weights := x.weights.map fun w =>
          if w.layer = l && w.tile = i then { w with state := 3, data := [], key := none, place := p.freePlace (settled s t).draw.1 } else w }).tryLayer n).pump))
    ∧ (∀ n p g y, (settled s t).pass n = some p → p.started = true → (settled s t).prog p.part p.slot = some g → g.layers[p.layer]? = some y →
      (g.layers.length ≤ p.layer + 1 → Goes (.layerEnd t n) s (((settled s t).runLayer n p g p.layer y).endPass n).pump)
      ∧ (p.layer + 1 < g.layers.length → Goes (.layerEnd t n) s
        ((((((settled s t).runLayer n p g p.layer y).updPass n fun x => { x with
          layer := x.layer + 1, started := false, since := ((settled s t).runLayer n p g p.layer y).now
          weights := x.weights.filter fun w => w.layer != x.layer }).askLayer n (p.layer + g.window)).tryLayer n).pump)))
    ∧ (∀ k n p, (settled s t).inf.passes.find? (fun p => p.2.tiles.contains k) = some (n, p) → p.started = true →
      p.since + (settled s t).rg .IGRP_CFG_WDOG (k / 8) * 1000 ≤ (settled s t).now →
      Goes (.tileWdog t k) s ((((settled s t).report SRC_TILE_WDOG 0x11 k none p.slot 0).fenceUnit 0x11 k).stopPass n ST_INTERNAL).pump)
    ∧ (∀ r q, Tab.find (node s t).reqs r = some q → q.live = true → u8 q.desc 0 = 0x20 → q.admitted + 20000000 ≤ (node s t).now →
      Goes (.progCheckTimeout t r) s ((node s t).complete r ST_TIMEOUT).pump)

/-- Embedding tables: a step that waited STEP_TO_US for its end is closed (R349); at a whole millisecond each table's load
window ends and a loaded node may move its hottest row (R354); a move that is not answered in 1 ms is abandoned, and at
its epoch the row changes its home, and changes not yet closed go on to its new one (R355). -/
def Obligations.EmbeddingEventsComplete : Prop :=
  ∀ (s : State) (t : Nat), (node s t).coreOn = true →
    (∀ n st i x b, (node s t).tableIdx n = some i → (node s t).table i = some x → x.buf st = some b →
      b.firstAt + (node s t).em.stepTo * 1000 ≤ (node s t).now →
      st = (x.applied + 1) % 2 ^ 32 → ∀ d : Dev, d = (node s t).closeStep i st →
      ((∃ y, d.table i = some y ∧ y.applied = st) → Goes (.stepTimeout t n st) s (d.closeSteps 3 i).pump)
      ∧ ((∀ y, d.table i = some y → y.applied ≠ st) → Goes (.stepTimeout t n st) s d.pump))
    ∧ (∀ busy, (node s t).now % 1000000 = 0 → (node s t).em.tables = [] →
      Goes (.loadWindowEnd t busy) s ((node s t).setEm fun e => { e with level := min 15 (16 * min 1000000 busy / 1000000) }).pump)
    ∧ (∀ busy i x l, l = min 15 (16 * min 1000000 busy / 1000000) → (node s t).now % 1000000 = 0 → (node s t).em.tables = [(i, x)] → (node s t).mt.on = false →
      Goes (.loadWindowEnd t busy) s ((((((node s t).setEm fun e => { e with level := l }).setRg .EMB_LOAD_ROWS x.served 0 i).setRg
        .EMB_LEVEL_LEVEL l 0 i).updTable i fun x => { x with served := 0, hot := [] }).pump))
    ∧ (∀ n m, Tab.find (node s t).em.migs n = some m → m.state ≤ 1 → m.started + 1000000 ≤ (node s t).now →
      Goes (.migrationTimeout t n) s ((node s t).abortMig n).pump)
    ∧ (∀ n m x d more f hs, d = (node s t).settleComing → Tab.find d.em.migs n = some m → d.table m.table = some x → m.state = 2 →
      m.k ≤ d.curEpoch → (d.bump .EMB_MIGOUT_COUNT 1 0 m.table).takeOpen m.table m.row = (more, f) → hs = m.held ++ more →
      (hs = [] → Goes (.migrationSwitch t n) s ((f.updMig n fun m => { m with state := 3, held := [], unacked := 0 }).endDrains.pump))
      ∧ (hs ≠ [] → Goes (.migrationSwitch t n) s (((f.updMig n fun m => { m with state := 3, held := hs, unacked := 1 }).forwardRow x
        m.dst m.row hs).pump))
      ∧ ((node s t).settleComing = node s t → m.state ≠ 2 → Goes (.migrationSwitch t n) s (node s t).pump))

/-- The pool's leases (R370, Table 15.7): an expired lease ends: its shadow is dropped, its segment is EXPIRED, and blocks that
nothing names any more are freed; an offer not taken within HANDOFF_MS is withdrawn and counted. The aperture (R73,
R379, R380): its slots are set where the POOL block answers; an enabled slot of this node's own segment answers from one
published version; a port without BAR4, and an image without a POOL section, answer nothing (Unsupported Request); a slot
that is not enabled or holds no segment is a counted Unsupported Request; a write is counted. -/
def Obligations.PoolEventsComplete : Prop :=
  ∀ (s : State) (t : Nat), (node s t).coreOn = true →
    (∀ k x e, (node s t).seg k = some x → x.lease = some e → e ≤ (node s t).now →
      Goes (.leaseExpiry t k) s ((((node s t).updSeg k fun y => { y with
        lease := none, shadow := [], dirty := false, expired := true, idle := (node s t).now }).bump .POOL_EXPIRED_COUNT).poolGc).pump)
    ∧ (∀ k x o, (node s t).seg k = some x → x.offer = some o → o.2.2.2 + (node s t).pl.handoffMs * 1000000 ≤ (node s t).now →
      Goes (.offerExpiry t k) s (((node s t).updSeg k fun y => { y with offer := none }).bump .POOL_OFFERTO_COUNT).pump)
    ∧ (∀ i v, i < 64 → (node s t).blockOpen 0x63 0 = true →
        Goes (.apertureSlotSet t i true v) s ((node s t).setRg .POOL_APTKEY_KEY v 0 i)
        ∧ Goes (.apertureSlotSet t i false v) s ((node s t).setRg .POOL_APTCTL_EN (v % 2) 0 i))
    ∧ (∀ i k v, (node s t).blockOpen 0x63 0 = false → Goes (.apertureSlotSet t i k v) s ((node s t).bump .ID_STRAY_COUNT))
    ∧ (∀ p off len x, ((node s t).port p).apt = true → (node s t).pl.on = true → off / 2 ^ 30 < 64 → (node s t).rg .POOL_APTCTL_EN 0 (off / 2 ^ 30) = 1 →
      keyHome ((node s t).rg .POOL_APTKEY_KEY 0 (off / 2 ^ 30)) = (node s t).mt.slot →
      (node s t).seg ((node s t).rg .POOL_APTKEY_KEY 0 (off / 2 ^ 30)) = some x → x.version ≠ 0 → off % 2 ^ 30 + len ≤ x.blocks * 65536 →
      Goes (.apertureRead t p off len) s ((node s t).startSegRead
        { who := .apt p (off % 2 ^ 30) len, desc := [], slot := (node s t).mt.slot, bib := 0
          key := (node s t).rg .POOL_APTKEY_KEY 0 (off / 2 ^ 30) } x (off % 2 ^ 30) len))
    ∧ (∀ p off len, ((node s t).port p).apt = false ∨ (node s t).pl.on = false →
      Goes (.apertureRead t p off len) s ((node s t).emit (.unsupported p))
      ∧ Goes (.apertureWrite t p off len) s ((node s t).emit (.unsupported p)))
    ∧ (∀ p off len, ((node s t).port p).apt = true → (node s t).pl.on = true →
      (64 ≤ off / 2 ^ 30 ∨ (node s t).rg .POOL_APTCTL_EN 0 (off / 2 ^ 30) = 0
        ∨ (node s t).seg ((node s t).rg .POOL_APTKEY_KEY 0 (off / 2 ^ 30)) = none) →
      Goes (.apertureRead t p off len) s (((node s t).bump .POOL_APTUR_COUNT).emit (.unsupported p)))
    ∧ (∀ p off len, ((node s t).port p).apt = true → (node s t).pl.on = true → off < 2 ^ 36 → 0 < len →
      Goes (.apertureWrite t p off len) s ((node s t).bump .POOL_APTUR_COUNT))

/-- The tiers: every 10 ms each tile in DRAM ages (R387); the oldest dirty tile is written back (R389); tiles of the buffer
above FOLD_PCT begin to be copied into native blocks (R414); below its free share a target reclaims a block: what is valid in
it is copied away, and an empty one is erased (R415); dirty map segments are
written (R412); a patrol reads a target through (R420); a free tracker entry lets a stalled unit go on (R32); the end of
a flash read, program or erase brings what waited for it (R416 to R420); a sample of a sled's temperature counts in its
bin (R424). Programs run only above the NV bar (`mayProgram`). -/
def Obligations.TierEventsComplete : Prop :=
  ∀ (s : State) (t : Nat),
    ((node s t).coreOn = true → (node s t).now % 10000000 = 0 → Goes (.tierSweep t) s (node s t).sweepDue.pump)
    ∧ (∀ k, (node s t).coreOn = true → (node s t).oldestDirty = some k → (node s t).mayProgram = true →
      Goes (.dirtyWriteback t k) s (((node s t).program (.writeBack k) (some k) 1 [] false).updTile k fun x => { x with writing := true }).pump)
    ∧ (∀ lim, (node s t).coreOn = true → (node s t).mayProgram = true →
      lim = (node s t).rg .FTL_SLC_CAP_TILES * (node s t).rg .FTL_CFG_FOLD_PCT / 100 → lim < (node s t).bufUsed →
      Goes (.foldStart t) s (((node s t).foldable.take ((node s t).bufUsed - lim
        - ((node s t).copying.filter fun k => ((node s t).tile k).st == 1).length)).foldl
        (fun d k => d.copyTile k (.fold k)) (node s t)).pump)
    ∧ (∀ n x b, (node s t).coreOn = true → Tab.find (node s t).fl.targets n = some x → (node s t).writable n false = true →
      (node s t).rg .FTL_SUPPLY_NVLOW = 0 → 100 * x.freeCount < 2 * x.usable → (node s t).reclaimBlk n x = some b →
      ((node s t).validIn n b = [] → Goes (.reclaimStart t n) s ((node s t).eraseBlock n b true).pump)
      ∧ ((node s t).validIn n b ≠ [] → Goes (.reclaimStart t n) s ((((node s t).validIn n b).filter fun k =>
        !(node s t).copying.contains k && ((node s t).tile k).bad.isEmpty).foldl (fun d k => d.copyTile k (.move k n b)) (node s t)).pump))
    ∧ ((node s t).coreOn = true → (node s t).mayProgram = true → (node s t).fl.dirtySegs ≠ [] →
      3 * (node s t).segBound ≤ 4 * (node s t).dirtyCount →
      Goes (.journalWriteback t) s ((({ node s t with fl := { (node s t).fl with dirtySegs := (node s t).fl.dirtySegs.drop 16 } } : Dev).program
        (.mapSegments ((node s t).fl.dirtySegs.take 16)) none 1 (((node s t).fl.dirtySegs.take 16).flatMap
          ({ node s t with fl := { (node s t).fl with dirtySegs := (node s t).fl.dirtySegs.drop 16 } } : Dev).segBytes) false).pump))
    ∧ (∀ n x, (node s t).coreOn = true → Tab.find (node s t).fl.targets n = some x → (node s t).badOn n = [] →
      (node s t).sledReads (sledOf n) = true → Goes (.patrolRead t n ⟨[], [], 0⟩) s (((({ node s t with fl := { (node s t).fl with
        targets := Tab.upd (node s t).fl.targets n fun y => { y with patrolAt := (node s t).now } } } : Dev).bump .FLC_READS_COUNT 1 (chanOf n)).healthErr (sledOf n) 6 0).pump))
    ∧ (∀ o, (node s t).coreOn = true → (node s t).fl.stalled = [o] → (node s t).trackerFull = false → o.waiters = [] →
      Goes (.trackerEntryFree t) s ({ node s t with fl := { (node s t).fl with stalled := [] } } : Dev).stallEnds.sweepBlocks.kick.pump)
    ∧ (∀ n o x, (node s t).flashOn = true → Tab.find (node s t).fl.ops n = some o → o.kind = 0 → (node s t).readFirst n o = true →
      Goes (.flashReadDone t n x) s ((node s t).flashReadEnd n o x).pump)
    ∧ (∀ n o ok, (node s t).flashOn = true → Tab.find (node s t).fl.ops n = some o → o.kind = 1 → (node s t).suspended o = false →
      Goes (.flashProgramDone t n ok) s ((node s t).writeDone n o ok).pump)
    ∧ (∀ n o ok, (node s t).flashOn = true → Tab.find (node s t).fl.ops n = some o → o.kind = 2 → (node s t).suspended o = false →
      ((node s t).eraseEnd n o ok).coreOn = true → Goes (.flashEraseDone t n ok) s ((node s t).eraseEnd n o ok).kick.pump)
    ∧ (∀ n c, (node s t).flashOn = true → Goes (.flashTempSample t n c) s (((node s t).setRg .SLED_TEMP_CELSIUS (unsigned 8 c) n).updHealth n
        fun h => { h with temp := updAt h.temp (min 15 (tempBin c)) fun v => min 4294967295 (v + 1) }))

/-! ## The Referee, teardown, contexts, DMA -/

/-- An error that a unit reports is recorded (R500 to R502), and an uncorrectable one ends what used the word. A vector held
back for 10 µs is sent (R512). A record whose grace has run out escalates as Table 20.5 gives (R507). -/
def Obligations.RefereeEventsComplete : Prop :=
  ∀ (s : State) (t : Nat), (node s t).mgmtOn = true →
    (∀ (e : ErrReport) (d : Dev), d = (match eccCounter e.source e.utype e.onDie with
        | some f => (node s t).bump f 1 e.uinst
        | none => node s t) →
      (e.source ≠ SRC_DATA_UNCORR →
        Goes (.errorReport t e) s (d.report e.source e.utype e.uinst e.bib e.addr e.access).pump)
      ∧ (e.source = SRC_DATA_UNCORR →
        Goes (.errorReport t e) s ((d.report e.source e.utype e.uinst e.bib e.addr e.access).errorEnds e).pump))
    ∧ (∀ u, (node s t).notifiedAt = some u → u + 10000 ≤ (node s t).now → (node s t).notifyHeld = true →
      Goes (.notifyHoldoffEnd t) s (node s t).refVector)
    ∧ (∀ n x, Tab.find (node s t).recs n = some x → x.state = 1 → x.since + (node s t).rg .REF_CFG_GRACE_US * 1000 ≤ (node s t).now →
      (∀ b, x.bib = some b → x.cls = 1 → ((node s t).bib b).state ≠ 4 → x.resetDone = false → Goes (.graceExpiry t n) s
        (((escalated (node s t) n { x with cls := 2 }).bibFatal b).notify 2).pump)
      ∧ (∀ b, x.bib = some b → x.cls = 2 → ((node s t).bib b).state ≠ 4 → x.resetDone = false → Goes (.graceExpiry t n) s
        ((escalated (node s t) n { x with resetDone := true }).bibEvent b .expiry none).pump)
      ∧ (x.bib = none → x.cls = 1 → Goes (.graceExpiry t n) s
        (((escalated (node s t) n { x with cls := 3 }).fenceUnit x.utype x.uinst).notify 3).pump)
      ∧ (x.bib = none → x.cls = 3 → Goes (.graceExpiry t n) s
        (((escalated (node s t) n { x with cls := 4 }).fenceNode).notify 4).pump))

/-- R124 to R126: when 2 ms of grace end, what a bib in RESETTING still runs completes with ST_FENCED; when nothing of it is
left, or 12 ms have passed and the units that hold it are fenced, the teardown ends. -/
def Obligations.TeardownEventsComplete : Prop :=
  ∀ (s : State) (t b : Nat), (node s t).coreOn = true → ((node s t).bib b).state = 4 →
    (((node s t).bib b).tdGrace = true → ((node s t).bib b).tdStart + 2000000 ≤ (node s t).now →
      Goes (.teardownGraceEnd t b) s ((((node s t).updBib b fun x => { x with tdGrace := false }).endAll
        (fun q => q.bib == some b && !q.waiting && !q.joined) ST_FENCED).pump))
    ∧ ((node s t).retired b = true → Goes (.teardownEnd t b) s ((node s t).tearDown b).pump)
    ∧ (((node s t).bib b).tdStart + 12000000 ≤ (node s t).now → Goes (.teardownStuck t b) s ((node s t).tearStuck b).pump)

/-- A context is free when its request has ended and its entry and frames are gone (R33). A DMA read request that ends well puts
its bytes in their place of the buffer; one that fails is recorded as CW_DMA and fails its request; with the last read request of
a buffer its request takes the buffer (R160). -/
def Obligations.ContextsAndReadsComplete : Prop :=
  ∀ (s : State) (t : Nat), (node s t).coreOn = true → (node s t).mgmtOn = true →
    (∀ r q, Tab.find (node s t).reqs r = some q → q.ended = true → (node s t).outstanding r = false →
      Goes (.contextFree t r) s ({ node s t with reqs := Tab.del (node s t).reqs r } : Dev).pump)
    ∧ (∀ n m b, Tab.find (node s t).dmas n = some m → m.sent = true →
      ∀ e : Dev, e = { node s t with
        dmas := Tab.del (node s t).dmas n
        bufs := Tab.upd (node s t).bufs m.buf fun y => Tab.ins y m.off (fit m.len b) } →
      ((e.dmas.any fun p => p.2.buf == m.buf) = true → Goes (.dmaReadDone t n (.data b)) s e.pump)
      ∧ (∀ q, (e.dmas.any fun p => p.2.buf == m.buf) = false → Tab.find e.reqs m.req = some q → q.live = true →
        Goes (.dmaReadDone t n (.data b)) s
          ((({ e with bufs := Tab.del e.bufs m.buf } : Dev).updReq m.req fun q => { q with dmas := q.dmas - 1 }).reqData m.req
            { q with dmas := q.dmas - 1 } m.slot (Tab.vals ((Tab.find e.bufs m.buf).getD [])).flatten).pump))
    ∧ (∀ n m res st, Tab.find (node s t).dmas n = some m → m.sent = true → dmaStatus res = some st →
      ∀ e : Dev, e = (({ node s t with dmas := Tab.del (node s t).dmas n } : Dev).reportDma m).addFail m.req st →
      ((e.dmas.any fun p => p.2.buf == m.buf) = true → Goes (.dmaReadDone t n res) s e.pump)
      ∧ ((e.dmas.any fun p => p.2.buf == m.buf) = false →
        ∀ f : Dev, f = ({ e with bufs := Tab.del e.bufs m.buf } : Dev).updReq m.req (fun q => { q with dmas := q.dmas - 1 }) →
        (Tab.find f.reqs m.req = none → Goes (.dmaReadDone t n res) s f.pump)
        ∧ (∀ q, Tab.find f.reqs m.req = some q → q.live = false → Goes (.dmaReadDone t n res) s f.pump)
        ∧ (∀ q, Tab.find f.reqs m.req = some q → q.live = true → Goes (.dmaReadDone t n res) s
          (f.reqData m.req q m.slot (Tab.vals ((Tab.find e.bufs m.buf).getD [])).flatten).pump)))

/-! ## The loader, contract changes -/

/-- R62 to R67: a load's checks end in STORING, DRAINING or APPLYING, or refuse it; the admission check has 200 ms (R63); a
stored image goes on (R64, R65); the drain ends when nothing runs or 2 ms have passed, with ST_FENCED for what is left (R66); the image
is applied, the loader is ACTIVE, a node in READY goes to ACTIVE, and the load's request completes (R67). -/
def Obligations.LoaderEventsComplete : Prop :=
  ∀ (s : State) (t : Nat), (node s t).coreOn = true →
    ((node s t).loader = 1 → (node s t).ld.ready = true →
      (∀ img, img = (node s t).ld.image → Goes (.loaderChecksDone t) s
        (match pickImageFail ((node s t).imageFails img), ((node s t).imageEnv img).fails with
          | some f, _ => (node s t).loadFails f.status 0 (some ((node s t).failPosition f))
          | none, [] => (node s t).loadPasses ((node s t).imageEnv img).bounds999 ((node s t).imageEnv img).tf
          | none, f :: r => ((node s t).sendReport (node s t).ld.req (refusalReport f (r.length + 1))).loadFails
              ST_REFUSED_DEADLINE 0 (some (admPosition img f))).pump)
      ∧ ((node s t).ld.since + 200000000 ≤ (node s t).now → Goes (.admissionTimeout t) s
        (if (node s t).imageFails (node s t).ld.image = [] then (node s t).loadFails ST_TIMEOUT 0
          (some ((((imageSection (node s t).ld.image 6).map (·.1)).getD 0xFF), noEntry)) else node s t).pump))
    ∧ (∀ img, (node s t).mgmtOn = true → (node s t).loader = 2 → (node s t).ld.nor = some img →
        Goes (.storeEnd t) s ((((node s t).norStore norCi img).setLd fun x => { x with nor := none }).drainOrApply).pump)
    ∧ ((node s t).loader = 3 → (node s t).draining = false ∨ (node s t).ld.since + 2000000 ≤ (node s t).now →
        Goes (.drainEnd t) s ((((((node s t).reqs.filter fun p => !p.2.ended && (node s t).ld.req != some p.1).foldl
          (fun d p => d.endReq p.1 ST_FENCED) (node s t)).stopWork.expireBib none).setLd fun x => { x with changes := [] }).setRg .CI_STATE_STATE 4).pump)
    ∧ ((node s t).loader = 4 → ∀ (d e : Dev) (status : Nat), d = (node s t).applyImage (node s t).ld.image (node s t).ld.bounds →
        status = (if d.nodeFenced then ST_FENCED else ST_OK) → e = (d.setRg .CI_STATE_STATE 5).setRg .CI_STATE_LAST_STATUS status →
        ∀ f : Dev, f = (if e.power = 3 then e.setRg .PWR_STATE_STATE 4 else e).setLd (fun x =>
          { x with busy := false, req := none, image := [], ready := false, tf := x.boundTf }) →
        (d.ld.req = none → Goes (.applyingEnd t) s f.pump)
        ∧ (∀ r, d.ld.req = some r → Goes (.applyingEnd t) s (f.complete r status 0).pump))

/-- R108, R109: the check of a contract change ends in the new contracts, with ST_OK, or refuses it with its report; it has
20 ms. -/
def Obligations.ContractChangesComplete : Prop :=
  ∀ (s : State) (t r : Nat) (buf : Bytes) (rest : List (Nat × Option Bytes)), (node s t).coreOn = true →
    (node s t).ld.changes = (r, some buf) :: rest →
    ((node s t).ld.changeAt + 20000000 ≤ (node s t).now →
      Goes (.contractCheckTimeout t) s (((node s t).complete r ST_TIMEOUT 0).popChange).pump)
    ∧ (∀ q f fs, Tab.find (node s t).reqs r = some q → q.ended = false →
      (((node s t).changed (u8 q.desc 0x12) buf).liveEnv).changeFails (u16 q.desc 0x10)
        ((changeEntries (u8 q.desc 0x12) buf).map fun x => u8 x 2) = f :: fs →
      Goes (.contractCheckDone t) s ((((node s t).sendReport (some r) (refusalReport f (fs.length + 1))).complete r
        ST_REFUSED_DEADLINE 0).popChange).pump)
    ∧ (∀ q (v : AdmEnv) (d : Dev), Tab.find (node s t).reqs r = some q → q.ended = false →
      d = (node s t).changed (u8 q.desc 0x12) buf → v = d.liveEnv →
      v.changeFails (u16 q.desc 0x10) ((changeEntries (u8 q.desc 0x12) buf).map fun x => u8 x 2) = [] →
      ∀ e : Dev, e = ({ d with
          contracts := Tab.mapV d.contracts fun k c =>
            if v.partOf c.bib = v.partOf (u16 q.desc 0x10) then
              { c with bound := (((List.zip (v.contracts.map (·.1)) v.bounds999).find? fun p => p.1 == k).map (·.2)).getD c.bound }
            else c } : Dev) →
      Goes (.contractCheckDone t) s ((((((e.clearCounters
        ((((node s t).contracts.filter fun p => p.2.bib == u16 q.desc 0x10).map (·.1))
          ++ ((e.contracts.filter fun p => p.2.bib == u16 q.desc 0x10).map (·.1)))).bump .CONTR_CHANGES_COUNT).measureChange q).complete
            r ST_OK 0).popChange).pump))
    ∧ (Tab.find (node s t).reqs r = none → Goes (.contractCheckDone t) s ((node s t).popChange).pump)

/-! ## Power, reset, boot -/

/-- R537, Table 22.6: the sources of a node reset: each resets the node with its own cause (`NodeResetEffect` says to what). -/
def Obligations.ResetSourcesComplete : Prop :=
  ∀ (s : State) (t : Nat),
    Goes (.resetPin t) s ((node s t).nodeReset CAUSE_PIN)
    ∧ Goes (.pwrOkFall t) s ((node s t).nodeReset CAUSE_POWER)
    ∧ (∀ p v, (node s t).portsOn = true →
      ((node s t).blockOpen 5 0 = true → v % 65536 = 0x5AA5 → Goes (.softReset t p v) s ((node s t).nodeReset CAUSE_SOFT))
      ∧ ((node s t).blockOpen 5 0 = true → v % 65536 ≠ 0x5AA5 → Goes (.softReset t p v) s (node s t))
      ∧ ((node s t).blockOpen 5 0 = false → Goes (.softReset t p v) s ((node s t).bump .ID_STRAY_COUNT)))
    ∧ ((node s t).mgmtOn = true → Goes (.controlWdog t) s ((node s t).nodeReset CAUSE_WDOG)
      ∧ Goes (.nodeReset t 0x5A 0xA5) s ((node s t).nodeReset CAUSE_BMC)
      ∧ (∀ a b, ¬(a = 0x5A ∧ b = 0xA5) → Goes (.nodeReset t a b) s ((node s t).emit (.mctp []))))
    ∧ ((node s t).power ≠ 0 → Goes (.thermalTrip t) s ((node s t).nodeReset CAUSE_THERM))
    ∧ (∀ m, (node s t).power = 6 → ((node s t).rg .FTL_VTHR_NVBAR + 2) * 10 ≤ m →
      Goes (.resumeReset t m) s ((node s t).nodeReset CAUSE_RESUME))

/-- R537, R538: what a node reset leaves, unless a thermal trip or OFF holds it: RESET, or OFF where power fell; the cause
recorded; every request, read, queue, Referee record and fence gone, the lower cause where two sources share a MGMT cycle; the fuses, the ROM and the NOR device as they were,
but for a NOR write that the reset cuts short. -/
def Obligations.NodeResetEffect : Prop :=
  ∀ (d : Dev) (cause : Nat), d.thermTrip = false → d.power ≠ 0 → cause < 16 →
    let e := d.nodeReset cause
    let seen := if d.power = 1 ∧ d.now < 2 then min (d.rg .PWR_RSTCAUSE_CAUSE) cause else cause
    e.power = (if cause = CAUSE_POWER then 0 else 1) ∧ e.rg .PWR_RSTCAUSE_CAUSE = seen ∧ e.rg .BOOT_STAT_CAUSE = seen
      ∧ e.reqs = [] ∧ e.dmas = [] ∧ e.queues = [] ∧ e.recs = [] ∧ e.fenced = [] ∧ e.notifyHeld = false
      ∧ e.rg .REF_PEND_PEND = 0 ∧ e.rg .PANEL_CFG_ID = 0 ∧ e.errN = false
      ∧ e.fuses = d.fuses ∧ e.rom = d.rom ∧ e.out = d.out
      ∧ (d.ld.nor = none → d.rcv = none → e.nor = d.nor)

/-- What a node in each state can count on, event by event. REF_PEND_CLEAR clears the pending bit where the same cycle does not
set it (R512); IDENTIFY_WRITE sets identify, which ID_LED shows (R518). Each source of Table 22.6 takes a node that runs to
RESET, or to OFF, with its own cause, and ends every request (R537). PASS_GRANT forms a pass for the run at the head of its
partition's queue, with the tiles of the program, none fenced or in use (R293); WEIGHT_TILE_ARRIVAL brings the tile into a
place of the pass's pages, and the layer may start (R299); LAYER_END ends the pass with its last layer, and goes on to the
next otherwise; TILE_WDOG fences a tile that hangs and stops its pass (R308); PROG_CHECK_TIMEOUT ends a PROG_LOAD (R291).
STEP_TIMEOUT closes the next step of a table, here one without changes (R349); MIGRATION_TIMEOUT abandons a move that is not
answered, MIGRATION_SWITCH hands a row over (Table 14.7), LOAD_WINDOW_END takes the node's load (R354). -/
def Obligations.EventsHaveTheirOwnEffect : Prop :=
  ∀ (s : State) (t : Nat),
    (∀ v, (node s t).portsOn = true → (node s t).blockOpen 3 0 = true → bit v 0 = true →
      ∃ e, Goes (.refPendClear t v false) s e ∧ e.rg .REF_PEND_PEND = 0 ∧ e = { node s t with regs := e.regs })
    ∧ (∀ v, (node s t).portsOn = true → (node s t).blockOpen 0x65 0 = true →
      ∃ e, Goes (.identifyWrite t v) s e ∧ e.rg .PANEL_CFG_ID = bits v 8 8 ∧ e = { node s t with regs := e.regs })
    ∧ (∀ p v, (node s t).portsOn = true → (node s t).blockOpen 5 0 = true → v % 65536 = 0x5AA5 → (node s t).thermTrip = false →
      ∃ e, Goes (.softReset t p v) s e ∧ e.power = 1 ∧ e.rg .PWR_RSTCAUSE_CAUSE = 2 ∧ e.reqs = [])
    ∧ ((node s t).power ≠ 0 → (node s t).thermTrip = false →
      (∃ e, Goes (.resetPin t) s e ∧ e.power = 1 ∧ e.rg .PWR_RSTCAUSE_CAUSE = (node s t).causeOf 1 ∧ e.reqs = [])
      ∧ (∃ e, Goes (.thermalTrip t) s e ∧ e.power = 1 ∧ e.rg .PWR_RSTCAUSE_CAUSE = (node s t).causeOf CAUSE_THERM ∧ e.reqs = [] ∧ e.thermTrip = true))
    ∧ (∃ e, Goes (.pwrOkFall t) s e ∧ e.power = 0 ∧ e.rg .PWR_RSTCAUSE_CAUSE = 0 ∧ e.reqs = [])
    ∧ ((node s t).mgmtOn = true → (node s t).thermTrip = false →
      (∃ e, Goes (.controlWdog t) s e ∧ e.power = 1 ∧ e.rg .PWR_RSTCAUSE_CAUSE = 4 ∧ e.reqs = [])
      ∧ (∃ e, Goes (.nodeReset t 0x5A 0xA5) s e ∧ e.power = 1 ∧ e.rg .PWR_RSTCAUSE_CAUSE = 3 ∧ e.reqs = []))
    ∧ (∀ m, (node s t).power = 6 → (node s t).thermTrip = false → ((node s t).rg .FTL_VTHR_NVBAR + 2) * 10 ≤ m →
      ∃ e, Goes (.resumeReset t m) s e ∧ e.power = 1 ∧ e.rg .PWR_RSTCAUSE_CAUSE = CAUSE_RESUME ∧ e.reqs = [])
    ∧ ((node s t).coreOn = true → settled s t = node s t →
      (∀ part w rest g, Tab.get [] (node s t).inf.queue part = w :: rest → (node s t).prog part w.slot = some g →
        (node s t).passReady w = true → ((Tab.vals (node s t).inf.passes).any fun x => x.reqs.any fun q => q.r == w.r) = false →
        g.tiles ≤ (((node s t).unfenced part).filter fun k => !(node s t).tileBusy k).length →
        (node s t).pagesHeld part + g.pages ≤ (node s t).pageShare part →
        ∃ (n : Nat) (p : Pass) (d : Dev), Goes (.passGrant t part) s
            (((List.range (min g.window g.layers.length)).foldl (fun d l => d.askLayer n l) d).tryLayer n).pump
          ∧ d.pass n = some p ∧ p.part = part ∧ p.slot = w.slot ∧ p.bib = w.bib ∧ p.granted = (node s t).now
          ∧ p.tiles.length = g.tiles ∧ (∀ k ∈ p.tiles, k ∈ (node s t).unfenced part ∧ (node s t).tileBusy k = false)
          ∧ (p.reqs.head?.map fun q => (q.r, q.first, q.rows)) = some (w.r, w.next, min w.left g.rowmax))
      ∧ (∀ n p l i w, (node s t).pass n = some p → (p.weights.find? fun w => w.layer == l && w.tile == i) = some w →
        w.state = 2 ∨ (w.state = 0 ∧ (p.weights.find? fun w => w.state == 0) = some w) →
        ∃ (d : Dev) (q : Pass), Goes (.weightTileArrival t n l i) s (d.tryLayer n).pump ∧ d.pass n = some q ∧ q.tiles = p.tiles
          ∧ ∃ x, (q.weights.find? fun w => w.layer == l && w.tile == i) = some x ∧ x.state = 3 ∧ x.place = p.freePlace (node s t).draws)
      ∧ (∀ n p g y, (node s t).pass n = some p → p.started = true → (node s t).prog p.part p.slot = some g →
        g.layers[p.layer]? = some y →
        (g.layers.length = p.layer + 1 → Goes (.layerEnd t n) s (((node s t).runLayer n p g p.layer y).endPass n).pump)
        ∧ (p.layer + 1 < g.layers.length → ∃ d : Dev, Goes (.layerEnd t n) s ((d.askLayer n (p.layer + g.window)).tryLayer n).pump
          ∧ ∀ q, ((node s t).runLayer n p g p.layer y).pass n = some q →
            (d.pass n).map (fun x => (x.layer, x.started)) = some (q.layer + 1, false)))
      ∧ (∀ k n p, (node s t).inf.passes.find? (fun p => p.2.tiles.contains k) = some (n, p) → p.started = true →
        p.since + (node s t).rg .IGRP_CFG_WDOG (k / 8) * 1000 ≤ (node s t).now →
        ∃ d : Dev, Goes (.tileWdog t k) s (d.stopPass n ST_INTERNAL).pump ∧ (0x11, k) ∈ d.fenced)
      ∧ (∀ r q, Tab.find (node s t).reqs r = some q → q.live = true → u8 q.desc 0 = 0x20 → q.admitted + 20000000 ≤ (node s t).now →
        Goes (.progCheckTimeout t r) s ((node s t).complete r ST_TIMEOUT).pump))
    ∧ ((node s t).coreOn = true →
      (∀ n st i x b, (node s t).tableIdx n = some i → (node s t).table i = some x → x.steps = [b] → b.step = st →
        st = (x.applied + 1) % 2 ^ 32 → b.state = 0 → b.changes = [] → b.ends = [] → b.late = none →
        b.firstAt + (node s t).em.stepTo * 1000 ≤ (node s t).now →
        Goes (.stepTimeout t n st) s (((node s t).bump .EMB_TOSTEP_COUNT 1 0 i).updTable i fun x =>
          { x with applied := st, steps := [] }).pump)
      ∧ (∀ n m x, Tab.find (node s t).em.migs n = some m → (node s t).table m.table = some x → m.state ≤ 1 →
        m.started + 1000000 ≤ (node s t).now →
        Goes (.migrationTimeout t n) s ((((((node s t).setEm fun e => { e with migs := Tab.del e.migs n }).bump
          .EMB_ABORTED_COUNT).bump .EMB_STARTED_COUNT (ofBool (m.state = 0))).embSend m.dst (tableDesc x.num 0) 0 0 7 0 0 0
            (le 8 m.row ++ le 8 m.dst)).pump))
      ∧ (∀ n m x, (node s t).settleComing = node s t → Tab.find (node s t).em.migs n = some m → (node s t).table m.table = some x →
        m.state = 2 → m.k ≤ (node s t).curEpoch → m.held = [] → x.steps = [] →
        ∃ d : Dev, Goes (.migrationSwitch t n) s d.endDrains.pump ∧ (Tab.find d.em.migs n).map (·.state) = some 3
          ∧ d.rg .EMB_MIGOUT_COUNT 0 m.table = min (Fld.EMB_MIGOUT_COUNT.top - 1) ((node s t).rg .EMB_MIGOUT_COUNT 0 m.table + 1))
      ∧ (∀ busy, (node s t).now % 1000000 = 0 → (node s t).em.tables = [] →
        Goes (.loadWindowEnd t busy) s ((node s t).setEm fun e => { e with level := min 15 (16 * min 1000000 busy / 1000000) }).pump))

/-- R531, R541 to R545: power coming back ends OFF; the release of reset starts the boot, or holds a node in test or under
the TAP in RESET; discovery of a sled ends, and a sled found at boot leaves its place in the boot; a step that overruns
ends as its row says; a NOR write of a recovery load ends. -/
def Obligations.BootEventsComplete : Prop :=
  ∀ (s : State) (t : Nat),
    ((node s t).power = 0 → Goes (.pwrOkRise t) s ((node s t).setRg .PWR_STATE_STATE 1))
    ∧ (∀ st, (node s t).inReset = true →
      (st.testEn = true ∨ (node s t).jtagHold = true ∨ (node s t).thermTrip = true →
        Goes (.resetRelease t st) s ((node s t).setRg .PWR_STATE_STATE 1).pump)
      ∧ (st.testEn = false → (node s t).jtagHold = false → (node s t).thermTrip = false → 2 ≤ st.bootMode →
        (((node s t).bootStep1 st true).bootStep2).2 = true →
        Goes (.resetRelease t st) s (((((node s t).bootStep1 st true).bootStep2).1.setRg .BOOT_STAT_PHASE 8).pump))
      ∧ (st.testEn = false → (node s t).jtagHold = false → (node s t).thermTrip = false → st.bootMode < 2 →
        (((node s t).bootStep1 st false).bootStep2).2 = true →
        ∀ d : Dev, d = (((node s t).bootStep1 st false).bootStep2).1.setRg .BOOT_STAT_PHASE 2 → d.fwError d.norFirmware = 0 →
          d.rg .BOOT_STAT_WDOGS < 3 → Goes (.resetRelease t st) s (d.firmwareRuns d.norFirmware).pump))
    ∧ (∀ n info, (node s t).coreOn = true → n ≤ 3 → (node s t).sledState n = 1 → ((node s t).discovered n info).seqOf n ≠ 7 →
      Goes (.sledDiscoveryEnd t n info) s ((node s t).discovered n info).pump)
    ∧ (∀ n info, (node s t).coreOn = true → n ≤ 3 → (node s t).sledState n = 1 → ((node s t).discovered n info).seqOf n = 7 →
      Goes (.sledDiscoveryEnd t n info) s (((node s t).discovered n info).setSeq n 0).pump)
    ∧ ((node s t).power = 2 →
      ((node s t).rg .BOOT_STAT_PHASE = 4 → Goes (.bootStepOverrun t) s ((((node s t).undiscovered.foldl
        (fun d n => (d.setRg .SLED_STAT_STATE 5 n).setSeq n 0) (node s t)).bootStep7).pump))
      ∧ ((node s t).rg .BOOT_STAT_PHASE = 5 → Goes (.bootStepOverrun t) s ((node s t).nodeReset CAUSE_WDOG).pump)
      ∧ ((node s t).rg .BOOT_STAT_PHASE = 6 → (node s t).ld.busy = true →
        Goes (.bootStepOverrun t) s ((node s t).loadFails ST_TIMEOUT 0 none).pump))
    ∧ (∀ v, (node s t).power = 7 → (node s t).rg .BOOT_STAT_PHASE = 8 → bit v 0 = true → (node s t).rg .RCV_LEN_BYTES ≠ 0 →
      ∀ (d : Dev) (x : Recovery), d = ((node s t).setRg .BOOT_STAT_PHASE 9).setRg .RCV_STAT_STATE 1 →
      x = { dma := d.ids, addr := d.rg .RCV_ADDR_ADDR * 64, len := d.rg .RCV_LEN_BYTES, store := bit v 1 } →
      Goes (.recoveryLoad t 0 v) s ((({ d with ids := d.ids + 1, rcv := some x } : Dev).emit
        (.dmaRead (.pcie 0 0) x.dma x.addr x.len)).pump))
    ∧ (∀ x, (node s t).mgmtOn = true → (node s t).rcv = some x → x.writing = true → (node s t).power ≠ 7 →
      Goes (.recoveryWriteDone t true) s
        ({ (node s t).norStore norFw x.image with rcv := some { x with writing := false } } : Dev).pump)
    ∧ ((node s t).mgmtOn = true → Goes (.timeClockReturn t) s (((node s t).setRg .PWR_CLK_TIMEBK 0).setRg .PWR_CLK_ETH
      (3 * (node s t).rg .PWR_CLK_CORE)))

/-- R425, R427, R532: falling below the NV bar raises NVLOW and counts once; rising two points above it lets waiting
programs start; below the hold floor HOLDLOW rises, and it falls again above it; a loss takes a node that runs into its
flush, and one in recovery to HALT; at the end of the flush the node halts. -/
def Obligations.SupplyEventsComplete : Prop :=
  ∀ (s : State) (t m : Nat), (node s t).mgmtOn = true →
    (m < (node s t).rg .FTL_VTHR_NVBAR * 10 → (node s t).rg .FTL_SUPPLY_NVLOW = 0 →
      ∀ d : Dev, d = (((node s t).setRg .PWR_SENSE_MAIN m).setRg .FTL_SUPPLY_NVLOW 1).bump .FTL_NVENTRY_COUNT →
      (d.coreOn = true → Goes (.nvBarEntry t m) s d.unspill.kick.pump) ∧ (d.coreOn = false → Goes (.nvBarEntry t m) s d.pump))
    ∧ (((node s t).rg .FTL_VTHR_NVBAR + 2) * 10 ≤ m → (node s t).rg .FTL_SUPPLY_NVLOW = 1 →
      Goes (.nvBarExit t m) s ((((node s t).setRg .PWR_SENSE_MAIN m).setRg .FTL_SUPPLY_NVLOW 0).kick).panelStep)
    ∧ ((node s t).rg .FTL_VTHR_FLOOR * 10 ≤ m →
      Goes (.holdFloorRecovered t m) s (((node s t).setRg .PWR_SENSE_HOLD m).setRg .FTL_SUPPLY_HOLDLOW 0))
    ∧ (m < (node s t).rg .FTL_VTHR_FLOOR * 10 → (node s t).fl.flushes = none →
      Goes (.holdFloorReached t m) s (((node s t).setRg .PWR_SENSE_HOLD m).setRg .FTL_SUPPLY_HOLDLOW 1))
    ∧ ((node s t).power = 3 ∨ (node s t).power = 4 →
      Goes (.flushEntry t 1 m) s (((node s t).setRg .PWR_SENSE_MAIN m).dropPasses.beginFlush 1).pump)
    ∧ ((node s t).power = 7 → Goes (.flushEntry t 1 m) s (((node s t).setRg .PWR_SENSE_MAIN m).lossHalt).pump)
    ∧ (∀ x, (node s t).power = 5 → (node s t).fl.flushes = some x → x.endWhole = true →
      ((node s t).fl.ops.filter fun p => p.2.why == some .endRecord) = [] → (node s t).flushBusy = false → x.step = 6 →
      Goes (.flushEnd t) s (node s t).halt)
    ∧ (∀ x, (node s t).power = 5 → (node s t).fl.flushes = some x → x.floor = true → (node s t).fl.ops = [] →
      Goes (.flushEnd t) s (node s t).halt)

/-! ## The service panel, the management port, JTAG, measurement -/

/-- The panel (R516 to R524): a removal request, a cancel in the abort window, a short press (of a slot that is not locked)
and a long press, a sled pushed in or pulled out, the end of the abort window, the end of the 100 ms after power off. -/
def Obligations.PanelEventsComplete : Prop :=
  ∀ (s : State) (t : Nat),
    ((node s t).portsOn = true → (node s t).blockOpen 0x65 0 = true →
      (∀ m, Goes (.panelRemove t m) s ((maskSlots m).foldl Dev.removeRequest (node s t)).panelStep)
      ∧ (∀ m, (∀ n ∈ maskSlots m, (node s t).inWindow n = false) → Goes (.panelCancel t m) s (node s t)))
    ∧ (∀ m, (node s t).portsOn = true → (node s t).blockOpen 0x65 0 = false →
      Goes (.panelRemove t m) s ((node s t).bump .ID_STRAY_COUNT) ∧ Goes (.panelCancel t m) s ((node s t).bump .ID_STRAY_COUNT))
    ∧ (∀ m n, (node s t).portsOn = true → (node s t).blockOpen 0x65 0 = true → maskSlots m = [n] → (node s t).inWindow n = true →
      Goes (.panelCancel t m) s (((node s t).setSeq n 0).bump .PANEL_CANCELS_COUNT 1 0 n))
    ∧ (∀ n, (node s t).mgmtOn = true → n ≤ 3 →
      ∀ d : Dev, d = (node s t).setRg .PANEL_PRESS_TIME (node s t).now 0 n →
        (bit (d.rg .PANEL_CFG_LOCK) n = true → Goes (.attnButtonPress t n) s (d.bump .PANEL_IGNORED_COUNT 1 0 n))
        ∧ (bit (d.rg .PANEL_CFG_LOCK) n = false → Goes (.attnButtonPress t n) s (d.press n).panelStep))
    ∧ (∀ n, (node s t).mgmtOn = true → n ≤ 3 →
      Goes (.attnLongPress t n) s ((node s t).setRg .PANEL_CFG_ID (1 - (node s t).rg .PANEL_CFG_ID)))
    ∧ (∀ n, (node s t).mgmtOn = true → n ≤ 3 → (node s t).powered n = false → (node s t).mayPower n = true →
      Goes (.sledInsertion t n) s (((node s t).setRg .PANEL_SLED_PRSNT 1 0 n).powerOn n))
    ∧ (∀ n, (node s t).mgmtOn = true → n ≤ 3 → (node s t).sledPresent n = true →
      ((node s t).seqOf n ≠ 5 → Goes (.sledRemoval t n) s ((((node s t).setRg .PANEL_SLED_PRSNT 0 0 n).surprise n).panelStep))
      ∧ ((node s t).seqOf n = 5 → Goes (.sledRemoval t n) s
        (((((node s t).setRg .PANEL_SLED_PRSNT 0 0 n).setSeq n 0).updSlot n fun _ => {}).setRg .SLED_STAT_STATE 0 n).panelStep))
    ∧ (∀ n, (node s t).coreOn = true → n ≤ 3 → (node s t).seqOf n = 1 → ((node s t).slot n).stopped = false →
      ((node s t).slot n).tp + abortWindow ≤ (node s t).now →
      ∀ d : Dev, d = (((node s t).setRg .SLED_STAT_STATE 4 n).setSeq n 2).rebound →
        Goes (.abortWindowEnd t n) s (({ d with ix := { d.ix with
          heats := Tab.mapV d.ix.heats fun _ h => { h with state := 3 } } } : Dev).panelStep))
    ∧ (∀ n u, (node s t).coreOn = true → ((node s t).slot n).offAt = some u → u + powerOffTime ≤ (node s t).now → (node s t).sledPresent n = true →
      Goes (.sledPowerOffDone t n) s (((node s t).setSeq n 5).updSlot n fun x => { x with offAt := none }))

/-- R551, Table 22.15: each command of the management port answers, and only Set Endpoint ID, GET_POWER and SET_IDENTIFY
change a register. -/
def Obligations.ManagementPortAnswers : Prop :=
  ∀ (s : State) (t : Nat), (node s t).mgmtOn = true →
    (∀ e, 1 ≤ e → e ≤ 254 → Goes (.mctpSetEndpointId t e) s
      (({ node s t with mctpEid := e } : Dev).emit (.mctp (Config.mctpReply 1 ++ le 1 e))))
    ∧ Goes (.mctpGetEndpointId t) s ((node s t).emit (.mctp (Config.mctpReply 2 ++ le 1 (node s t).mctpEid)))
    ∧ Goes (.mctpGetVersionSupport t) s ((node s t).emit (.mctp (Config.mctpReply 4)))
    ∧ Goes (.mctpGetMessageType t) s ((node s t).emit (.mctp (Config.mctpReply 5 ++ le 1 0x7E)))
    ∧ Goes (.mctpGetVdmSupport t) s ((node s t).emit (.mctp (Config.mctpReply 6)))
    ∧ Goes (.getStatus t) s ((node s t).emit (.mctp ((node s t).regBytes 0x102 0x1800 8 ++ (node s t).regBytes 5 0 4
      ++ (node s t).regBytes 3 4 4 ++ (node s t).regBytes 0x42 Fld.FTL_SUPPLY_FLUSH.info.off 4 ++ (node s t).regBytes 5 0x20 4)))
    ∧ (∀ x : PowerSample, ∀ d : Dev,
      d = (((node s t).setRg .PWR_POWER_WATTS x.watts).setRg .PWR_SENSE_MAIN x.main).setRg .PWR_SENSE_HOLD x.hold →
      Goes (.getPower t x) s (d.emit (.mctp (d.regBytes 5 0x1C 4 ++ d.regBytes 5 0x10 8))))
    ∧ (∀ log sled off, Goes (.readLog t log sled off) s ((node s t).emit (.mctp ((node s t).mctpLog log sled off))))
    ∧ (∀ v, Goes (.setIdentify t v) s (((node s t).setRg .PANEL_CFG_ID (ofBool v)).emit (.mctp [])))

/-- R550, R537: EXTEST, CLAMP and HIGHZ hold the node in reset with cause JTAG; BYPASS and SAMPLE/PRELOAD only select a
register, IDCODE shifts out the identification code with the stepping; Test-Logic-Reset selects IDCODE and releases the
hold. -/
def Obligations.JtagCommandsComplete : Prop :=
  ∀ (s : State) (t : Nat),
    exec (.jtagBypass t) s = .next { s with dev := { node s t with jtagInstr := 1 } }
    ∧ exec (.jtagSamplePreload t) s = .next { s with dev := { node s t with jtagInstr := 2 } }
    ∧ exec (.tapReset t) s = .next { s with dev := { node s t with jtagInstr := 0, jtagHold := false } }
    ∧ exec (.jtagIdcode t) s = .next { s with dev := { node s t with
        jtagInstr := 0, out := (node s t).out ++ [.tdo (0x09600A93 + (node s t).fuses.step % 16 * 2 ^ 28)] } }
    ∧ (∃ e : Dev, exec (.jtagExtest t) s = .next { s with dev := e } ∧ e.jtagInstr = 3
        ∧ ((node s t).thermTrip = false → (node s t).power ≠ 0 → e.jtagHold = true ∧ e.power = 1 ∧ e.rg .PWR_RSTCAUSE_CAUSE = (node s t).causeOf CAUSE_JTAG))
    ∧ (∃ e : Dev, exec (.jtagClamp t) s = .next { s with dev := e } ∧ e.jtagInstr = 4
        ∧ ((node s t).thermTrip = false → (node s t).power ≠ 0 → e.jtagHold = true ∧ e.power = 1 ∧ e.rg .PWR_RSTCAUSE_CAUSE = (node s t).causeOf CAUSE_JTAG))
    ∧ (∃ e : Dev, exec (.jtagHighz t) s = .next { s with dev := e } ∧ e.jtagInstr = 5
        ∧ ((node s t).thermTrip = false → (node s t).power ≠ 0 → e.jtagHold = true ∧ e.power = 1 ∧ e.rg .PWR_RSTCAUSE_CAUSE = (node s t).causeOf CAUSE_JTAG))

/-- R548, R549: the quote being signed is written to its host and completes with ST_OK, RESULT the entries of the
measurement log; a fuse write that ends has acted on the fuses; where it was started before a reset, nothing else
follows. -/
def Obligations.QuotesAndFuseWritesComplete : Prop :=
  ∀ (s : State) (t : Nat),
    (∀ r rest q, (node s t).coreOn = true → (node s t).quotes = r :: rest → Tab.find (node s t).reqs r = some q → q.ended = false →
      Goes (.quoteSigned t) s (((({ node s t with quotes := rest } : Dev).dmaWrite r (u64 q.desc 0x30)
        (({ node s t with quotes := rest } : Dev).quoteBytes q)).finish r ST_OK
          ((node s t).rg .MEAS_COUNT_ENTRIES)).pump))
    ∧ (∀ r rec rest, (node s t).keyJobs = (r, rec) :: rest → (node s t).fuseBusy = true →
      ∃ e : Dev, exec (.fuseWriteDone t) s = .next { s with dev := e } ∧ e.fuses = (node s t).fuses.act rec ∧ e.rom = s.dev.rom)
    ∧ (∀ rec, (node s t).coreOn = false → (node s t).keyJobs = [(0, rec)] → (node s t).fuseBusy = true →
      exec (.fuseWriteDone t) s = .next { s with dev := { node s t with
        fuses := (node s t).fuses.act rec, keyJobs := [], fuseBusy := false } })

/-! ## What the shared operations do -/

/-- R11. -/
def Obligations.EpochsCompareModuloTheirWidth : Prop :=
  ∀ n a b : Nat, 1 ≤ n →
    (newer n a b = true ↔ 1 ≤ ((a : Int) - b) % 2 ^ n ∧ ((a : Int) - b) % 2 ^ n ≤ 2 ^ (n - 1) - 1)
    ∧ (a % 2 ^ n = b % 2 ^ n ↔ ((a : Int) - b) % 2 ^ n = 0)
    ∧ (((a : Int) - b) % 2 ^ n = 0 → newer n a b = false ∧ stale n a b = false)
    ∧ (((a : Int) - b) % 2 ^ n = 2 ^ (n - 1) → newer n a b = false ∧ newer n b a = false ∧ stale n a b = true)

/-- R163: the distance of two codes is the number of bits of the width in which they differ; it is at most the width, the
same both ways, and 0 only between codes that agree in every bit. -/
def Obligations.DistanceCountsDifferingBits : Prop :=
  ∀ (n : Nat) (a b : Bytes), hamming n a b = ((List.range (8 * n)).filter fun i => bit (leNat a) i != bit (leNat b) i).length
    ∧ hamming n a b ≤ 8 * n ∧ hamming n a b = hamming n b a
    ∧ (hamming n a b = 0 ↔ ∀ i, i < 8 * n → bit (leNat a) i = bit (leNat b) i)

/-- R20: of the failure codes met, the lowest is reported, and ST_INTERNAL only where no other was met; without a failure
ST_BUDGET_EXHAUSTED, else the status of success. -/
def Obligations.TheLowestFailureIsReported : Prop :=
  ∀ (met : List Nat) (ok : Nat),
    (∀ c, c ∈ met → c ≠ ST_OK → c ≠ ST_DEFERRED → c ≠ ST_BUDGET_EXHAUSTED → c ≠ ST_INTERNAL →
      pickStatus met ok ∈ met ∧ pickStatus met ok ≤ c ∧ pickStatus met ok ≠ ST_OK ∧ pickStatus met ok ≠ ST_DEFERRED
        ∧ pickStatus met ok ≠ ST_BUDGET_EXHAUSTED ∧ pickStatus met ok ≠ ST_INTERNAL)
    ∧ ((∀ c, c ∈ met → c = ST_OK ∨ c = ST_DEFERRED ∨ c = ST_BUDGET_EXHAUSTED ∨ c = ST_INTERNAL) →
      (ST_INTERNAL ∈ met → pickStatus met ok = ST_INTERNAL)
      ∧ (ST_INTERNAL ∉ met → ST_BUDGET_EXHAUSTED ∈ met → pickStatus met ok = ST_BUDGET_EXHAUSTED)
      ∧ (ST_INTERNAL ∉ met → ST_BUDGET_EXHAUSTED ∉ met → pickStatus met ok = ok))

/-- R142 to R145, R147: a descriptor that fails a check at landing takes no slot and no request number. It is answered by
one completion with the lowest code it met, its own TAG and OPCODE, and RESULT 0; its credit returns, unless its FIFO was
full, and then ST_NO_CREDIT is counted where that is the code. One that passes takes the last place of its FIFO, and
nothing is answered yet. With neither its ring nor ring 0 enabled it is dropped, counted and recorded (R143). -/
def Obligations.LandingTakesOrRefuses : Prop :=
  ∀ (d : Dev) (k : Nat) (x : Bytes) (full noRing : Bool), full = decide (256 ≤ (d.win k).fifo.length) →
    noRing = (!(d.ring (ringKey k (u8 x 1 % 8))).en && !(d.ring (if winIsPf0 k then k else ringKey k 0)).en) →
    (noRing = true → d.landIn k x = ((d.setWin k { d.win k with
        dropped := min 255 ((d.win k).dropped + 1), accum := if full then (d.win k).accum else min 511 ((d.win k).accum + 1) }).reportWin
          SRC_CW_NORING k (u8 x 1 % 8) 10, none))
    ∧ (noRing = false → d.landFails k x ≠ [] → ∃ w : Win, d.landIn k x = (((d.setWin k w).noteOutcome x (pickStatus (d.landFails k x) ST_OK)).post
        { win := k, bib := if winIsPf0 k then none else some (winBib k), ring := u8 x 1 % 8, tag := u32 x 4
          gen := if winIsPf0 k then 0 else (d.bib (winBib k)).gen, opcode := u8 x 0, irq := bit (u8 x 2) 0, landed := d.now
          status := pickStatus (d.landFails k x) ST_OK, flags := 0, result := 0 }, none)
      ∧ w.fifo = (d.win k).fifo ∧ w.dropped = (d.win k).dropped
      ∧ w.accum = (if full then (d.win k).accum else min 511 ((d.win k).accum + 1))
      ∧ w.nocredit = (if pickStatus (d.landFails k x) ST_OK = ST_NO_CREDIT then min 65535 ((d.win k).nocredit + 1) else (d.win k).nocredit))
    ∧ (noRing = false → d.landFails k x = [] → full = false ∧ (d.landIn k x).2 = some d.ids
      ∧ ((d.landIn k x).1.win k).fifo = (d.win k).fifo ++ [d.ids]
      ∧ (∃ q, Tab.find (d.landIn k x).1.reqs d.ids = some q ∧ q.desc = x ∧ q.win = k ∧ q.landed = d.now ∧ q.waiting = true
          ∧ q.ended = false)
      ∧ (d.landIn k x).1.queues = d.queues ∧ (d.landIn k x).1.rings = d.rings ∧ (d.landIn k x).1.recs = d.recs
      ∧ (d.landIn k x).1.regs = d.regs ∧ (d.landIn k x).1.out = d.out ∧ (d.landIn k x).1.bibs = d.bibs)

/-- R146, R148, Table 06.4: a completion entry is 32 bytes with its fields at their places; it takes the slot of the ring
that its write count names, with the PHASE of its lap, 1 in the first; the write count moves on by one, and no other ring
changes. -/
def Obligations.CompletionEntriesFollowTheirTable : Prop :=
  (∀ (c : Cpl) (flags load phase : Nat), c.result < 2 ^ 128 → c.tag < 2 ^ 32 → c.status < 256 → flags < 256 → load < 65536 →
      c.credits ≤ 256 → c.gen < 65536 → c.opcode < 256 → phase < 2 →
      let e := entryBytes c flags load phase
      e.length = 32 ∧ un 16 e 0 = c.result ∧ u32 e 0x10 = c.tag ∧ u8 e 0x14 = c.status ∧ u8 e 0x15 = flags ∧ u16 e 0x16 = load
        ∧ u16 e 0x18 = winSvc c.win * 8192 + c.credits ∧ u16 e 0x1A = c.gen ∧ u8 e 0x1C = c.opcode ∧ u16 e 0x1D = 0
        ∧ u8 e 0x1F = phase * 128)
  ∧ (∀ (d : Dev) (rk : Nat) (c : Cpl), ((d.writeEntry rk c).ring rk).written = ((d.ring rk).written + 1) % 4294967296
      ∧ ((d.writeEntry rk c).ring rk).head = (d.ring rk).head
      ∧ (∀ j, j ≠ rk → (d.writeEntry rk c).ring j = d.ring j)
      ∧ ∃ (o sub : Nat) (f : Frame) (rest : List Frame), f.entry = some c
        ∧ f.slotAddr = (d.ring rk).base + (d.ring rk).written % 2 ^ (d.ring rk).size * 32
        ∧ f.phase = ((d.ring rk).written / 2 ^ (d.ring rk).size + 1) % 2 ∧ f.req = c.req
        ∧ Tab.find (d.writeEntry rk c).queues (queueKey o sub (winSvc c.win))
          = some ((Tab.find d.queues (queueKey o sub (winSvc c.win))).getD [] ++ f :: rest))

/-- R499, R500: an error of bib scope goes to the record reserved for its bib and source, 8 × bib + source − 1: it opens a
FREE one with the class of Table 20.2, count 1 and the capture of this error, and only counts in one that is not FREE and
whose class is as high, whose capture stays. Each error is counted. Records of other numbers stay as they are where the
error's class has no action of its own. -/
def Obligations.BibErrorsHaveTheirRecords : Prop :=
  ∀ (d : Dev) (src ty inst b addr acc : Nat), 1 ≤ src → src ≤ 8 → srcClass src = 1 → d.rg .REF_CFG_NOTIFY > 1 →
    let e := d.report src ty inst (some b) addr acc
    (Tab.find d.recs (8 * b + (src - 1)) = none → Tab.find e.recs (8 * b + (src - 1)) = some
        { addr := addr % 2 ^ 64, time := d.now, utype := ty, uinst := inst, bib := some b, gen := (d.bib b).gen, count := 1
          source := src, access := acc, cls := 1, state := 1, steps := 0, since := d.now })
    ∧ (∀ r, Tab.find d.recs (8 * b + (src - 1)) = some r → 1 ≤ r.cls →
        Tab.find e.recs (8 * b + (src - 1)) = some { r with count := min 4294967295 (r.count + 1) })
    ∧ (∀ n, n ≠ 8 * b + (src - 1) → Tab.find e.recs n = Tab.find d.recs n)
    ∧ e.rg .REF_ERRORS_COUNT = min (Fld.REF_ERRORS_COUNT.top - 1) (d.rg .REF_ERRORS_COUNT + 1)
    ∧ e.wins = d.wins ∧ e.reqs = d.reqs ∧ e.bibs = d.bibs ∧ e.fenced = d.fenced ∧ e.queues = d.queues

/-- R513. -/
def Obligations.RecordsAcrossResets : Prop :=
  (∀ (d : Dev) (cause : Nat), d.thermTrip = false → d.power ≠ 0 →
      (d.nodeReset cause).recs = [] ∧ (d.nodeReset cause).notifiedAt = none ∧ (d.nodeReset cause).notifyHeld = false
        ∧ (d.nodeReset cause).fenced = [] ∧ (d.nodeReset cause).nodeFenced = false ∧ (d.nodeReset cause).rg .REF_PEND_PEND = 0)
  ∧ (∀ (d : Dev) (b n : Nat), 8192 ≤ n ∨ n / 8 ≠ b →
      (∀ (grace sw : Bool) (pend : Nat) (w : Option Nat),
          Tab.find (d.startTeardown b grace pend sw w).recs n = Tab.find d.recs n)
        ∧ Tab.find (d.endTeardown b).recs n = Tab.find d.recs n)
  ∧ (∀ (d : Dev) (ty inst : Nat), (d.fenceUnit ty inst).recs = d.recs)

/-- R511, R518, R561, Table 23.6: ERR_N is low exactly while an uncleared record has a class at or above ERRCLASS, never for
an ERRCLASS of 5 to 7, nor in RESET; ID_LED shows PANEL_CFG.ID; in RESET and HALT no sled is powered and no LED is lit. -/
def Obligations.LandsShowTheirRegisters : Prop :=
  ∀ d : Dev,
    (2 ≤ d.power → (d.errPin = true ↔ d.rg .REF_CFG_ERRCLASS ≤ 4 ∧ ∃ n r, (n, r) ∈ d.recs ∧ d.rg .REF_CFG_ERRCLASS ≤ r.cls))
    ∧ (5 ≤ d.rg .REF_CFG_ERRCLASS → d.errPin = false)
    ∧ (d.power = 1 → d.errPin = false)
    ∧ (d.power = 3 ∨ d.power = 4 → (d.idPin = true ↔ d.rg .PANEL_CFG_ID = 1))
    ∧ (d.power = 1 ∨ d.power = 6 → d.idPin = false ∧ ∀ n, d.sledPwrEn n = false ∧ d.attnPin n = false ∧ d.pwrPin n = false)
    ∧ d.thermPin = d.thermTrip

/-- Table 05.3: what each event does to a bib in each state: the next state, and the answer of the command that brought it.
A bib that is ABSENT takes none. In RESETTING a disable, and a reset or enable, only change what follows, and are
answered ST_DEFERRED with the generation to come. -/
def Obligations.BibStatesFollowTheirTable : Prop :=
  ∀ (d : Dev) (b : Nat) (r : Option Nat),
    ((d.bib b).state = 1 → d.bibEvent b .enable r = (d.updBib b fun x => { x with state := 2 }).answer r ST_OK (d.bib b).gen
        ∧ ∀ c, c ≠ .enable → d.bibEvent b c r = d.answer r ST_OK 0)
    ∧ ((d.bib b).state = 2 → d.bibEvent b .enable r = d.answer r ST_OK (d.bib b).gen
        ∧ d.bibEvent b .disable r = d.startTeardown b true 2 true r
        ∧ d.bibEvent b .resetPf0 r = d.startTeardown b false 1 true r
        ∧ d.bibEvent b .resetOwn r = (d.answer r ST_DEFERRED (((d.bib b).gen + 1) % 65536)).startTeardown b false 1 true none
        ∧ d.bibEvent b .expiry r = d)
    ∧ ((d.bib b).state = 3 → d.bibEvent b .enable r = d.answer r ST_FENCED 0
        ∧ d.bibEvent b .disable r = d.startTeardown b false 2 true r
        ∧ d.bibEvent b .resetPf0 r = d.startTeardown b false 1 true r
        ∧ d.bibEvent b .resetOwn r = d.startTeardown b false 1 true r
        ∧ d.bibEvent b .expiry r = d.startTeardown b false 1 false none)
    ∧ ((d.bib b).state = 4 → d.bibEvent b .disable r =
          (d.updBib b fun x => { x with pending := 2 }).answer r ST_DEFERRED (((d.bib b).gen + 1) % 65536)
        ∧ d.bibEvent b .resetPf0 r = (d.updBib b fun x => { x with pending := 1 }).answer r ST_DEFERRED (((d.bib b).gen + 1) % 65536)
        ∧ d.bibEvent b .enable r = (d.updBib b fun x => { x with pending := 1 }).answer r ST_DEFERRED (((d.bib b).gen + 1) % 65536)
        ∧ d.bibEvent b .expiry r = d)
    ∧ ((d.bib b).state = 0 → ∀ c, d.bibEvent b c r = d)

/-- R259, R263: an offer keeps a list in form; an offer that is cut leaves its entries alone and stands before none of them; a
list that is not full keeps an entry of a new index. -/
def Obligations.OffersKeepListsInForm : Prop :=
  ∀ (l : PList) (e : PEnt), ListOk l → ListOk (l.offer e).1 ∧ (l.offer e).1.k = l.k ∧ (l.offer e).1.mode = l.mode
    ∧ ((l.offer e).2 = .cut → (l.offer e).1.ents = l.ents ∧ ∀ x ∈ l.ents, e.before l.mode x = false)
    ∧ (l.ents.length < l.k → (∀ x ∈ l.ents, x.idx ≠ e.idx) → e ∈ (l.offer e).1.ents ∧ (l.offer e).2 = .kept)

/-- R64, R540: a NOR slot, stored with an image, reads as the image and then as erased flash; the other slot reads as before,
and the store keeps its canonical form. -/
def Obligations.NorSlotsHoldWhatIsStored : Prop :=
  ∀ (d : Dev) (slot a : Nat) (img : Bytes), img.length ≤ 0x1000000 → Tab.wf 0xFF#8 d.nor = true →
    Tab.wf 0xFF#8 (d.norStore slot img).nor = true
    ∧ (∀ (h : a < img.length), Tab.get 0xFF#8 (d.norStore slot img).nor (slot + a) = img[a])
    ∧ (img.length ≤ a → a < 0x1000000 → Tab.get 0xFF#8 (d.norStore slot img).nor (slot + a) = 0xFF#8)
    ∧ ((a < slot ∨ slot + 0x1000000 ≤ a) → Tab.get 0xFF#8 (d.norStore slot img).nor a = Tab.get 0xFF#8 d.nor a)
    ∧ d.norStore slot img = { d with nor := (d.norStore slot img).nor }
end

