-- ==== Sys2Proof/Laws/PerInstr.lean ====
section
/-!
SUPPORT. Statements made per command.
-/
namespace Sys2Proof

/-- The split time that a command carries (R9). -/
def Instr.time (i : Instr) : Nat :=
  match i with
  | .search t .. => t
  | .searchCode t .. => t
  | .insert t .. => t
  | .delete t .. => t
  | .cancel t .. => t
  | .progLoad t .. => t
  | .progFree t .. => t
  | .run t .. => t
  | .runCancel t .. => t
  | .lookup t .. => t
  | .update t .. => t
  | .rowSet t .. => t
  | .stepEnd t .. => t
  | .segRead t .. => t
  | .segStat t .. => t
  | .segCreate t .. => t
  | .segWrite t .. => t
  | .segFlush t .. => t
  | .segPublish t .. => t
  | .segRenew t .. => t
  | .segHandoff t .. => t
  | .segDrop t .. => t
  | .alloc t .. => t
  | .free t .. => t
  | .tileWrite t .. => t
  | .tileRead t .. => t
  | .setHint t .. => t
  | .prefetch t .. => t
  | .discard t .. => t
  | .scrub t .. => t
  | .loadImage t .. => t
  | .contractSet t .. => t
  | .bibEnable t .. => t
  | .bibDisable t .. => t
  | .bibReset t .. => t
  | .bibBind t .. => t
  | .ringSet t .. => t
  | .faultAck t .. => t
  | .quote t .. => t
  | .keyAdmin t .. => t
  | .logRead t .. => t
  | .nop t .. => t
  | .meetStat t .. => t
  | .heatRole t .. => t
  | .meetRestart t .. => t
  | .batonMove t .. => t
  | .unknownOpcode t .. => t
  | .ringRelease t .. => t
  | .strayWindowWrite t .. => t
  | .tlpDropped t .. => t
  | .bar0StrayAccess t .. => t
  | .rcRegisterRead t .. => t
  | .registerWrite t .. => t
  | .refPendClear t .. => t
  | .errclassWrite t .. => t
  | .softReset t .. => t
  | .adminRingConfig t .. => t
  | .apertureSlotSet t .. => t
  | .apertureRead t .. => t
  | .apertureWrite t .. => t
  | .panelRemove t .. => t
  | .panelCancel t .. => t
  | .identifyWrite t .. => t
  | .recoveryLoad t .. => t
  | .vfFlr t .. => t
  | .pf0Flr t .. => t
  | .portBindingLoss t .. => t
  | .perstAssert t .. => t
  | .linkDegraded t .. => t
  | .dmaReadDone t .. => t
  | .roceSubmission t .. => t
  | .roceKeyRecord t .. => t
  | .roceCeReceived t .. => t
  | .roceRetryExhausted t .. => t
  | .pauseReceived t .. => t
  | .neighborFrame t .. => t
  | .ptpMessage t .. => t
  | .ptpSyncTimeout t => t
  | .holdoverLimit t => t
  | .heartbeat t .. => t
  | .beacon t .. => t
  | .members t .. => t
  | .roles t .. => t
  | .lost t .. => t
  | .takeover t .. => t
  | .baton t .. => t
  | .restart t .. => t
  | .join t .. => t
  | .refill t .. => t
  | .relayAck t .. => t
  | .shardQuery t .. => t
  | .partialList t .. => t
  | .shardFail t .. => t
  | .shardCancel t .. => t
  | .updateFrame t .. => t
  | .outcome t .. => t
  | .group t .. => t
  | .groupAck t .. => t
  | .commit t .. => t
  | .embedFrame t .. => t
  | .poolFrame t .. => t
  | .relayBadFrame t .. => t
  | .relayRetransmit t .. => t
  | .heartbeatInstant t => t
  | .membersPeriod t => t
  | .slotLossDeadline t .. => t
  | .beaconSilenceCommit t => t
  | .selfFence t => t
  | .standbyTakesBaton t => t
  | .joinWindowEnd t => t
  | .coldStartListenEnd t => t
  | .plannedHandoffBoundary t .. => t
  | .hedgeThreshold t .. => t
  | .sourceGiveUp t .. => t
  | .hedgeRecompute t => t
  | .interruptedHourRoll t => t
  | .commitGroupClose t .. => t
  | .commitGroupPublish t .. => t
  | .lagholdExpiry t .. => t
  | .contextFree t .. => t
  | .trackerEntryFree t => t
  | .walkSlotFree t .. => t
  | .packWindowClose t .. => t
  | .strideGroupReturn t .. => t
  | .sliceBoundary t => t
  | .sliceGuard t => t
  | .scanBatchClose t .. => t
  | .sideBatchClose t .. => t
  | .missNotice t .. => t
  | .strWdog t .. => t
  | .podSlotsFree t .. => t
  | .listDelivery t .. => t
  | .passGrant t .. => t
  | .weightTileArrival t .. => t
  | .layerEnd t .. => t
  | .tileWdog t .. => t
  | .buildWalkStart t .. => t
  | .consolidationPause t => t
  | .stepTimeout t .. => t
  | .loadWindowEnd t .. => t
  | .migrationTimeout t .. => t
  | .migrationSwitch t .. => t
  | .leaseExpiry t .. => t
  | .offerExpiry t .. => t
  | .tierSweep t => t
  | .pacerRefill t .. => t
  | .gateChange t .. => t
  | .outletCommit t .. => t
  | .promotionAge t .. => t
  | .modTimeExpiry t .. => t
  | .ringFullTimeout t .. => t
  | .errorReport t .. => t
  | .graceExpiry t .. => t
  | .teardownGraceEnd t .. => t
  | .teardownEnd t .. => t
  | .teardownStuck t .. => t
  | .loaderChecksDone t => t
  | .admissionTimeout t => t
  | .contractCheckTimeout t => t
  | .storeEnd t => t
  | .drainEnd t => t
  | .applyingEnd t => t
  | .flashReadDone t .. => t
  | .flashProgramDone t .. => t
  | .flashEraseDone t .. => t
  | .foldStart t => t
  | .reclaimStart t .. => t
  | .journalWriteback t => t
  | .dirtyWriteback t .. => t
  | .patrolRead t .. => t
  | .nvBarEntry t .. => t
  | .nvBarExit t .. => t
  | .flushEntry t .. => t
  | .holdFloorReached t .. => t
  | .flushEnd t => t
  | .resumeReset t .. => t
  | .pwrOkFall t => t
  | .pwrOkRise t => t
  | .resetPin t => t
  | .resetRelease t .. => t
  | .controlWdog t => t
  | .clockLoss t .. => t
  | .timeClockReturn t => t
  | .thermalTrip t => t
  | .sledDiscoveryEnd t .. => t
  | .bootStepOverrun t => t
  | .attnButtonPress t .. => t
  | .attnLongPress t .. => t
  | .sledInsertion t .. => t
  | .sledRemoval t .. => t
  | .abortWindowEnd t .. => t
  | .sledPowerOffDone t .. => t
  | .mctpSetEndpointId t .. => t
  | .mctpGetEndpointId t => t
  | .mctpGetVersionSupport t => t
  | .mctpGetMessageType t => t
  | .mctpGetVdmSupport t => t
  | .getStatus t => t
  | .getPower t .. => t
  | .readLog t .. => t
  | .nodeReset t .. => t
  | .setIdentify t .. => t
  | .jtagBypass t => t
  | .jtagIdcode t => t
  | .jtagSamplePreload t => t
  | .jtagExtest t => t
  | .jtagClamp t => t
  | .jtagHighz t => t
  | .tapReset t => t
  | .perstDeassert t .. => t
  | .ethLinkChange t .. => t
  | .roceAckTimeout t .. => t
  | .roceInvalidRequest t .. => t
  | .cnpReceived t .. => t
  | .pcieConfigRequest t .. => t
  | .msixUnmask t .. => t
  | .ptpSendInterval t => t
  | .notifyHoldoffEnd t => t
  | .flashTempSample t .. => t
  | .holdFloorRecovered t .. => t
  | .strideBatchReturn t .. => t
  | .contractCheckDone t => t
  | .progCheckTimeout t .. => t
  | .quoteSigned t => t
  | .fuseWriteDone t => t
  | .recoveryWriteDone t .. => t
/-- The same command at another split time. -/
def Instr.atTime (i : Instr) (u : Nat) : Instr :=
  match i with
  | .search _ src d => .search u src d
  | .searchCode _ src d => .searchCode u src d
  | .insert _ src d => .insert u src d
  | .delete _ src d => .delete u src d
  | .cancel _ src d => .cancel u src d
  | .progLoad _ src d => .progLoad u src d
  | .progFree _ src d => .progFree u src d
  | .run _ src d => .run u src d
  | .runCancel _ src d => .runCancel u src d
  | .lookup _ src d => .lookup u src d
  | .update _ src d => .update u src d
  | .rowSet _ src d => .rowSet u src d
  | .stepEnd _ src d => .stepEnd u src d
  | .segRead _ src d => .segRead u src d
  | .segStat _ src d => .segStat u src d
  | .segCreate _ src d => .segCreate u src d
  | .segWrite _ src d => .segWrite u src d
  | .segFlush _ src d => .segFlush u src d
  | .segPublish _ src d => .segPublish u src d
  | .segRenew _ src d => .segRenew u src d
  | .segHandoff _ src d => .segHandoff u src d
  | .segDrop _ src d => .segDrop u src d
  | .alloc _ src d => .alloc u src d
  | .free _ src d => .free u src d
  | .tileWrite _ src d => .tileWrite u src d
  | .tileRead _ src d => .tileRead u src d
  | .setHint _ src d => .setHint u src d
  | .prefetch _ src d => .prefetch u src d
  | .discard _ src d => .discard u src d
  | .scrub _ src d => .scrub u src d
  | .loadImage _ src d => .loadImage u src d
  | .contractSet _ src d => .contractSet u src d
  | .bibEnable _ src d => .bibEnable u src d
  | .bibDisable _ src d => .bibDisable u src d
  | .bibReset _ src d => .bibReset u src d
  | .bibBind _ src d => .bibBind u src d
  | .ringSet _ src d => .ringSet u src d
  | .faultAck _ src d => .faultAck u src d
  | .quote _ src d => .quote u src d
  | .keyAdmin _ src d => .keyAdmin u src d
  | .logRead _ src d => .logRead u src d
  | .nop _ src d => .nop u src d
  | .meetStat _ src d => .meetStat u src d
  | .heatRole _ src d => .heatRole u src d
  | .meetRestart _ src d => .meetRestart u src d
  | .batonMove _ src d => .batonMove u src d
  | .unknownOpcode _ src d => .unknownOpcode u src d
  | .ringRelease _ src rec => .ringRelease u src rec
  | .strayWindowWrite _ port vf => .strayWindowWrite u port vf
  | .tlpDropped _ src kind off => .tlpDropped u src kind off
  | .bar0StrayAccess _ port off size wr => .bar0StrayAccess u port off size wr
  | .rcRegisterRead _ port blk inst span hw => .rcRegisterRead u port blk inst span hw
  | .registerWrite _ port blk inst span value => .registerWrite u port blk inst span value
  | .refPendClear _ value hwSet => .refPendClear u value hwSet
  | .errclassWrite _ value => .errclassWrite u value
  | .softReset _ port value => .softReset u port value
  | .adminRingConfig _ port value => .adminRingConfig u port value
  | .apertureSlotSet _ slot isKey value => .apertureSlotSet u slot isKey value
  | .apertureRead _ port off len => .apertureRead u port off len
  | .apertureWrite _ port off len => .apertureWrite u port off len
  | .panelRemove _ mask => .panelRemove u mask
  | .panelCancel _ mask => .panelCancel u mask
  | .identifyWrite _ value => .identifyWrite u value
  | .recoveryLoad _ port value => .recoveryLoad u port value
  | .vfFlr _ port vf => .vfFlr u port vf
  | .pf0Flr _ port => .pf0Flr u port
  | .portBindingLoss _ port kind => .portBindingLoss u port kind
  | .perstAssert _ port => .perstAssert u port
  | .linkDegraded _ port lanes rate => .linkDegraded u port lanes rate
  | .dmaReadDone _ id res => .dmaReadDone u id res
  | .roceSubmission _ bib imm payload => .roceSubmission u bib imm payload
  | .roceKeyRecord _ bib rec => .roceKeyRecord u bib rec
  | .roceCeReceived _ bib => .roceCeReceived u bib
  | .roceRetryExhausted _ bib => .roceRetryExhausted u bib
  | .pauseReceived _ port => .pauseReceived u port
  | .neighborFrame _ port kind => .neighborFrame u port kind
  | .ptpMessage _ port offset freq => .ptpMessage u port offset freq
  | .ptpSyncTimeout _ => .ptpSyncTimeout u
  | .holdoverLimit _ => .holdoverLimit u
  | .heartbeat _ h body => .heartbeat u h body
  | .beacon _ h body => .beacon u h body
  | .members _ h body => .members u h body
  | .roles _ h body => .roles u h body
  | .lost _ h body => .lost u h body
  | .takeover _ h body => .takeover u h body
  | .baton _ h body => .baton u h body
  | .restart _ h body => .restart u h body
  | .join _ h body => .join u h body
  | .refill _ h body => .refill u h body
  | .relayAck _ h => .relayAck u h
  | .shardQuery _ h body => .shardQuery u h body
  | .partialList _ h body => .partialList u h body
  | .shardFail _ h body => .shardFail u h body
  | .shardCancel _ h body => .shardCancel u h body
  | .updateFrame _ h body => .updateFrame u h body
  | .outcome _ h body => .outcome u h body
  | .group _ h body => .group u h body
  | .groupAck _ h body => .groupAck u h body
  | .commit _ h body => .commit u h body
  | .embedFrame _ h body => .embedFrame u h body
  | .poolFrame _ h body => .poolFrame u h body
  | .relayBadFrame _ raw => .relayBadFrame u raw
  | .relayRetransmit _ dst seq => .relayRetransmit u dst seq
  | .heartbeatInstant _ => .heartbeatInstant u
  | .membersPeriod _ => .membersPeriod u
  | .slotLossDeadline _ slot => .slotLossDeadline u slot
  | .beaconSilenceCommit _ => .beaconSilenceCommit u
  | .selfFence _ => .selfFence u
  | .standbyTakesBaton _ => .standbyTakesBaton u
  | .joinWindowEnd _ => .joinWindowEnd u
  | .coldStartListenEnd _ => .coldStartListenEnd u
  | .plannedHandoffBoundary _ heat => .plannedHandoffBoundary u heat
  | .hedgeThreshold _ req source => .hedgeThreshold u req source
  | .sourceGiveUp _ req source => .sourceGiveUp u req source
  | .hedgeRecompute _ => .hedgeRecompute u
  | .interruptedHourRoll _ => .interruptedHourRoll u
  | .commitGroupClose _ heat => .commitGroupClose u heat
  | .commitGroupPublish _ heat => .commitGroupPublish u heat
  | .lagholdExpiry _ sq => .lagholdExpiry u sq
  | .contextFree _ req => .contextFree u req
  | .trackerEntryFree _ => .trackerEntryFree u
  | .walkSlotFree _ part => .walkSlotFree u part
  | .packWindowClose _ grp => .packWindowClose u grp
  | .strideGroupReturn _ grp ecc => .strideGroupReturn u grp ecc
  | .sliceBoundary _ => .sliceBoundary u
  | .sliceGuard _ => .sliceGuard u
  | .scanBatchClose _ batch => .scanBatchClose u batch
  | .sideBatchClose _ batch => .sideBatchClose u batch
  | .missNotice _ batch engine tile => .missNotice u batch engine tile
  | .strWdog _ engine => .strWdog u engine
  | .podSlotsFree _ part => .podSlotsFree u part
  | .listDelivery _ list => .listDelivery u list
  | .passGrant _ part => .passGrant u part
  | .weightTileArrival _ pass layer tile => .weightTileArrival u pass layer tile
  | .layerEnd _ pass => .layerEnd u pass
  | .tileWdog _ tile => .tileWdog u tile
  | .buildWalkStart _ heat => .buildWalkStart u heat
  | .consolidationPause _ => .consolidationPause u
  | .stepTimeout _ table step => .stepTimeout u table step
  | .loadWindowEnd _ busy => .loadWindowEnd u busy
  | .migrationTimeout _ mig => .migrationTimeout u mig
  | .migrationSwitch _ mig => .migrationSwitch u mig
  | .leaseExpiry _ key => .leaseExpiry u key
  | .offerExpiry _ key => .offerExpiry u key
  | .tierSweep _ => .tierSweep u
  | .pacerRefill _ pacer => .pacerRefill u pacer
  | .gateChange _ outlet => .gateChange u outlet
  | .outletCommit _ outlet lane => .outletCommit u outlet lane
  | .promotionAge _ outlet sub svc => .promotionAge u outlet sub svc
  | .modTimeExpiry _ ring => .modTimeExpiry u ring
  | .ringFullTimeout _ ring => .ringFullTimeout u ring
  | .errorReport _ e => .errorReport u e
  | .graceExpiry _ rec => .graceExpiry u rec
  | .teardownGraceEnd _ bib => .teardownGraceEnd u bib
  | .teardownEnd _ bib => .teardownEnd u bib
  | .teardownStuck _ bib => .teardownStuck u bib
  | .loaderChecksDone _ => .loaderChecksDone u
  | .admissionTimeout _ => .admissionTimeout u
  | .contractCheckTimeout _ => .contractCheckTimeout u
  | .storeEnd _ => .storeEnd u
  | .drainEnd _ => .drainEnd u
  | .applyingEnd _ => .applyingEnd u
  | .flashReadDone _ op res => .flashReadDone u op res
  | .flashProgramDone _ op ok => .flashProgramDone u op ok
  | .flashEraseDone _ op ok => .flashEraseDone u op ok
  | .foldStart _ => .foldStart u
  | .reclaimStart _ target => .reclaimStart u target
  | .journalWriteback _ => .journalWriteback u
  | .dirtyWriteback _ tile => .dirtyWriteback u tile
  | .patrolRead _ target found => .patrolRead u target found
  | .nvBarEntry _ main => .nvBarEntry u main
  | .nvBarExit _ main => .nvBarExit u main
  | .flushEntry _ cause main => .flushEntry u cause main
  | .holdFloorReached _ hold => .holdFloorReached u hold
  | .flushEnd _ => .flushEnd u
  | .resumeReset _ main => .resumeReset u main
  | .pwrOkFall _ => .pwrOkFall u
  | .pwrOkRise _ => .pwrOkRise u
  | .resetPin _ => .resetPin u
  | .resetRelease _ straps => .resetRelease u straps
  | .controlWdog _ => .controlWdog u
  | .clockLoss _ clk => .clockLoss u clk
  | .timeClockReturn _ => .timeClockReturn u
  | .thermalTrip _ => .thermalTrip u
  | .sledDiscoveryEnd _ sled info => .sledDiscoveryEnd u sled info
  | .bootStepOverrun _ => .bootStepOverrun u
  | .attnButtonPress _ slot => .attnButtonPress u slot
  | .attnLongPress _ slot => .attnLongPress u slot
  | .sledInsertion _ slot => .sledInsertion u slot
  | .sledRemoval _ slot => .sledRemoval u slot
  | .abortWindowEnd _ slot => .abortWindowEnd u slot
  | .sledPowerOffDone _ slot => .sledPowerOffDone u slot
  | .mctpSetEndpointId _ eid => .mctpSetEndpointId u eid
  | .mctpGetEndpointId _ => .mctpGetEndpointId u
  | .mctpGetVersionSupport _ => .mctpGetVersionSupport u
  | .mctpGetMessageType _ => .mctpGetMessageType u
  | .mctpGetVdmSupport _ => .mctpGetVdmSupport u
  | .getStatus _ => .getStatus u
  | .getPower _ sample => .getPower u sample
  | .readLog _ log sled off => .readLog u log sled off
  | .nodeReset _ b0 b1 => .nodeReset u b0 b1
  | .setIdentify _ value => .setIdentify u value
  | .jtagBypass _ => .jtagBypass u
  | .jtagIdcode _ => .jtagIdcode u
  | .jtagSamplePreload _ => .jtagSamplePreload u
  | .jtagExtest _ => .jtagExtest u
  | .jtagClamp _ => .jtagClamp u
  | .jtagHighz _ => .jtagHighz u
  | .tapReset _ => .tapReset u
  | .perstDeassert _ port aptEn => .perstDeassert u port aptEn
  | .ethLinkChange _ port up lock => .ethLinkChange u port up lock
  | .roceAckTimeout _ bib => .roceAckTimeout u bib
  | .roceInvalidRequest _ bib kind => .roceInvalidRequest u bib kind
  | .cnpReceived _ port => .cnpReceived u port
  | .pcieConfigRequest _ port cfg => .pcieConfigRequest u port cfg
  | .msixUnmask _ port fn vec => .msixUnmask u port fn vec
  | .ptpSendInterval _ => .ptpSendInterval u
  | .notifyHoldoffEnd _ => .notifyHoldoffEnd u
  | .flashTempSample _ sled celsius => .flashTempSample u sled celsius
  | .holdFloorRecovered _ hold => .holdFloorRecovered u hold
  | .strideBatchReturn _ batch engine unit ecc => .strideBatchReturn u batch engine unit ecc
  | .contractCheckDone _ => .contractCheckDone u
  | .progCheckTimeout _ req => .progCheckTimeout u req
  | .quoteSigned _ => .quoteSigned u
  | .fuseWriteDone _ => .fuseWriteDone u
  | .recoveryWriteDone _ ok => .recoveryWriteDone u ok
namespace Laws.Timed

/-- Setting a command's split time is read back, and setting it to its own time changes nothing. -/
def Statement (i : Instr) : Prop := (∀ u, (i.atTime u).time = u) ∧ i.atTime i.time = i

theorem search (t : Nat) (src : Src) (d : Bytes) : Statement (.search t src d) := ⟨fun _ => rfl, rfl⟩
theorem searchCode (t : Nat) (src : Src) (d : Bytes) : Statement (.searchCode t src d) := ⟨fun _ => rfl, rfl⟩
theorem insert (t : Nat) (src : Src) (d : Bytes) : Statement (.insert t src d) := ⟨fun _ => rfl, rfl⟩
theorem delete (t : Nat) (src : Src) (d : Bytes) : Statement (.delete t src d) := ⟨fun _ => rfl, rfl⟩
theorem cancel (t : Nat) (src : Src) (d : Bytes) : Statement (.cancel t src d) := ⟨fun _ => rfl, rfl⟩
theorem progLoad (t : Nat) (src : Src) (d : Bytes) : Statement (.progLoad t src d) := ⟨fun _ => rfl, rfl⟩
theorem progFree (t : Nat) (src : Src) (d : Bytes) : Statement (.progFree t src d) := ⟨fun _ => rfl, rfl⟩
theorem run (t : Nat) (src : Src) (d : Bytes) : Statement (.run t src d) := ⟨fun _ => rfl, rfl⟩
theorem runCancel (t : Nat) (src : Src) (d : Bytes) : Statement (.runCancel t src d) := ⟨fun _ => rfl, rfl⟩
theorem lookup (t : Nat) (src : Src) (d : Bytes) : Statement (.lookup t src d) := ⟨fun _ => rfl, rfl⟩
theorem update (t : Nat) (src : Src) (d : Bytes) : Statement (.update t src d) := ⟨fun _ => rfl, rfl⟩
theorem rowSet (t : Nat) (src : Src) (d : Bytes) : Statement (.rowSet t src d) := ⟨fun _ => rfl, rfl⟩
theorem stepEnd (t : Nat) (src : Src) (d : Bytes) : Statement (.stepEnd t src d) := ⟨fun _ => rfl, rfl⟩
theorem segRead (t : Nat) (src : Src) (d : Bytes) : Statement (.segRead t src d) := ⟨fun _ => rfl, rfl⟩
theorem segStat (t : Nat) (src : Src) (d : Bytes) : Statement (.segStat t src d) := ⟨fun _ => rfl, rfl⟩
theorem segCreate (t : Nat) (src : Src) (d : Bytes) : Statement (.segCreate t src d) := ⟨fun _ => rfl, rfl⟩
theorem segWrite (t : Nat) (src : Src) (d : Bytes) : Statement (.segWrite t src d) := ⟨fun _ => rfl, rfl⟩
theorem segFlush (t : Nat) (src : Src) (d : Bytes) : Statement (.segFlush t src d) := ⟨fun _ => rfl, rfl⟩
theorem segPublish (t : Nat) (src : Src) (d : Bytes) : Statement (.segPublish t src d) := ⟨fun _ => rfl, rfl⟩
theorem segRenew (t : Nat) (src : Src) (d : Bytes) : Statement (.segRenew t src d) := ⟨fun _ => rfl, rfl⟩
theorem segHandoff (t : Nat) (src : Src) (d : Bytes) : Statement (.segHandoff t src d) := ⟨fun _ => rfl, rfl⟩
theorem segDrop (t : Nat) (src : Src) (d : Bytes) : Statement (.segDrop t src d) := ⟨fun _ => rfl, rfl⟩
theorem alloc (t : Nat) (src : Src) (d : Bytes) : Statement (.alloc t src d) := ⟨fun _ => rfl, rfl⟩
theorem free (t : Nat) (src : Src) (d : Bytes) : Statement (.free t src d) := ⟨fun _ => rfl, rfl⟩
theorem tileWrite (t : Nat) (src : Src) (d : Bytes) : Statement (.tileWrite t src d) := ⟨fun _ => rfl, rfl⟩
theorem tileRead (t : Nat) (src : Src) (d : Bytes) : Statement (.tileRead t src d) := ⟨fun _ => rfl, rfl⟩
theorem setHint (t : Nat) (src : Src) (d : Bytes) : Statement (.setHint t src d) := ⟨fun _ => rfl, rfl⟩
theorem prefetch (t : Nat) (src : Src) (d : Bytes) : Statement (.prefetch t src d) := ⟨fun _ => rfl, rfl⟩
theorem discard (t : Nat) (src : Src) (d : Bytes) : Statement (.discard t src d) := ⟨fun _ => rfl, rfl⟩
theorem scrub (t : Nat) (src : Src) (d : Bytes) : Statement (.scrub t src d) := ⟨fun _ => rfl, rfl⟩
theorem loadImage (t : Nat) (src : Src) (d : Bytes) : Statement (.loadImage t src d) := ⟨fun _ => rfl, rfl⟩
theorem contractSet (t : Nat) (src : Src) (d : Bytes) : Statement (.contractSet t src d) := ⟨fun _ => rfl, rfl⟩
theorem bibEnable (t : Nat) (src : Src) (d : Bytes) : Statement (.bibEnable t src d) := ⟨fun _ => rfl, rfl⟩
theorem bibDisable (t : Nat) (src : Src) (d : Bytes) : Statement (.bibDisable t src d) := ⟨fun _ => rfl, rfl⟩
theorem bibReset (t : Nat) (src : Src) (d : Bytes) : Statement (.bibReset t src d) := ⟨fun _ => rfl, rfl⟩
theorem bibBind (t : Nat) (src : Src) (d : Bytes) : Statement (.bibBind t src d) := ⟨fun _ => rfl, rfl⟩
theorem ringSet (t : Nat) (src : Src) (d : Bytes) : Statement (.ringSet t src d) := ⟨fun _ => rfl, rfl⟩
theorem faultAck (t : Nat) (src : Src) (d : Bytes) : Statement (.faultAck t src d) := ⟨fun _ => rfl, rfl⟩
theorem quote (t : Nat) (src : Src) (d : Bytes) : Statement (.quote t src d) := ⟨fun _ => rfl, rfl⟩
theorem keyAdmin (t : Nat) (src : Src) (d : Bytes) : Statement (.keyAdmin t src d) := ⟨fun _ => rfl, rfl⟩
theorem logRead (t : Nat) (src : Src) (d : Bytes) : Statement (.logRead t src d) := ⟨fun _ => rfl, rfl⟩
theorem nop (t : Nat) (src : Src) (d : Bytes) : Statement (.nop t src d) := ⟨fun _ => rfl, rfl⟩
theorem meetStat (t : Nat) (src : Src) (d : Bytes) : Statement (.meetStat t src d) := ⟨fun _ => rfl, rfl⟩
theorem heatRole (t : Nat) (src : Src) (d : Bytes) : Statement (.heatRole t src d) := ⟨fun _ => rfl, rfl⟩
theorem meetRestart (t : Nat) (src : Src) (d : Bytes) : Statement (.meetRestart t src d) := ⟨fun _ => rfl, rfl⟩
theorem batonMove (t : Nat) (src : Src) (d : Bytes) : Statement (.batonMove t src d) := ⟨fun _ => rfl, rfl⟩
theorem unknownOpcode (t : Nat) (src : Src) (d : Bytes) : Statement (.unknownOpcode t src d) := ⟨fun _ => rfl, rfl⟩
theorem ringRelease (t : Nat) (src : Src) (rec : Bytes) : Statement (.ringRelease t src rec) := ⟨fun _ => rfl, rfl⟩
theorem strayWindowWrite (t : Nat) (port : Nat) (vf : Nat) : Statement (.strayWindowWrite t port vf) := ⟨fun _ => rfl, rfl⟩
theorem tlpDropped (t : Nat) (src : Src) (kind : TlpDrop) (off : Nat) : Statement (.tlpDropped t src kind off) := ⟨fun _ => rfl, rfl⟩
theorem bar0StrayAccess (t : Nat) (port : Nat) (off : Nat) (size : Nat) (wr : Option Nat) : Statement (.bar0StrayAccess t port off size wr) := ⟨fun _ => rfl, rfl⟩
theorem rcRegisterRead (t : Nat) (port : Nat) (blk : Nat) (inst : Nat) (span : Span) (hw : Nat) : Statement (.rcRegisterRead t port blk inst span hw) := ⟨fun _ => rfl, rfl⟩
theorem registerWrite (t : Nat) (port : Nat) (blk : Nat) (inst : Nat) (span : Span) (value : Nat) : Statement (.registerWrite t port blk inst span value) := ⟨fun _ => rfl, rfl⟩
theorem refPendClear (t : Nat) (value : Nat) (hwSet : Bool) : Statement (.refPendClear t value hwSet) := ⟨fun _ => rfl, rfl⟩
theorem errclassWrite (t : Nat) (value : Nat) : Statement (.errclassWrite t value) := ⟨fun _ => rfl, rfl⟩
theorem softReset (t : Nat) (port : Nat) (value : Nat) : Statement (.softReset t port value) := ⟨fun _ => rfl, rfl⟩
theorem adminRingConfig (t : Nat) (port : Nat) (value : Nat) : Statement (.adminRingConfig t port value) := ⟨fun _ => rfl, rfl⟩
theorem apertureSlotSet (t : Nat) (slot : Nat) (isKey : Bool) (value : Nat) : Statement (.apertureSlotSet t slot isKey value) := ⟨fun _ => rfl, rfl⟩
theorem apertureRead (t : Nat) (port : Nat) (off : Nat) (len : Nat) : Statement (.apertureRead t port off len) := ⟨fun _ => rfl, rfl⟩
theorem apertureWrite (t : Nat) (port : Nat) (off : Nat) (len : Nat) : Statement (.apertureWrite t port off len) := ⟨fun _ => rfl, rfl⟩
theorem panelRemove (t : Nat) (mask : Nat) : Statement (.panelRemove t mask) := ⟨fun _ => rfl, rfl⟩
theorem panelCancel (t : Nat) (mask : Nat) : Statement (.panelCancel t mask) := ⟨fun _ => rfl, rfl⟩
theorem identifyWrite (t : Nat) (value : Nat) : Statement (.identifyWrite t value) := ⟨fun _ => rfl, rfl⟩
theorem recoveryLoad (t : Nat) (port : Nat) (value : Nat) : Statement (.recoveryLoad t port value) := ⟨fun _ => rfl, rfl⟩
theorem vfFlr (t : Nat) (port : Nat) (vf : Nat) : Statement (.vfFlr t port vf) := ⟨fun _ => rfl, rfl⟩
theorem pf0Flr (t : Nat) (port : Nat) : Statement (.pf0Flr t port) := ⟨fun _ => rfl, rfl⟩
theorem portBindingLoss (t : Nat) (port : Nat) (kind : PortLoss) : Statement (.portBindingLoss t port kind) := ⟨fun _ => rfl, rfl⟩
theorem perstAssert (t : Nat) (port : Nat) : Statement (.perstAssert t port) := ⟨fun _ => rfl, rfl⟩
theorem linkDegraded (t : Nat) (port : Nat) (lanes : Nat) (rate : Nat) : Statement (.linkDegraded t port lanes rate) := ⟨fun _ => rfl, rfl⟩
theorem dmaReadDone (t : Nat) (id : Nat) (res : DmaResult) : Statement (.dmaReadDone t id res) := ⟨fun _ => rfl, rfl⟩
theorem roceSubmission (t : Nat) (bib : Nat) (imm : Nat) (payload : Bytes) : Statement (.roceSubmission t bib imm payload) := ⟨fun _ => rfl, rfl⟩
theorem roceKeyRecord (t : Nat) (bib : Nat) (rec : Bytes) : Statement (.roceKeyRecord t bib rec) := ⟨fun _ => rfl, rfl⟩
theorem roceCeReceived (t : Nat) (bib : Nat) : Statement (.roceCeReceived t bib) := ⟨fun _ => rfl, rfl⟩
theorem roceRetryExhausted (t : Nat) (bib : Nat) : Statement (.roceRetryExhausted t bib) := ⟨fun _ => rfl, rfl⟩
theorem pauseReceived (t : Nat) (port : Nat) : Statement (.pauseReceived t port) := ⟨fun _ => rfl, rfl⟩
theorem neighborFrame (t : Nat) (port : Nat) (kind : NeighborKind) : Statement (.neighborFrame t port kind) := ⟨fun _ => rfl, rfl⟩
theorem ptpMessage (t : Nat) (port : Nat) (offset : Int) (freq : Int) : Statement (.ptpMessage t port offset freq) := ⟨fun _ => rfl, rfl⟩
theorem ptpSyncTimeout (t : Nat) : Statement (.ptpSyncTimeout t) := ⟨fun _ => rfl, rfl⟩
theorem holdoverLimit (t : Nat) : Statement (.holdoverLimit t) := ⟨fun _ => rfl, rfl⟩
theorem heartbeat (t : Nat) (h : RHdr) (body : Bytes) : Statement (.heartbeat t h body) := ⟨fun _ => rfl, rfl⟩
theorem beacon (t : Nat) (h : RHdr) (body : Bytes) : Statement (.beacon t h body) := ⟨fun _ => rfl, rfl⟩
theorem members (t : Nat) (h : RHdr) (body : Bytes) : Statement (.members t h body) := ⟨fun _ => rfl, rfl⟩
theorem roles (t : Nat) (h : RHdr) (body : Bytes) : Statement (.roles t h body) := ⟨fun _ => rfl, rfl⟩
theorem lost (t : Nat) (h : RHdr) (body : Bytes) : Statement (.lost t h body) := ⟨fun _ => rfl, rfl⟩
theorem takeover (t : Nat) (h : RHdr) (body : Bytes) : Statement (.takeover t h body) := ⟨fun _ => rfl, rfl⟩
theorem baton (t : Nat) (h : RHdr) (body : Bytes) : Statement (.baton t h body) := ⟨fun _ => rfl, rfl⟩
theorem restart (t : Nat) (h : RHdr) (body : Bytes) : Statement (.restart t h body) := ⟨fun _ => rfl, rfl⟩
theorem join (t : Nat) (h : RHdr) (body : Bytes) : Statement (.join t h body) := ⟨fun _ => rfl, rfl⟩
theorem refill (t : Nat) (h : RHdr) (body : Bytes) : Statement (.refill t h body) := ⟨fun _ => rfl, rfl⟩
theorem relayAck (t : Nat) (h : RHdr) : Statement (.relayAck t h) := ⟨fun _ => rfl, rfl⟩
theorem shardQuery (t : Nat) (h : RHdr) (body : Bytes) : Statement (.shardQuery t h body) := ⟨fun _ => rfl, rfl⟩
theorem partialList (t : Nat) (h : RHdr) (body : Bytes) : Statement (.partialList t h body) := ⟨fun _ => rfl, rfl⟩
theorem shardFail (t : Nat) (h : RHdr) (body : Bytes) : Statement (.shardFail t h body) := ⟨fun _ => rfl, rfl⟩
theorem shardCancel (t : Nat) (h : RHdr) (body : Bytes) : Statement (.shardCancel t h body) := ⟨fun _ => rfl, rfl⟩
theorem updateFrame (t : Nat) (h : RHdr) (body : Bytes) : Statement (.updateFrame t h body) := ⟨fun _ => rfl, rfl⟩
theorem outcome (t : Nat) (h : RHdr) (body : Bytes) : Statement (.outcome t h body) := ⟨fun _ => rfl, rfl⟩
theorem group (t : Nat) (h : RHdr) (body : Bytes) : Statement (.group t h body) := ⟨fun _ => rfl, rfl⟩
theorem groupAck (t : Nat) (h : RHdr) (body : Bytes) : Statement (.groupAck t h body) := ⟨fun _ => rfl, rfl⟩
theorem commit (t : Nat) (h : RHdr) (body : Bytes) : Statement (.commit t h body) := ⟨fun _ => rfl, rfl⟩
theorem embedFrame (t : Nat) (h : RHdr) (body : Bytes) : Statement (.embedFrame t h body) := ⟨fun _ => rfl, rfl⟩
theorem poolFrame (t : Nat) (h : RHdr) (body : Bytes) : Statement (.poolFrame t h body) := ⟨fun _ => rfl, rfl⟩
theorem relayBadFrame (t : Nat) (raw : Bytes) : Statement (.relayBadFrame t raw) := ⟨fun _ => rfl, rfl⟩
theorem relayRetransmit (t : Nat) (dst : Nat) (seq : Nat) : Statement (.relayRetransmit t dst seq) := ⟨fun _ => rfl, rfl⟩
theorem heartbeatInstant (t : Nat) : Statement (.heartbeatInstant t) := ⟨fun _ => rfl, rfl⟩
theorem membersPeriod (t : Nat) : Statement (.membersPeriod t) := ⟨fun _ => rfl, rfl⟩
theorem slotLossDeadline (t : Nat) (slot : Nat) : Statement (.slotLossDeadline t slot) := ⟨fun _ => rfl, rfl⟩
theorem beaconSilenceCommit (t : Nat) : Statement (.beaconSilenceCommit t) := ⟨fun _ => rfl, rfl⟩
theorem selfFence (t : Nat) : Statement (.selfFence t) := ⟨fun _ => rfl, rfl⟩
theorem standbyTakesBaton (t : Nat) : Statement (.standbyTakesBaton t) := ⟨fun _ => rfl, rfl⟩
theorem joinWindowEnd (t : Nat) : Statement (.joinWindowEnd t) := ⟨fun _ => rfl, rfl⟩
theorem coldStartListenEnd (t : Nat) : Statement (.coldStartListenEnd t) := ⟨fun _ => rfl, rfl⟩
theorem plannedHandoffBoundary (t : Nat) (heat : Nat) : Statement (.plannedHandoffBoundary t heat) := ⟨fun _ => rfl, rfl⟩
theorem hedgeThreshold (t : Nat) (req : Nat) (source : Nat) : Statement (.hedgeThreshold t req source) := ⟨fun _ => rfl, rfl⟩
theorem sourceGiveUp (t : Nat) (req : Nat) (source : Nat) : Statement (.sourceGiveUp t req source) := ⟨fun _ => rfl, rfl⟩
theorem hedgeRecompute (t : Nat) : Statement (.hedgeRecompute t) := ⟨fun _ => rfl, rfl⟩
theorem interruptedHourRoll (t : Nat) : Statement (.interruptedHourRoll t) := ⟨fun _ => rfl, rfl⟩
theorem commitGroupClose (t : Nat) (heat : Nat) : Statement (.commitGroupClose t heat) := ⟨fun _ => rfl, rfl⟩
theorem commitGroupPublish (t : Nat) (heat : Nat) : Statement (.commitGroupPublish t heat) := ⟨fun _ => rfl, rfl⟩
theorem lagholdExpiry (t : Nat) (sq : Nat) : Statement (.lagholdExpiry t sq) := ⟨fun _ => rfl, rfl⟩
theorem contextFree (t : Nat) (req : Nat) : Statement (.contextFree t req) := ⟨fun _ => rfl, rfl⟩
theorem trackerEntryFree (t : Nat) : Statement (.trackerEntryFree t) := ⟨fun _ => rfl, rfl⟩
theorem walkSlotFree (t : Nat) (part : Nat) : Statement (.walkSlotFree t part) := ⟨fun _ => rfl, rfl⟩
theorem packWindowClose (t : Nat) (grp : Nat) : Statement (.packWindowClose t grp) := ⟨fun _ => rfl, rfl⟩
theorem strideGroupReturn (t : Nat) (grp : Nat) (ecc : EccOutcome) : Statement (.strideGroupReturn t grp ecc) := ⟨fun _ => rfl, rfl⟩
theorem sliceBoundary (t : Nat) : Statement (.sliceBoundary t) := ⟨fun _ => rfl, rfl⟩
theorem sliceGuard (t : Nat) : Statement (.sliceGuard t) := ⟨fun _ => rfl, rfl⟩
theorem scanBatchClose (t : Nat) (batch : Nat) : Statement (.scanBatchClose t batch) := ⟨fun _ => rfl, rfl⟩
theorem sideBatchClose (t : Nat) (batch : Nat) : Statement (.sideBatchClose t batch) := ⟨fun _ => rfl, rfl⟩
theorem missNotice (t : Nat) (batch : Nat) (engine : Nat) (tile : Nat) : Statement (.missNotice t batch engine tile) := ⟨fun _ => rfl, rfl⟩
theorem strWdog (t : Nat) (engine : Nat) : Statement (.strWdog t engine) := ⟨fun _ => rfl, rfl⟩
theorem podSlotsFree (t : Nat) (part : Nat) : Statement (.podSlotsFree t part) := ⟨fun _ => rfl, rfl⟩
theorem listDelivery (t : Nat) (list : Nat) : Statement (.listDelivery t list) := ⟨fun _ => rfl, rfl⟩
theorem passGrant (t : Nat) (part : Nat) : Statement (.passGrant t part) := ⟨fun _ => rfl, rfl⟩
theorem weightTileArrival (t : Nat) (pass : Nat) (layer : Nat) (tile : Nat) : Statement (.weightTileArrival t pass layer tile) := ⟨fun _ => rfl, rfl⟩
theorem layerEnd (t : Nat) (pass : Nat) : Statement (.layerEnd t pass) := ⟨fun _ => rfl, rfl⟩
theorem tileWdog (t : Nat) (tile : Nat) : Statement (.tileWdog t tile) := ⟨fun _ => rfl, rfl⟩
theorem buildWalkStart (t : Nat) (heat : Nat) : Statement (.buildWalkStart t heat) := ⟨fun _ => rfl, rfl⟩
theorem consolidationPause (t : Nat) : Statement (.consolidationPause t) := ⟨fun _ => rfl, rfl⟩
theorem stepTimeout (t : Nat) (table : Nat) (step : Nat) : Statement (.stepTimeout t table step) := ⟨fun _ => rfl, rfl⟩
theorem loadWindowEnd (t : Nat) (busy : Nat) : Statement (.loadWindowEnd t busy) := ⟨fun _ => rfl, rfl⟩
theorem migrationTimeout (t : Nat) (mig : Nat) : Statement (.migrationTimeout t mig) := ⟨fun _ => rfl, rfl⟩
theorem migrationSwitch (t : Nat) (mig : Nat) : Statement (.migrationSwitch t mig) := ⟨fun _ => rfl, rfl⟩
theorem leaseExpiry (t : Nat) (key : Nat) : Statement (.leaseExpiry t key) := ⟨fun _ => rfl, rfl⟩
theorem offerExpiry (t : Nat) (key : Nat) : Statement (.offerExpiry t key) := ⟨fun _ => rfl, rfl⟩
theorem tierSweep (t : Nat) : Statement (.tierSweep t) := ⟨fun _ => rfl, rfl⟩
theorem pacerRefill (t : Nat) (pacer : Nat) : Statement (.pacerRefill t pacer) := ⟨fun _ => rfl, rfl⟩
theorem gateChange (t : Nat) (outlet : Nat) : Statement (.gateChange t outlet) := ⟨fun _ => rfl, rfl⟩
theorem outletCommit (t : Nat) (outlet : Nat) (lane : Nat) : Statement (.outletCommit t outlet lane) := ⟨fun _ => rfl, rfl⟩
theorem promotionAge (t : Nat) (outlet : Nat) (sub : Nat) (svc : Nat) : Statement (.promotionAge t outlet sub svc) := ⟨fun _ => rfl, rfl⟩
theorem modTimeExpiry (t : Nat) (ring : Nat) : Statement (.modTimeExpiry t ring) := ⟨fun _ => rfl, rfl⟩
theorem ringFullTimeout (t : Nat) (ring : Nat) : Statement (.ringFullTimeout t ring) := ⟨fun _ => rfl, rfl⟩
theorem errorReport (t : Nat) (e : ErrReport) : Statement (.errorReport t e) := ⟨fun _ => rfl, rfl⟩
theorem graceExpiry (t : Nat) (rec : Nat) : Statement (.graceExpiry t rec) := ⟨fun _ => rfl, rfl⟩
theorem teardownGraceEnd (t : Nat) (bib : Nat) : Statement (.teardownGraceEnd t bib) := ⟨fun _ => rfl, rfl⟩
theorem teardownEnd (t : Nat) (bib : Nat) : Statement (.teardownEnd t bib) := ⟨fun _ => rfl, rfl⟩
theorem teardownStuck (t : Nat) (bib : Nat) : Statement (.teardownStuck t bib) := ⟨fun _ => rfl, rfl⟩
theorem loaderChecksDone (t : Nat) : Statement (.loaderChecksDone t) := ⟨fun _ => rfl, rfl⟩
theorem admissionTimeout (t : Nat) : Statement (.admissionTimeout t) := ⟨fun _ => rfl, rfl⟩
theorem contractCheckTimeout (t : Nat) : Statement (.contractCheckTimeout t) := ⟨fun _ => rfl, rfl⟩
theorem storeEnd (t : Nat) : Statement (.storeEnd t) := ⟨fun _ => rfl, rfl⟩
theorem drainEnd (t : Nat) : Statement (.drainEnd t) := ⟨fun _ => rfl, rfl⟩
theorem applyingEnd (t : Nat) : Statement (.applyingEnd t) := ⟨fun _ => rfl, rfl⟩
theorem flashReadDone (t : Nat) (op : Nat) (res : FlashRead) : Statement (.flashReadDone t op res) := ⟨fun _ => rfl, rfl⟩
theorem flashProgramDone (t : Nat) (op : Nat) (ok : Bool) : Statement (.flashProgramDone t op ok) := ⟨fun _ => rfl, rfl⟩
theorem flashEraseDone (t : Nat) (op : Nat) (ok : Bool) : Statement (.flashEraseDone t op ok) := ⟨fun _ => rfl, rfl⟩
theorem foldStart (t : Nat) : Statement (.foldStart t) := ⟨fun _ => rfl, rfl⟩
theorem reclaimStart (t : Nat) (target : Nat) : Statement (.reclaimStart t target) := ⟨fun _ => rfl, rfl⟩
theorem journalWriteback (t : Nat) : Statement (.journalWriteback t) := ⟨fun _ => rfl, rfl⟩
theorem dirtyWriteback (t : Nat) (tile : Nat) : Statement (.dirtyWriteback t tile) := ⟨fun _ => rfl, rfl⟩
theorem patrolRead (t : Nat) (target : Nat) (found : PatrolFinds) : Statement (.patrolRead t target found) := ⟨fun _ => rfl, rfl⟩
theorem nvBarEntry (t : Nat) (main : Nat) : Statement (.nvBarEntry t main) := ⟨fun _ => rfl, rfl⟩
theorem nvBarExit (t : Nat) (main : Nat) : Statement (.nvBarExit t main) := ⟨fun _ => rfl, rfl⟩
theorem flushEntry (t : Nat) (cause : Nat) (main : Nat) : Statement (.flushEntry t cause main) := ⟨fun _ => rfl, rfl⟩
theorem holdFloorReached (t : Nat) (hold : Nat) : Statement (.holdFloorReached t hold) := ⟨fun _ => rfl, rfl⟩
theorem flushEnd (t : Nat) : Statement (.flushEnd t) := ⟨fun _ => rfl, rfl⟩
theorem resumeReset (t : Nat) (main : Nat) : Statement (.resumeReset t main) := ⟨fun _ => rfl, rfl⟩
theorem pwrOkFall (t : Nat) : Statement (.pwrOkFall t) := ⟨fun _ => rfl, rfl⟩
theorem pwrOkRise (t : Nat) : Statement (.pwrOkRise t) := ⟨fun _ => rfl, rfl⟩
theorem resetPin (t : Nat) : Statement (.resetPin t) := ⟨fun _ => rfl, rfl⟩
theorem resetRelease (t : Nat) (straps : Straps) : Statement (.resetRelease t straps) := ⟨fun _ => rfl, rfl⟩
theorem controlWdog (t : Nat) : Statement (.controlWdog t) := ⟨fun _ => rfl, rfl⟩
theorem clockLoss (t : Nat) (clk : ClkLoss) : Statement (.clockLoss t clk) := ⟨fun _ => rfl, rfl⟩
theorem timeClockReturn (t : Nat) : Statement (.timeClockReturn t) := ⟨fun _ => rfl, rfl⟩
theorem thermalTrip (t : Nat) : Statement (.thermalTrip t) := ⟨fun _ => rfl, rfl⟩
theorem sledDiscoveryEnd (t : Nat) (sled : Nat) (info : SledInfo) : Statement (.sledDiscoveryEnd t sled info) := ⟨fun _ => rfl, rfl⟩
theorem bootStepOverrun (t : Nat) : Statement (.bootStepOverrun t) := ⟨fun _ => rfl, rfl⟩
theorem attnButtonPress (t : Nat) (slot : Nat) : Statement (.attnButtonPress t slot) := ⟨fun _ => rfl, rfl⟩
theorem attnLongPress (t : Nat) (slot : Nat) : Statement (.attnLongPress t slot) := ⟨fun _ => rfl, rfl⟩
theorem sledInsertion (t : Nat) (slot : Nat) : Statement (.sledInsertion t slot) := ⟨fun _ => rfl, rfl⟩
theorem sledRemoval (t : Nat) (slot : Nat) : Statement (.sledRemoval t slot) := ⟨fun _ => rfl, rfl⟩
theorem abortWindowEnd (t : Nat) (slot : Nat) : Statement (.abortWindowEnd t slot) := ⟨fun _ => rfl, rfl⟩
theorem sledPowerOffDone (t : Nat) (slot : Nat) : Statement (.sledPowerOffDone t slot) := ⟨fun _ => rfl, rfl⟩
theorem mctpSetEndpointId (t : Nat) (eid : Nat) : Statement (.mctpSetEndpointId t eid) := ⟨fun _ => rfl, rfl⟩
theorem mctpGetEndpointId (t : Nat) : Statement (.mctpGetEndpointId t) := ⟨fun _ => rfl, rfl⟩
theorem mctpGetVersionSupport (t : Nat) : Statement (.mctpGetVersionSupport t) := ⟨fun _ => rfl, rfl⟩
theorem mctpGetMessageType (t : Nat) : Statement (.mctpGetMessageType t) := ⟨fun _ => rfl, rfl⟩
theorem mctpGetVdmSupport (t : Nat) : Statement (.mctpGetVdmSupport t) := ⟨fun _ => rfl, rfl⟩
theorem getStatus (t : Nat) : Statement (.getStatus t) := ⟨fun _ => rfl, rfl⟩
theorem getPower (t : Nat) (sample : PowerSample) : Statement (.getPower t sample) := ⟨fun _ => rfl, rfl⟩
theorem readLog (t : Nat) (log : Nat) (sled : Nat) (off : Nat) : Statement (.readLog t log sled off) := ⟨fun _ => rfl, rfl⟩
theorem nodeReset (t : Nat) (b0 : Nat) (b1 : Nat) : Statement (.nodeReset t b0 b1) := ⟨fun _ => rfl, rfl⟩
theorem setIdentify (t : Nat) (value : Bool) : Statement (.setIdentify t value) := ⟨fun _ => rfl, rfl⟩
theorem jtagBypass (t : Nat) : Statement (.jtagBypass t) := ⟨fun _ => rfl, rfl⟩
theorem jtagIdcode (t : Nat) : Statement (.jtagIdcode t) := ⟨fun _ => rfl, rfl⟩
theorem jtagSamplePreload (t : Nat) : Statement (.jtagSamplePreload t) := ⟨fun _ => rfl, rfl⟩
theorem jtagExtest (t : Nat) : Statement (.jtagExtest t) := ⟨fun _ => rfl, rfl⟩
theorem jtagClamp (t : Nat) : Statement (.jtagClamp t) := ⟨fun _ => rfl, rfl⟩
theorem jtagHighz (t : Nat) : Statement (.jtagHighz t) := ⟨fun _ => rfl, rfl⟩
theorem tapReset (t : Nat) : Statement (.tapReset t) := ⟨fun _ => rfl, rfl⟩
theorem perstDeassert (t : Nat) (port : Nat) (aptEn : Bool) : Statement (.perstDeassert t port aptEn) := ⟨fun _ => rfl, rfl⟩
theorem ethLinkChange (t : Nat) (port : Nat) (up : Nat) (lock : Nat) : Statement (.ethLinkChange t port up lock) := ⟨fun _ => rfl, rfl⟩
theorem roceAckTimeout (t : Nat) (bib : Nat) : Statement (.roceAckTimeout t bib) := ⟨fun _ => rfl, rfl⟩
theorem roceInvalidRequest (t : Nat) (bib : Nat) (kind : RoceBad) : Statement (.roceInvalidRequest t bib kind) := ⟨fun _ => rfl, rfl⟩
theorem cnpReceived (t : Nat) (port : Nat) : Statement (.cnpReceived t port) := ⟨fun _ => rfl, rfl⟩
theorem pcieConfigRequest (t : Nat) (port : Nat) (cfg : CfgReq) : Statement (.pcieConfigRequest t port cfg) := ⟨fun _ => rfl, rfl⟩
theorem msixUnmask (t : Nat) (port : Nat) (fn : Nat) (vec : Nat) : Statement (.msixUnmask t port fn vec) := ⟨fun _ => rfl, rfl⟩
theorem ptpSendInterval (t : Nat) : Statement (.ptpSendInterval t) := ⟨fun _ => rfl, rfl⟩
theorem notifyHoldoffEnd (t : Nat) : Statement (.notifyHoldoffEnd t) := ⟨fun _ => rfl, rfl⟩
theorem flashTempSample (t : Nat) (sled : Nat) (celsius : Int) : Statement (.flashTempSample t sled celsius) := ⟨fun _ => rfl, rfl⟩
theorem holdFloorRecovered (t : Nat) (hold : Nat) : Statement (.holdFloorRecovered t hold) := ⟨fun _ => rfl, rfl⟩
theorem strideBatchReturn (t : Nat) (batch : Nat) (engine : Nat) (unit : Nat) (ecc : EccOutcome) : Statement (.strideBatchReturn t batch engine unit ecc) := ⟨fun _ => rfl, rfl⟩
theorem contractCheckDone (t : Nat) : Statement (.contractCheckDone t) := ⟨fun _ => rfl, rfl⟩
theorem progCheckTimeout (t : Nat) (req : Nat) : Statement (.progCheckTimeout t req) := ⟨fun _ => rfl, rfl⟩
theorem quoteSigned (t : Nat) : Statement (.quoteSigned t) := ⟨fun _ => rfl, rfl⟩
theorem fuseWriteDone (t : Nat) : Statement (.fuseWriteDone t) := ⟨fun _ => rfl, rfl⟩
theorem recoveryWriteDone (t : Nat) (ok : Bool) : Statement (.recoveryWriteDone t ok) := ⟨fun _ => rfl, rfl⟩
end Laws.Timed

end Sys2Proof
end

