-- ==== Sys2Proof/Laws/State.lean ====
section
/-!
SUPPORT. What each named update of the node leaves alone: one lemma per field and update, so that no proof unfolds a
record update.
-/
namespace Sys2Proof.Machine

variable (d : Dev)

/-! ## setRg -/

@[simp] theorem Dev.setRg_now (f : Fld) (v i r : Nat) : (d.setRg f v i r).now = d.now := rfl
@[simp] theorem Dev.setRg_fuses (f : Fld) (v i r : Nat) : (d.setRg f v i r).fuses = d.fuses := rfl
@[simp] theorem Dev.setRg_rom (f : Fld) (v i r : Nat) : (d.setRg f v i r).rom = d.rom := rfl
@[simp] theorem Dev.setRg_nor (f : Fld) (v i r : Nat) : (d.setRg f v i r).nor = d.nor := rfl
@[simp] theorem Dev.setRg_fresh (f : Fld) (v i r : Nat) : (d.setRg f v i r).fresh = d.fresh := rfl
@[simp] theorem Dev.setRg_jtagHold (f : Fld) (v i r : Nat) : (d.setRg f v i r).jtagHold = d.jtagHold := rfl
@[simp] theorem Dev.setRg_relAt (f : Fld) (v i r : Nat) : (d.setRg f v i r).relAt = d.relAt := rfl
@[simp] theorem Dev.setRg_thermTrip (f : Fld) (v i r : Nat) : (d.setRg f v i r).thermTrip = d.thermTrip := rfl
@[simp] theorem Dev.setRg_straps (f : Fld) (v i r : Nat) : (d.setRg f v i r).straps = d.straps := rfl
@[simp] theorem Dev.setRg_ports (f : Fld) (v i r : Nat) : (d.setRg f v i r).ports = d.ports := rfl
@[simp] theorem Dev.setRg_contracts (f : Fld) (v i r : Nat) : (d.setRg f v i r).contracts = d.contracts := rfl
@[simp] theorem Dev.setRg_bibs (f : Fld) (v i r : Nat) : (d.setRg f v i r).bibs = d.bibs := rfl
@[simp] theorem Dev.setRg_wins (f : Fld) (v i r : Nat) : (d.setRg f v i r).wins = d.wins := rfl
@[simp] theorem Dev.setRg_rings (f : Fld) (v i r : Nat) : (d.setRg f v i r).rings = d.rings := rfl
@[simp] theorem Dev.setRg_reqs (f : Fld) (v i r : Nat) : (d.setRg f v i r).reqs = d.reqs := rfl
@[simp] theorem Dev.setRg_dmas (f : Fld) (v i r : Nat) : (d.setRg f v i r).dmas = d.dmas := rfl
@[simp] theorem Dev.setRg_bufs (f : Fld) (v i r : Nat) : (d.setRg f v i r).bufs = d.bufs := rfl
@[simp] theorem Dev.setRg_recs (f : Fld) (v i r : Nat) : (d.setRg f v i r).recs = d.recs := rfl
@[simp] theorem Dev.setRg_fenced (f : Fld) (v i r : Nat) : (d.setRg f v i r).fenced = d.fenced := rfl
@[simp] theorem Dev.setRg_notifiedAt (f : Fld) (v i r : Nat) : (d.setRg f v i r).notifiedAt = d.notifiedAt := rfl
@[simp] theorem Dev.setRg_notifyHeld (f : Fld) (v i r : Nat) : (d.setRg f v i r).notifyHeld = d.notifyHeld := rfl
@[simp] theorem Dev.setRg_outlets (f : Fld) (v i r : Nat) : (d.setRg f v i r).outlets = d.outlets := rfl
@[simp] theorem Dev.setRg_queues (f : Fld) (v i r : Nat) : (d.setRg f v i r).queues = d.queues := rfl
@[simp] theorem Dev.setRg_pacers (f : Fld) (v i r : Nat) : (d.setRg f v i r).pacers = d.pacers := rfl
@[simp] theorem Dev.setRg_ptpCount (f : Fld) (v i r : Nat) : (d.setRg f v i r).ptpCount = d.ptpCount := rfl
@[simp] theorem Dev.setRg_ptpSync (f : Fld) (v i r : Nat) : (d.setRg f v i r).ptpSync = d.ptpSync := rfl
@[simp] theorem Dev.setRg_fl (f : Fld) (v i r : Nat) : (d.setRg f v i r).fl = d.fl := rfl
@[simp] theorem Dev.setRg_parts (f : Fld) (v i r : Nat) : (d.setRg f v i r).parts = d.parts := rfl
@[simp] theorem Dev.setRg_sliceMap (f : Fld) (v i r : Nat) : (d.setRg f v i r).sliceMap = d.sliceMap := rfl
@[simp] theorem Dev.setRg_ix (f : Fld) (v i r : Nat) : (d.setRg f v i r).ix = d.ix := rfl
@[simp] theorem Dev.setRg_em (f : Fld) (v i r : Nat) : (d.setRg f v i r).em = d.em := rfl
@[simp] theorem Dev.setRg_inf (f : Fld) (v i r : Nat) : (d.setRg f v i r).inf = d.inf := rfl
@[simp] theorem Dev.setRg_pl (f : Fld) (v i r : Nat) : (d.setRg f v i r).pl = d.pl := rfl
@[simp] theorem Dev.setRg_ld (f : Fld) (v i r : Nat) : (d.setRg f v i r).ld = d.ld := rfl
@[simp] theorem Dev.setRg_sl (f : Fld) (v i r : Nat) : (d.setRg f v i r).sl = d.sl := rfl
@[simp] theorem Dev.setRg_rcv (f : Fld) (v i r : Nat) : (d.setRg f v i r).rcv = d.rcv := rfl
@[simp] theorem Dev.setRg_panel (f : Fld) (v i r : Nat) : (d.setRg f v i r).panel = d.panel := rfl
@[simp] theorem Dev.setRg_costs (f : Fld) (v i r : Nat) : (d.setRg f v i r).costs = d.costs := rfl
@[simp] theorem Dev.setRg_mt (f : Fld) (v i r : Nat) : (d.setRg f v i r).mt = d.mt := rfl
@[simp] theorem Dev.setRg_measRun (f : Fld) (v i r : Nat) : (d.setRg f v i r).measRun = d.measRun := rfl
@[simp] theorem Dev.setRg_measLog (f : Fld) (v i r : Nat) : (d.setRg f v i r).measLog = d.measLog := rfl
@[simp] theorem Dev.setRg_idKey (f : Fld) (v i r : Nat) : (d.setRg f v i r).idKey = d.idKey := rfl
@[simp] theorem Dev.setRg_fwDigest (f : Fld) (v i r : Nat) : (d.setRg f v i r).fwDigest = d.fwDigest := rfl
@[simp] theorem Dev.setRg_quotes (f : Fld) (v i r : Nat) : (d.setRg f v i r).quotes = d.quotes := rfl
@[simp] theorem Dev.setRg_keyJobs (f : Fld) (v i r : Nat) : (d.setRg f v i r).keyJobs = d.keyJobs := rfl
@[simp] theorem Dev.setRg_fuseBusy (f : Fld) (v i r : Nat) : (d.setRg f v i r).fuseBusy = d.fuseBusy := rfl
@[simp] theorem Dev.setRg_jtagInstr (f : Fld) (v i r : Nat) : (d.setRg f v i r).jtagInstr = d.jtagInstr := rfl
@[simp] theorem Dev.setRg_mctpEid (f : Fld) (v i r : Nat) : (d.setRg f v i r).mctpEid = d.mctpEid := rfl
@[simp] theorem Dev.setRg_out (f : Fld) (v i r : Nat) : (d.setRg f v i r).out = d.out := rfl
@[simp] theorem Dev.setRg_draws (f : Fld) (v i r : Nat) : (d.setRg f v i r).draws = d.draws := rfl
@[simp] theorem Dev.setRg_ids (f : Fld) (v i r : Nat) : (d.setRg f v i r).ids = d.ids := rfl

/-! ## bump -/

@[simp] theorem Dev.bump_now (f : Fld) (n i r : Nat) : (d.bump f n i r).now = d.now := rfl
@[simp] theorem Dev.bump_fuses (f : Fld) (n i r : Nat) : (d.bump f n i r).fuses = d.fuses := rfl
@[simp] theorem Dev.bump_rom (f : Fld) (n i r : Nat) : (d.bump f n i r).rom = d.rom := rfl
@[simp] theorem Dev.bump_nor (f : Fld) (n i r : Nat) : (d.bump f n i r).nor = d.nor := rfl
@[simp] theorem Dev.bump_fresh (f : Fld) (n i r : Nat) : (d.bump f n i r).fresh = d.fresh := rfl
@[simp] theorem Dev.bump_jtagHold (f : Fld) (n i r : Nat) : (d.bump f n i r).jtagHold = d.jtagHold := rfl
@[simp] theorem Dev.bump_relAt (f : Fld) (n i r : Nat) : (d.bump f n i r).relAt = d.relAt := rfl
@[simp] theorem Dev.bump_thermTrip (f : Fld) (n i r : Nat) : (d.bump f n i r).thermTrip = d.thermTrip := rfl
@[simp] theorem Dev.bump_straps (f : Fld) (n i r : Nat) : (d.bump f n i r).straps = d.straps := rfl
@[simp] theorem Dev.bump_ports (f : Fld) (n i r : Nat) : (d.bump f n i r).ports = d.ports := rfl
@[simp] theorem Dev.bump_contracts (f : Fld) (n i r : Nat) : (d.bump f n i r).contracts = d.contracts := rfl
@[simp] theorem Dev.bump_bibs (f : Fld) (n i r : Nat) : (d.bump f n i r).bibs = d.bibs := rfl
@[simp] theorem Dev.bump_wins (f : Fld) (n i r : Nat) : (d.bump f n i r).wins = d.wins := rfl
@[simp] theorem Dev.bump_rings (f : Fld) (n i r : Nat) : (d.bump f n i r).rings = d.rings := rfl
@[simp] theorem Dev.bump_reqs (f : Fld) (n i r : Nat) : (d.bump f n i r).reqs = d.reqs := rfl
@[simp] theorem Dev.bump_dmas (f : Fld) (n i r : Nat) : (d.bump f n i r).dmas = d.dmas := rfl
@[simp] theorem Dev.bump_bufs (f : Fld) (n i r : Nat) : (d.bump f n i r).bufs = d.bufs := rfl
@[simp] theorem Dev.bump_recs (f : Fld) (n i r : Nat) : (d.bump f n i r).recs = d.recs := rfl
@[simp] theorem Dev.bump_fenced (f : Fld) (n i r : Nat) : (d.bump f n i r).fenced = d.fenced := rfl
@[simp] theorem Dev.bump_notifiedAt (f : Fld) (n i r : Nat) : (d.bump f n i r).notifiedAt = d.notifiedAt := rfl
@[simp] theorem Dev.bump_notifyHeld (f : Fld) (n i r : Nat) : (d.bump f n i r).notifyHeld = d.notifyHeld := rfl
@[simp] theorem Dev.bump_outlets (f : Fld) (n i r : Nat) : (d.bump f n i r).outlets = d.outlets := rfl
@[simp] theorem Dev.bump_queues (f : Fld) (n i r : Nat) : (d.bump f n i r).queues = d.queues := rfl
@[simp] theorem Dev.bump_pacers (f : Fld) (n i r : Nat) : (d.bump f n i r).pacers = d.pacers := rfl
@[simp] theorem Dev.bump_ptpCount (f : Fld) (n i r : Nat) : (d.bump f n i r).ptpCount = d.ptpCount := rfl
@[simp] theorem Dev.bump_ptpSync (f : Fld) (n i r : Nat) : (d.bump f n i r).ptpSync = d.ptpSync := rfl
@[simp] theorem Dev.bump_fl (f : Fld) (n i r : Nat) : (d.bump f n i r).fl = d.fl := rfl
@[simp] theorem Dev.bump_parts (f : Fld) (n i r : Nat) : (d.bump f n i r).parts = d.parts := rfl
@[simp] theorem Dev.bump_sliceMap (f : Fld) (n i r : Nat) : (d.bump f n i r).sliceMap = d.sliceMap := rfl
@[simp] theorem Dev.bump_ix (f : Fld) (n i r : Nat) : (d.bump f n i r).ix = d.ix := rfl
@[simp] theorem Dev.bump_em (f : Fld) (n i r : Nat) : (d.bump f n i r).em = d.em := rfl
@[simp] theorem Dev.bump_inf (f : Fld) (n i r : Nat) : (d.bump f n i r).inf = d.inf := rfl
@[simp] theorem Dev.bump_pl (f : Fld) (n i r : Nat) : (d.bump f n i r).pl = d.pl := rfl
@[simp] theorem Dev.bump_ld (f : Fld) (n i r : Nat) : (d.bump f n i r).ld = d.ld := rfl
@[simp] theorem Dev.bump_sl (f : Fld) (n i r : Nat) : (d.bump f n i r).sl = d.sl := rfl
@[simp] theorem Dev.bump_rcv (f : Fld) (n i r : Nat) : (d.bump f n i r).rcv = d.rcv := rfl
@[simp] theorem Dev.bump_panel (f : Fld) (n i r : Nat) : (d.bump f n i r).panel = d.panel := rfl
@[simp] theorem Dev.bump_costs (f : Fld) (n i r : Nat) : (d.bump f n i r).costs = d.costs := rfl
@[simp] theorem Dev.bump_mt (f : Fld) (n i r : Nat) : (d.bump f n i r).mt = d.mt := rfl
@[simp] theorem Dev.bump_measRun (f : Fld) (n i r : Nat) : (d.bump f n i r).measRun = d.measRun := rfl
@[simp] theorem Dev.bump_measLog (f : Fld) (n i r : Nat) : (d.bump f n i r).measLog = d.measLog := rfl
@[simp] theorem Dev.bump_idKey (f : Fld) (n i r : Nat) : (d.bump f n i r).idKey = d.idKey := rfl
@[simp] theorem Dev.bump_fwDigest (f : Fld) (n i r : Nat) : (d.bump f n i r).fwDigest = d.fwDigest := rfl
@[simp] theorem Dev.bump_quotes (f : Fld) (n i r : Nat) : (d.bump f n i r).quotes = d.quotes := rfl
@[simp] theorem Dev.bump_keyJobs (f : Fld) (n i r : Nat) : (d.bump f n i r).keyJobs = d.keyJobs := rfl
@[simp] theorem Dev.bump_fuseBusy (f : Fld) (n i r : Nat) : (d.bump f n i r).fuseBusy = d.fuseBusy := rfl
@[simp] theorem Dev.bump_jtagInstr (f : Fld) (n i r : Nat) : (d.bump f n i r).jtagInstr = d.jtagInstr := rfl
@[simp] theorem Dev.bump_mctpEid (f : Fld) (n i r : Nat) : (d.bump f n i r).mctpEid = d.mctpEid := rfl
@[simp] theorem Dev.bump_out (f : Fld) (n i r : Nat) : (d.bump f n i r).out = d.out := rfl
@[simp] theorem Dev.bump_draws (f : Fld) (n i r : Nat) : (d.bump f n i r).draws = d.draws := rfl
@[simp] theorem Dev.bump_ids (f : Fld) (n i r : Nat) : (d.bump f n i r).ids = d.ids := rfl

/-! ## raiseTo -/

@[simp] theorem Dev.raiseTo_now (f : Fld) (v i r : Nat) : (d.raiseTo f v i r).now = d.now := rfl
@[simp] theorem Dev.raiseTo_fuses (f : Fld) (v i r : Nat) : (d.raiseTo f v i r).fuses = d.fuses := rfl
@[simp] theorem Dev.raiseTo_rom (f : Fld) (v i r : Nat) : (d.raiseTo f v i r).rom = d.rom := rfl
@[simp] theorem Dev.raiseTo_nor (f : Fld) (v i r : Nat) : (d.raiseTo f v i r).nor = d.nor := rfl
@[simp] theorem Dev.raiseTo_fresh (f : Fld) (v i r : Nat) : (d.raiseTo f v i r).fresh = d.fresh := rfl
@[simp] theorem Dev.raiseTo_jtagHold (f : Fld) (v i r : Nat) : (d.raiseTo f v i r).jtagHold = d.jtagHold := rfl
@[simp] theorem Dev.raiseTo_relAt (f : Fld) (v i r : Nat) : (d.raiseTo f v i r).relAt = d.relAt := rfl
@[simp] theorem Dev.raiseTo_thermTrip (f : Fld) (v i r : Nat) : (d.raiseTo f v i r).thermTrip = d.thermTrip := rfl
@[simp] theorem Dev.raiseTo_straps (f : Fld) (v i r : Nat) : (d.raiseTo f v i r).straps = d.straps := rfl
@[simp] theorem Dev.raiseTo_ports (f : Fld) (v i r : Nat) : (d.raiseTo f v i r).ports = d.ports := rfl
@[simp] theorem Dev.raiseTo_contracts (f : Fld) (v i r : Nat) : (d.raiseTo f v i r).contracts = d.contracts := rfl
@[simp] theorem Dev.raiseTo_bibs (f : Fld) (v i r : Nat) : (d.raiseTo f v i r).bibs = d.bibs := rfl
@[simp] theorem Dev.raiseTo_wins (f : Fld) (v i r : Nat) : (d.raiseTo f v i r).wins = d.wins := rfl
@[simp] theorem Dev.raiseTo_rings (f : Fld) (v i r : Nat) : (d.raiseTo f v i r).rings = d.rings := rfl
@[simp] theorem Dev.raiseTo_reqs (f : Fld) (v i r : Nat) : (d.raiseTo f v i r).reqs = d.reqs := rfl
@[simp] theorem Dev.raiseTo_dmas (f : Fld) (v i r : Nat) : (d.raiseTo f v i r).dmas = d.dmas := rfl
@[simp] theorem Dev.raiseTo_bufs (f : Fld) (v i r : Nat) : (d.raiseTo f v i r).bufs = d.bufs := rfl
@[simp] theorem Dev.raiseTo_recs (f : Fld) (v i r : Nat) : (d.raiseTo f v i r).recs = d.recs := rfl
@[simp] theorem Dev.raiseTo_fenced (f : Fld) (v i r : Nat) : (d.raiseTo f v i r).fenced = d.fenced := rfl
@[simp] theorem Dev.raiseTo_notifiedAt (f : Fld) (v i r : Nat) : (d.raiseTo f v i r).notifiedAt = d.notifiedAt := rfl
@[simp] theorem Dev.raiseTo_notifyHeld (f : Fld) (v i r : Nat) : (d.raiseTo f v i r).notifyHeld = d.notifyHeld := rfl
@[simp] theorem Dev.raiseTo_outlets (f : Fld) (v i r : Nat) : (d.raiseTo f v i r).outlets = d.outlets := rfl
@[simp] theorem Dev.raiseTo_queues (f : Fld) (v i r : Nat) : (d.raiseTo f v i r).queues = d.queues := rfl
@[simp] theorem Dev.raiseTo_pacers (f : Fld) (v i r : Nat) : (d.raiseTo f v i r).pacers = d.pacers := rfl
@[simp] theorem Dev.raiseTo_ptpCount (f : Fld) (v i r : Nat) : (d.raiseTo f v i r).ptpCount = d.ptpCount := rfl
@[simp] theorem Dev.raiseTo_ptpSync (f : Fld) (v i r : Nat) : (d.raiseTo f v i r).ptpSync = d.ptpSync := rfl
@[simp] theorem Dev.raiseTo_fl (f : Fld) (v i r : Nat) : (d.raiseTo f v i r).fl = d.fl := rfl
@[simp] theorem Dev.raiseTo_parts (f : Fld) (v i r : Nat) : (d.raiseTo f v i r).parts = d.parts := rfl
@[simp] theorem Dev.raiseTo_sliceMap (f : Fld) (v i r : Nat) : (d.raiseTo f v i r).sliceMap = d.sliceMap := rfl
@[simp] theorem Dev.raiseTo_ix (f : Fld) (v i r : Nat) : (d.raiseTo f v i r).ix = d.ix := rfl
@[simp] theorem Dev.raiseTo_em (f : Fld) (v i r : Nat) : (d.raiseTo f v i r).em = d.em := rfl
@[simp] theorem Dev.raiseTo_inf (f : Fld) (v i r : Nat) : (d.raiseTo f v i r).inf = d.inf := rfl
@[simp] theorem Dev.raiseTo_pl (f : Fld) (v i r : Nat) : (d.raiseTo f v i r).pl = d.pl := rfl
@[simp] theorem Dev.raiseTo_ld (f : Fld) (v i r : Nat) : (d.raiseTo f v i r).ld = d.ld := rfl
@[simp] theorem Dev.raiseTo_sl (f : Fld) (v i r : Nat) : (d.raiseTo f v i r).sl = d.sl := rfl
@[simp] theorem Dev.raiseTo_rcv (f : Fld) (v i r : Nat) : (d.raiseTo f v i r).rcv = d.rcv := rfl
@[simp] theorem Dev.raiseTo_panel (f : Fld) (v i r : Nat) : (d.raiseTo f v i r).panel = d.panel := rfl
@[simp] theorem Dev.raiseTo_costs (f : Fld) (v i r : Nat) : (d.raiseTo f v i r).costs = d.costs := rfl
@[simp] theorem Dev.raiseTo_mt (f : Fld) (v i r : Nat) : (d.raiseTo f v i r).mt = d.mt := rfl
@[simp] theorem Dev.raiseTo_measRun (f : Fld) (v i r : Nat) : (d.raiseTo f v i r).measRun = d.measRun := rfl
@[simp] theorem Dev.raiseTo_measLog (f : Fld) (v i r : Nat) : (d.raiseTo f v i r).measLog = d.measLog := rfl
@[simp] theorem Dev.raiseTo_idKey (f : Fld) (v i r : Nat) : (d.raiseTo f v i r).idKey = d.idKey := rfl
@[simp] theorem Dev.raiseTo_fwDigest (f : Fld) (v i r : Nat) : (d.raiseTo f v i r).fwDigest = d.fwDigest := rfl
@[simp] theorem Dev.raiseTo_quotes (f : Fld) (v i r : Nat) : (d.raiseTo f v i r).quotes = d.quotes := rfl
@[simp] theorem Dev.raiseTo_keyJobs (f : Fld) (v i r : Nat) : (d.raiseTo f v i r).keyJobs = d.keyJobs := rfl
@[simp] theorem Dev.raiseTo_fuseBusy (f : Fld) (v i r : Nat) : (d.raiseTo f v i r).fuseBusy = d.fuseBusy := rfl
@[simp] theorem Dev.raiseTo_jtagInstr (f : Fld) (v i r : Nat) : (d.raiseTo f v i r).jtagInstr = d.jtagInstr := rfl
@[simp] theorem Dev.raiseTo_mctpEid (f : Fld) (v i r : Nat) : (d.raiseTo f v i r).mctpEid = d.mctpEid := rfl
@[simp] theorem Dev.raiseTo_out (f : Fld) (v i r : Nat) : (d.raiseTo f v i r).out = d.out := rfl
@[simp] theorem Dev.raiseTo_draws (f : Fld) (v i r : Nat) : (d.raiseTo f v i r).draws = d.draws := rfl
@[simp] theorem Dev.raiseTo_ids (f : Fld) (v i r : Nat) : (d.raiseTo f v i r).ids = d.ids := rfl

/-! ## emit -/

@[simp] theorem Dev.emit_now (e : Emit) : (d.emit e).now = d.now := rfl
@[simp] theorem Dev.emit_regs (e : Emit) : (d.emit e).regs = d.regs := rfl
@[simp] theorem Dev.emit_fuses (e : Emit) : (d.emit e).fuses = d.fuses := rfl
@[simp] theorem Dev.emit_rom (e : Emit) : (d.emit e).rom = d.rom := rfl
@[simp] theorem Dev.emit_nor (e : Emit) : (d.emit e).nor = d.nor := rfl
@[simp] theorem Dev.emit_fresh (e : Emit) : (d.emit e).fresh = d.fresh := rfl
@[simp] theorem Dev.emit_jtagHold (e : Emit) : (d.emit e).jtagHold = d.jtagHold := rfl
@[simp] theorem Dev.emit_relAt (e : Emit) : (d.emit e).relAt = d.relAt := rfl
@[simp] theorem Dev.emit_thermTrip (e : Emit) : (d.emit e).thermTrip = d.thermTrip := rfl
@[simp] theorem Dev.emit_straps (e : Emit) : (d.emit e).straps = d.straps := rfl
@[simp] theorem Dev.emit_ports (e : Emit) : (d.emit e).ports = d.ports := rfl
@[simp] theorem Dev.emit_contracts (e : Emit) : (d.emit e).contracts = d.contracts := rfl
@[simp] theorem Dev.emit_bibs (e : Emit) : (d.emit e).bibs = d.bibs := rfl
@[simp] theorem Dev.emit_wins (e : Emit) : (d.emit e).wins = d.wins := rfl
@[simp] theorem Dev.emit_rings (e : Emit) : (d.emit e).rings = d.rings := rfl
@[simp] theorem Dev.emit_reqs (e : Emit) : (d.emit e).reqs = d.reqs := rfl
@[simp] theorem Dev.emit_dmas (e : Emit) : (d.emit e).dmas = d.dmas := rfl
@[simp] theorem Dev.emit_bufs (e : Emit) : (d.emit e).bufs = d.bufs := rfl
@[simp] theorem Dev.emit_recs (e : Emit) : (d.emit e).recs = d.recs := rfl
@[simp] theorem Dev.emit_fenced (e : Emit) : (d.emit e).fenced = d.fenced := rfl
@[simp] theorem Dev.emit_notifiedAt (e : Emit) : (d.emit e).notifiedAt = d.notifiedAt := rfl
@[simp] theorem Dev.emit_notifyHeld (e : Emit) : (d.emit e).notifyHeld = d.notifyHeld := rfl
@[simp] theorem Dev.emit_outlets (e : Emit) : (d.emit e).outlets = d.outlets := rfl
@[simp] theorem Dev.emit_queues (e : Emit) : (d.emit e).queues = d.queues := rfl
@[simp] theorem Dev.emit_pacers (e : Emit) : (d.emit e).pacers = d.pacers := rfl
@[simp] theorem Dev.emit_ptpCount (e : Emit) : (d.emit e).ptpCount = d.ptpCount := rfl
@[simp] theorem Dev.emit_ptpSync (e : Emit) : (d.emit e).ptpSync = d.ptpSync := rfl
@[simp] theorem Dev.emit_fl (e : Emit) : (d.emit e).fl = d.fl := rfl
@[simp] theorem Dev.emit_parts (e : Emit) : (d.emit e).parts = d.parts := rfl
@[simp] theorem Dev.emit_sliceMap (e : Emit) : (d.emit e).sliceMap = d.sliceMap := rfl
@[simp] theorem Dev.emit_ix (e : Emit) : (d.emit e).ix = d.ix := rfl
@[simp] theorem Dev.emit_em (e : Emit) : (d.emit e).em = d.em := rfl
@[simp] theorem Dev.emit_inf (e : Emit) : (d.emit e).inf = d.inf := rfl
@[simp] theorem Dev.emit_pl (e : Emit) : (d.emit e).pl = d.pl := rfl
@[simp] theorem Dev.emit_ld (e : Emit) : (d.emit e).ld = d.ld := rfl
@[simp] theorem Dev.emit_sl (e : Emit) : (d.emit e).sl = d.sl := rfl
@[simp] theorem Dev.emit_rcv (e : Emit) : (d.emit e).rcv = d.rcv := rfl
@[simp] theorem Dev.emit_panel (e : Emit) : (d.emit e).panel = d.panel := rfl
@[simp] theorem Dev.emit_costs (e : Emit) : (d.emit e).costs = d.costs := rfl
@[simp] theorem Dev.emit_mt (e : Emit) : (d.emit e).mt = d.mt := rfl
@[simp] theorem Dev.emit_measRun (e : Emit) : (d.emit e).measRun = d.measRun := rfl
@[simp] theorem Dev.emit_measLog (e : Emit) : (d.emit e).measLog = d.measLog := rfl
@[simp] theorem Dev.emit_idKey (e : Emit) : (d.emit e).idKey = d.idKey := rfl
@[simp] theorem Dev.emit_fwDigest (e : Emit) : (d.emit e).fwDigest = d.fwDigest := rfl
@[simp] theorem Dev.emit_quotes (e : Emit) : (d.emit e).quotes = d.quotes := rfl
@[simp] theorem Dev.emit_keyJobs (e : Emit) : (d.emit e).keyJobs = d.keyJobs := rfl
@[simp] theorem Dev.emit_fuseBusy (e : Emit) : (d.emit e).fuseBusy = d.fuseBusy := rfl
@[simp] theorem Dev.emit_jtagInstr (e : Emit) : (d.emit e).jtagInstr = d.jtagInstr := rfl
@[simp] theorem Dev.emit_mctpEid (e : Emit) : (d.emit e).mctpEid = d.mctpEid := rfl
@[simp] theorem Dev.emit_draws (e : Emit) : (d.emit e).draws = d.draws := rfl
@[simp] theorem Dev.emit_ids (e : Emit) : (d.emit e).ids = d.ids := rfl

/-! ## advance -/

@[simp] theorem Dev.advance_regs (t : Nat) : (d.advance t).regs = d.regs := rfl
@[simp] theorem Dev.advance_fuses (t : Nat) : (d.advance t).fuses = d.fuses := rfl
@[simp] theorem Dev.advance_rom (t : Nat) : (d.advance t).rom = d.rom := rfl
@[simp] theorem Dev.advance_nor (t : Nat) : (d.advance t).nor = d.nor := rfl
@[simp] theorem Dev.advance_fresh (t : Nat) : (d.advance t).fresh = d.fresh := rfl
@[simp] theorem Dev.advance_jtagHold (t : Nat) : (d.advance t).jtagHold = d.jtagHold := rfl
@[simp] theorem Dev.advance_relAt (t : Nat) : (d.advance t).relAt = d.relAt := rfl
@[simp] theorem Dev.advance_thermTrip (t : Nat) : (d.advance t).thermTrip = d.thermTrip := rfl
@[simp] theorem Dev.advance_straps (t : Nat) : (d.advance t).straps = d.straps := rfl
@[simp] theorem Dev.advance_ports (t : Nat) : (d.advance t).ports = d.ports := rfl
@[simp] theorem Dev.advance_contracts (t : Nat) : (d.advance t).contracts = d.contracts := rfl
@[simp] theorem Dev.advance_bibs (t : Nat) : (d.advance t).bibs = d.bibs := rfl
@[simp] theorem Dev.advance_wins (t : Nat) : (d.advance t).wins = d.wins := rfl
@[simp] theorem Dev.advance_rings (t : Nat) : (d.advance t).rings = d.rings := rfl
@[simp] theorem Dev.advance_reqs (t : Nat) : (d.advance t).reqs = d.reqs := rfl
@[simp] theorem Dev.advance_dmas (t : Nat) : (d.advance t).dmas = d.dmas := rfl
@[simp] theorem Dev.advance_bufs (t : Nat) : (d.advance t).bufs = d.bufs := rfl
@[simp] theorem Dev.advance_recs (t : Nat) : (d.advance t).recs = d.recs := rfl
@[simp] theorem Dev.advance_fenced (t : Nat) : (d.advance t).fenced = d.fenced := rfl
@[simp] theorem Dev.advance_notifiedAt (t : Nat) : (d.advance t).notifiedAt = d.notifiedAt := rfl
@[simp] theorem Dev.advance_notifyHeld (t : Nat) : (d.advance t).notifyHeld = d.notifyHeld := rfl
@[simp] theorem Dev.advance_outlets (t : Nat) : (d.advance t).outlets = d.outlets := rfl
@[simp] theorem Dev.advance_queues (t : Nat) : (d.advance t).queues = d.queues := rfl
@[simp] theorem Dev.advance_pacers (t : Nat) : (d.advance t).pacers = d.pacers := rfl
@[simp] theorem Dev.advance_ptpCount (t : Nat) : (d.advance t).ptpCount = d.ptpCount := rfl
@[simp] theorem Dev.advance_ptpSync (t : Nat) : (d.advance t).ptpSync = d.ptpSync := rfl
@[simp] theorem Dev.advance_fl (t : Nat) : (d.advance t).fl = d.fl := rfl
@[simp] theorem Dev.advance_parts (t : Nat) : (d.advance t).parts = d.parts := rfl
@[simp] theorem Dev.advance_sliceMap (t : Nat) : (d.advance t).sliceMap = d.sliceMap := rfl
@[simp] theorem Dev.advance_ix (t : Nat) : (d.advance t).ix = d.ix := rfl
@[simp] theorem Dev.advance_em (t : Nat) : (d.advance t).em = d.em := rfl
@[simp] theorem Dev.advance_inf (t : Nat) : (d.advance t).inf = d.inf := rfl
@[simp] theorem Dev.advance_pl (t : Nat) : (d.advance t).pl = d.pl := rfl
@[simp] theorem Dev.advance_ld (t : Nat) : (d.advance t).ld = d.ld := rfl
@[simp] theorem Dev.advance_sl (t : Nat) : (d.advance t).sl = d.sl := rfl
@[simp] theorem Dev.advance_rcv (t : Nat) : (d.advance t).rcv = d.rcv := rfl
@[simp] theorem Dev.advance_panel (t : Nat) : (d.advance t).panel = d.panel := rfl
@[simp] theorem Dev.advance_costs (t : Nat) : (d.advance t).costs = d.costs := rfl
@[simp] theorem Dev.advance_mt (t : Nat) : (d.advance t).mt = d.mt := rfl
@[simp] theorem Dev.advance_measRun (t : Nat) : (d.advance t).measRun = d.measRun := rfl
@[simp] theorem Dev.advance_measLog (t : Nat) : (d.advance t).measLog = d.measLog := rfl
@[simp] theorem Dev.advance_idKey (t : Nat) : (d.advance t).idKey = d.idKey := rfl
@[simp] theorem Dev.advance_fwDigest (t : Nat) : (d.advance t).fwDigest = d.fwDigest := rfl
@[simp] theorem Dev.advance_quotes (t : Nat) : (d.advance t).quotes = d.quotes := rfl
@[simp] theorem Dev.advance_keyJobs (t : Nat) : (d.advance t).keyJobs = d.keyJobs := rfl
@[simp] theorem Dev.advance_fuseBusy (t : Nat) : (d.advance t).fuseBusy = d.fuseBusy := rfl
@[simp] theorem Dev.advance_jtagInstr (t : Nat) : (d.advance t).jtagInstr = d.jtagInstr := rfl
@[simp] theorem Dev.advance_mctpEid (t : Nat) : (d.advance t).mctpEid = d.mctpEid := rfl
@[simp] theorem Dev.advance_out (t : Nat) : (d.advance t).out = d.out := rfl
@[simp] theorem Dev.advance_draws (t : Nat) : (d.advance t).draws = d.draws := rfl
@[simp] theorem Dev.advance_ids (t : Nat) : (d.advance t).ids = d.ids := rfl

/-! ## setBib -/

@[simp] theorem Dev.setBib_now (b : Nat) (v : Bib) : (d.setBib b v).now = d.now := rfl
@[simp] theorem Dev.setBib_regs (b : Nat) (v : Bib) : (d.setBib b v).regs = d.regs := rfl
@[simp] theorem Dev.setBib_fuses (b : Nat) (v : Bib) : (d.setBib b v).fuses = d.fuses := rfl
@[simp] theorem Dev.setBib_rom (b : Nat) (v : Bib) : (d.setBib b v).rom = d.rom := rfl
@[simp] theorem Dev.setBib_nor (b : Nat) (v : Bib) : (d.setBib b v).nor = d.nor := rfl
@[simp] theorem Dev.setBib_fresh (b : Nat) (v : Bib) : (d.setBib b v).fresh = d.fresh := rfl
@[simp] theorem Dev.setBib_jtagHold (b : Nat) (v : Bib) : (d.setBib b v).jtagHold = d.jtagHold := rfl
@[simp] theorem Dev.setBib_relAt (b : Nat) (v : Bib) : (d.setBib b v).relAt = d.relAt := rfl
@[simp] theorem Dev.setBib_thermTrip (b : Nat) (v : Bib) : (d.setBib b v).thermTrip = d.thermTrip := rfl
@[simp] theorem Dev.setBib_straps (b : Nat) (v : Bib) : (d.setBib b v).straps = d.straps := rfl
@[simp] theorem Dev.setBib_ports (b : Nat) (v : Bib) : (d.setBib b v).ports = d.ports := rfl
@[simp] theorem Dev.setBib_contracts (b : Nat) (v : Bib) : (d.setBib b v).contracts = d.contracts := rfl
@[simp] theorem Dev.setBib_wins (b : Nat) (v : Bib) : (d.setBib b v).wins = d.wins := rfl
@[simp] theorem Dev.setBib_rings (b : Nat) (v : Bib) : (d.setBib b v).rings = d.rings := rfl
@[simp] theorem Dev.setBib_reqs (b : Nat) (v : Bib) : (d.setBib b v).reqs = d.reqs := rfl
@[simp] theorem Dev.setBib_dmas (b : Nat) (v : Bib) : (d.setBib b v).dmas = d.dmas := rfl
@[simp] theorem Dev.setBib_bufs (b : Nat) (v : Bib) : (d.setBib b v).bufs = d.bufs := rfl
@[simp] theorem Dev.setBib_recs (b : Nat) (v : Bib) : (d.setBib b v).recs = d.recs := rfl
@[simp] theorem Dev.setBib_fenced (b : Nat) (v : Bib) : (d.setBib b v).fenced = d.fenced := rfl
@[simp] theorem Dev.setBib_notifiedAt (b : Nat) (v : Bib) : (d.setBib b v).notifiedAt = d.notifiedAt := rfl
@[simp] theorem Dev.setBib_notifyHeld (b : Nat) (v : Bib) : (d.setBib b v).notifyHeld = d.notifyHeld := rfl
@[simp] theorem Dev.setBib_outlets (b : Nat) (v : Bib) : (d.setBib b v).outlets = d.outlets := rfl
@[simp] theorem Dev.setBib_queues (b : Nat) (v : Bib) : (d.setBib b v).queues = d.queues := rfl
@[simp] theorem Dev.setBib_pacers (b : Nat) (v : Bib) : (d.setBib b v).pacers = d.pacers := rfl
@[simp] theorem Dev.setBib_ptpCount (b : Nat) (v : Bib) : (d.setBib b v).ptpCount = d.ptpCount := rfl
@[simp] theorem Dev.setBib_ptpSync (b : Nat) (v : Bib) : (d.setBib b v).ptpSync = d.ptpSync := rfl
@[simp] theorem Dev.setBib_fl (b : Nat) (v : Bib) : (d.setBib b v).fl = d.fl := rfl
@[simp] theorem Dev.setBib_parts (b : Nat) (v : Bib) : (d.setBib b v).parts = d.parts := rfl
@[simp] theorem Dev.setBib_sliceMap (b : Nat) (v : Bib) : (d.setBib b v).sliceMap = d.sliceMap := rfl
@[simp] theorem Dev.setBib_ix (b : Nat) (v : Bib) : (d.setBib b v).ix = d.ix := rfl
@[simp] theorem Dev.setBib_em (b : Nat) (v : Bib) : (d.setBib b v).em = d.em := rfl
@[simp] theorem Dev.setBib_inf (b : Nat) (v : Bib) : (d.setBib b v).inf = d.inf := rfl
@[simp] theorem Dev.setBib_pl (b : Nat) (v : Bib) : (d.setBib b v).pl = d.pl := rfl
@[simp] theorem Dev.setBib_ld (b : Nat) (v : Bib) : (d.setBib b v).ld = d.ld := rfl
@[simp] theorem Dev.setBib_sl (b : Nat) (v : Bib) : (d.setBib b v).sl = d.sl := rfl
@[simp] theorem Dev.setBib_rcv (b : Nat) (v : Bib) : (d.setBib b v).rcv = d.rcv := rfl
@[simp] theorem Dev.setBib_panel (b : Nat) (v : Bib) : (d.setBib b v).panel = d.panel := rfl
@[simp] theorem Dev.setBib_costs (b : Nat) (v : Bib) : (d.setBib b v).costs = d.costs := rfl
@[simp] theorem Dev.setBib_mt (b : Nat) (v : Bib) : (d.setBib b v).mt = d.mt := rfl
@[simp] theorem Dev.setBib_measRun (b : Nat) (v : Bib) : (d.setBib b v).measRun = d.measRun := rfl
@[simp] theorem Dev.setBib_measLog (b : Nat) (v : Bib) : (d.setBib b v).measLog = d.measLog := rfl
@[simp] theorem Dev.setBib_idKey (b : Nat) (v : Bib) : (d.setBib b v).idKey = d.idKey := rfl
@[simp] theorem Dev.setBib_fwDigest (b : Nat) (v : Bib) : (d.setBib b v).fwDigest = d.fwDigest := rfl
@[simp] theorem Dev.setBib_quotes (b : Nat) (v : Bib) : (d.setBib b v).quotes = d.quotes := rfl
@[simp] theorem Dev.setBib_keyJobs (b : Nat) (v : Bib) : (d.setBib b v).keyJobs = d.keyJobs := rfl
@[simp] theorem Dev.setBib_fuseBusy (b : Nat) (v : Bib) : (d.setBib b v).fuseBusy = d.fuseBusy := rfl
@[simp] theorem Dev.setBib_jtagInstr (b : Nat) (v : Bib) : (d.setBib b v).jtagInstr = d.jtagInstr := rfl
@[simp] theorem Dev.setBib_mctpEid (b : Nat) (v : Bib) : (d.setBib b v).mctpEid = d.mctpEid := rfl
@[simp] theorem Dev.setBib_out (b : Nat) (v : Bib) : (d.setBib b v).out = d.out := rfl
@[simp] theorem Dev.setBib_draws (b : Nat) (v : Bib) : (d.setBib b v).draws = d.draws := rfl
@[simp] theorem Dev.setBib_ids (b : Nat) (v : Bib) : (d.setBib b v).ids = d.ids := rfl

/-! ## updBib -/

@[simp] theorem Dev.updBib_now (b : Nat) (f : Bib → Bib) : (d.updBib b f).now = d.now := rfl
@[simp] theorem Dev.updBib_regs (b : Nat) (f : Bib → Bib) : (d.updBib b f).regs = d.regs := rfl
@[simp] theorem Dev.updBib_fuses (b : Nat) (f : Bib → Bib) : (d.updBib b f).fuses = d.fuses := rfl
@[simp] theorem Dev.updBib_rom (b : Nat) (f : Bib → Bib) : (d.updBib b f).rom = d.rom := rfl
@[simp] theorem Dev.updBib_nor (b : Nat) (f : Bib → Bib) : (d.updBib b f).nor = d.nor := rfl
@[simp] theorem Dev.updBib_fresh (b : Nat) (f : Bib → Bib) : (d.updBib b f).fresh = d.fresh := rfl
@[simp] theorem Dev.updBib_jtagHold (b : Nat) (f : Bib → Bib) : (d.updBib b f).jtagHold = d.jtagHold := rfl
@[simp] theorem Dev.updBib_relAt (b : Nat) (f : Bib → Bib) : (d.updBib b f).relAt = d.relAt := rfl
@[simp] theorem Dev.updBib_thermTrip (b : Nat) (f : Bib → Bib) : (d.updBib b f).thermTrip = d.thermTrip := rfl
@[simp] theorem Dev.updBib_straps (b : Nat) (f : Bib → Bib) : (d.updBib b f).straps = d.straps := rfl
@[simp] theorem Dev.updBib_ports (b : Nat) (f : Bib → Bib) : (d.updBib b f).ports = d.ports := rfl
@[simp] theorem Dev.updBib_contracts (b : Nat) (f : Bib → Bib) : (d.updBib b f).contracts = d.contracts := rfl
@[simp] theorem Dev.updBib_wins (b : Nat) (f : Bib → Bib) : (d.updBib b f).wins = d.wins := rfl
@[simp] theorem Dev.updBib_rings (b : Nat) (f : Bib → Bib) : (d.updBib b f).rings = d.rings := rfl
@[simp] theorem Dev.updBib_reqs (b : Nat) (f : Bib → Bib) : (d.updBib b f).reqs = d.reqs := rfl
@[simp] theorem Dev.updBib_dmas (b : Nat) (f : Bib → Bib) : (d.updBib b f).dmas = d.dmas := rfl
@[simp] theorem Dev.updBib_bufs (b : Nat) (f : Bib → Bib) : (d.updBib b f).bufs = d.bufs := rfl
@[simp] theorem Dev.updBib_recs (b : Nat) (f : Bib → Bib) : (d.updBib b f).recs = d.recs := rfl
@[simp] theorem Dev.updBib_fenced (b : Nat) (f : Bib → Bib) : (d.updBib b f).fenced = d.fenced := rfl
@[simp] theorem Dev.updBib_notifiedAt (b : Nat) (f : Bib → Bib) : (d.updBib b f).notifiedAt = d.notifiedAt := rfl
@[simp] theorem Dev.updBib_notifyHeld (b : Nat) (f : Bib → Bib) : (d.updBib b f).notifyHeld = d.notifyHeld := rfl
@[simp] theorem Dev.updBib_outlets (b : Nat) (f : Bib → Bib) : (d.updBib b f).outlets = d.outlets := rfl
@[simp] theorem Dev.updBib_queues (b : Nat) (f : Bib → Bib) : (d.updBib b f).queues = d.queues := rfl
@[simp] theorem Dev.updBib_pacers (b : Nat) (f : Bib → Bib) : (d.updBib b f).pacers = d.pacers := rfl
@[simp] theorem Dev.updBib_ptpCount (b : Nat) (f : Bib → Bib) : (d.updBib b f).ptpCount = d.ptpCount := rfl
@[simp] theorem Dev.updBib_ptpSync (b : Nat) (f : Bib → Bib) : (d.updBib b f).ptpSync = d.ptpSync := rfl
@[simp] theorem Dev.updBib_fl (b : Nat) (f : Bib → Bib) : (d.updBib b f).fl = d.fl := rfl
@[simp] theorem Dev.updBib_parts (b : Nat) (f : Bib → Bib) : (d.updBib b f).parts = d.parts := rfl
@[simp] theorem Dev.updBib_sliceMap (b : Nat) (f : Bib → Bib) : (d.updBib b f).sliceMap = d.sliceMap := rfl
@[simp] theorem Dev.updBib_ix (b : Nat) (f : Bib → Bib) : (d.updBib b f).ix = d.ix := rfl
@[simp] theorem Dev.updBib_em (b : Nat) (f : Bib → Bib) : (d.updBib b f).em = d.em := rfl
@[simp] theorem Dev.updBib_inf (b : Nat) (f : Bib → Bib) : (d.updBib b f).inf = d.inf := rfl
@[simp] theorem Dev.updBib_pl (b : Nat) (f : Bib → Bib) : (d.updBib b f).pl = d.pl := rfl
@[simp] theorem Dev.updBib_ld (b : Nat) (f : Bib → Bib) : (d.updBib b f).ld = d.ld := rfl
@[simp] theorem Dev.updBib_sl (b : Nat) (f : Bib → Bib) : (d.updBib b f).sl = d.sl := rfl
@[simp] theorem Dev.updBib_rcv (b : Nat) (f : Bib → Bib) : (d.updBib b f).rcv = d.rcv := rfl
@[simp] theorem Dev.updBib_panel (b : Nat) (f : Bib → Bib) : (d.updBib b f).panel = d.panel := rfl
@[simp] theorem Dev.updBib_costs (b : Nat) (f : Bib → Bib) : (d.updBib b f).costs = d.costs := rfl
@[simp] theorem Dev.updBib_mt (b : Nat) (f : Bib → Bib) : (d.updBib b f).mt = d.mt := rfl
@[simp] theorem Dev.updBib_measRun (b : Nat) (f : Bib → Bib) : (d.updBib b f).measRun = d.measRun := rfl
@[simp] theorem Dev.updBib_measLog (b : Nat) (f : Bib → Bib) : (d.updBib b f).measLog = d.measLog := rfl
@[simp] theorem Dev.updBib_idKey (b : Nat) (f : Bib → Bib) : (d.updBib b f).idKey = d.idKey := rfl
@[simp] theorem Dev.updBib_fwDigest (b : Nat) (f : Bib → Bib) : (d.updBib b f).fwDigest = d.fwDigest := rfl
@[simp] theorem Dev.updBib_quotes (b : Nat) (f : Bib → Bib) : (d.updBib b f).quotes = d.quotes := rfl
@[simp] theorem Dev.updBib_keyJobs (b : Nat) (f : Bib → Bib) : (d.updBib b f).keyJobs = d.keyJobs := rfl
@[simp] theorem Dev.updBib_fuseBusy (b : Nat) (f : Bib → Bib) : (d.updBib b f).fuseBusy = d.fuseBusy := rfl
@[simp] theorem Dev.updBib_jtagInstr (b : Nat) (f : Bib → Bib) : (d.updBib b f).jtagInstr = d.jtagInstr := rfl
@[simp] theorem Dev.updBib_mctpEid (b : Nat) (f : Bib → Bib) : (d.updBib b f).mctpEid = d.mctpEid := rfl
@[simp] theorem Dev.updBib_out (b : Nat) (f : Bib → Bib) : (d.updBib b f).out = d.out := rfl
@[simp] theorem Dev.updBib_draws (b : Nat) (f : Bib → Bib) : (d.updBib b f).draws = d.draws := rfl
@[simp] theorem Dev.updBib_ids (b : Nat) (f : Bib → Bib) : (d.updBib b f).ids = d.ids := rfl

/-! ## setWin -/

@[simp] theorem Dev.setWin_now (k : Nat) (v : Win) : (d.setWin k v).now = d.now := rfl
@[simp] theorem Dev.setWin_regs (k : Nat) (v : Win) : (d.setWin k v).regs = d.regs := rfl
@[simp] theorem Dev.setWin_fuses (k : Nat) (v : Win) : (d.setWin k v).fuses = d.fuses := rfl
@[simp] theorem Dev.setWin_rom (k : Nat) (v : Win) : (d.setWin k v).rom = d.rom := rfl
@[simp] theorem Dev.setWin_nor (k : Nat) (v : Win) : (d.setWin k v).nor = d.nor := rfl
@[simp] theorem Dev.setWin_fresh (k : Nat) (v : Win) : (d.setWin k v).fresh = d.fresh := rfl
@[simp] theorem Dev.setWin_jtagHold (k : Nat) (v : Win) : (d.setWin k v).jtagHold = d.jtagHold := rfl
@[simp] theorem Dev.setWin_relAt (k : Nat) (v : Win) : (d.setWin k v).relAt = d.relAt := rfl
@[simp] theorem Dev.setWin_thermTrip (k : Nat) (v : Win) : (d.setWin k v).thermTrip = d.thermTrip := rfl
@[simp] theorem Dev.setWin_straps (k : Nat) (v : Win) : (d.setWin k v).straps = d.straps := rfl
@[simp] theorem Dev.setWin_ports (k : Nat) (v : Win) : (d.setWin k v).ports = d.ports := rfl
@[simp] theorem Dev.setWin_contracts (k : Nat) (v : Win) : (d.setWin k v).contracts = d.contracts := rfl
@[simp] theorem Dev.setWin_bibs (k : Nat) (v : Win) : (d.setWin k v).bibs = d.bibs := rfl
@[simp] theorem Dev.setWin_rings (k : Nat) (v : Win) : (d.setWin k v).rings = d.rings := rfl
@[simp] theorem Dev.setWin_reqs (k : Nat) (v : Win) : (d.setWin k v).reqs = d.reqs := rfl
@[simp] theorem Dev.setWin_dmas (k : Nat) (v : Win) : (d.setWin k v).dmas = d.dmas := rfl
@[simp] theorem Dev.setWin_bufs (k : Nat) (v : Win) : (d.setWin k v).bufs = d.bufs := rfl
@[simp] theorem Dev.setWin_recs (k : Nat) (v : Win) : (d.setWin k v).recs = d.recs := rfl
@[simp] theorem Dev.setWin_fenced (k : Nat) (v : Win) : (d.setWin k v).fenced = d.fenced := rfl
@[simp] theorem Dev.setWin_notifiedAt (k : Nat) (v : Win) : (d.setWin k v).notifiedAt = d.notifiedAt := rfl
@[simp] theorem Dev.setWin_notifyHeld (k : Nat) (v : Win) : (d.setWin k v).notifyHeld = d.notifyHeld := rfl
@[simp] theorem Dev.setWin_outlets (k : Nat) (v : Win) : (d.setWin k v).outlets = d.outlets := rfl
@[simp] theorem Dev.setWin_queues (k : Nat) (v : Win) : (d.setWin k v).queues = d.queues := rfl
@[simp] theorem Dev.setWin_pacers (k : Nat) (v : Win) : (d.setWin k v).pacers = d.pacers := rfl
@[simp] theorem Dev.setWin_ptpCount (k : Nat) (v : Win) : (d.setWin k v).ptpCount = d.ptpCount := rfl
@[simp] theorem Dev.setWin_ptpSync (k : Nat) (v : Win) : (d.setWin k v).ptpSync = d.ptpSync := rfl
@[simp] theorem Dev.setWin_fl (k : Nat) (v : Win) : (d.setWin k v).fl = d.fl := rfl
@[simp] theorem Dev.setWin_parts (k : Nat) (v : Win) : (d.setWin k v).parts = d.parts := rfl
@[simp] theorem Dev.setWin_sliceMap (k : Nat) (v : Win) : (d.setWin k v).sliceMap = d.sliceMap := rfl
@[simp] theorem Dev.setWin_ix (k : Nat) (v : Win) : (d.setWin k v).ix = d.ix := rfl
@[simp] theorem Dev.setWin_em (k : Nat) (v : Win) : (d.setWin k v).em = d.em := rfl
@[simp] theorem Dev.setWin_inf (k : Nat) (v : Win) : (d.setWin k v).inf = d.inf := rfl
@[simp] theorem Dev.setWin_pl (k : Nat) (v : Win) : (d.setWin k v).pl = d.pl := rfl
@[simp] theorem Dev.setWin_ld (k : Nat) (v : Win) : (d.setWin k v).ld = d.ld := rfl
@[simp] theorem Dev.setWin_sl (k : Nat) (v : Win) : (d.setWin k v).sl = d.sl := rfl
@[simp] theorem Dev.setWin_rcv (k : Nat) (v : Win) : (d.setWin k v).rcv = d.rcv := rfl
@[simp] theorem Dev.setWin_panel (k : Nat) (v : Win) : (d.setWin k v).panel = d.panel := rfl
@[simp] theorem Dev.setWin_costs (k : Nat) (v : Win) : (d.setWin k v).costs = d.costs := rfl
@[simp] theorem Dev.setWin_mt (k : Nat) (v : Win) : (d.setWin k v).mt = d.mt := rfl
@[simp] theorem Dev.setWin_measRun (k : Nat) (v : Win) : (d.setWin k v).measRun = d.measRun := rfl
@[simp] theorem Dev.setWin_measLog (k : Nat) (v : Win) : (d.setWin k v).measLog = d.measLog := rfl
@[simp] theorem Dev.setWin_idKey (k : Nat) (v : Win) : (d.setWin k v).idKey = d.idKey := rfl
@[simp] theorem Dev.setWin_fwDigest (k : Nat) (v : Win) : (d.setWin k v).fwDigest = d.fwDigest := rfl
@[simp] theorem Dev.setWin_quotes (k : Nat) (v : Win) : (d.setWin k v).quotes = d.quotes := rfl
@[simp] theorem Dev.setWin_keyJobs (k : Nat) (v : Win) : (d.setWin k v).keyJobs = d.keyJobs := rfl
@[simp] theorem Dev.setWin_fuseBusy (k : Nat) (v : Win) : (d.setWin k v).fuseBusy = d.fuseBusy := rfl
@[simp] theorem Dev.setWin_jtagInstr (k : Nat) (v : Win) : (d.setWin k v).jtagInstr = d.jtagInstr := rfl
@[simp] theorem Dev.setWin_mctpEid (k : Nat) (v : Win) : (d.setWin k v).mctpEid = d.mctpEid := rfl
@[simp] theorem Dev.setWin_out (k : Nat) (v : Win) : (d.setWin k v).out = d.out := rfl
@[simp] theorem Dev.setWin_draws (k : Nat) (v : Win) : (d.setWin k v).draws = d.draws := rfl
@[simp] theorem Dev.setWin_ids (k : Nat) (v : Win) : (d.setWin k v).ids = d.ids := rfl

/-! ## updWin -/

@[simp] theorem Dev.updWin_now (k : Nat) (f : Win → Win) : (d.updWin k f).now = d.now := rfl
@[simp] theorem Dev.updWin_regs (k : Nat) (f : Win → Win) : (d.updWin k f).regs = d.regs := rfl
@[simp] theorem Dev.updWin_fuses (k : Nat) (f : Win → Win) : (d.updWin k f).fuses = d.fuses := rfl
@[simp] theorem Dev.updWin_rom (k : Nat) (f : Win → Win) : (d.updWin k f).rom = d.rom := rfl
@[simp] theorem Dev.updWin_nor (k : Nat) (f : Win → Win) : (d.updWin k f).nor = d.nor := rfl
@[simp] theorem Dev.updWin_fresh (k : Nat) (f : Win → Win) : (d.updWin k f).fresh = d.fresh := rfl
@[simp] theorem Dev.updWin_jtagHold (k : Nat) (f : Win → Win) : (d.updWin k f).jtagHold = d.jtagHold := rfl
@[simp] theorem Dev.updWin_relAt (k : Nat) (f : Win → Win) : (d.updWin k f).relAt = d.relAt := rfl
@[simp] theorem Dev.updWin_thermTrip (k : Nat) (f : Win → Win) : (d.updWin k f).thermTrip = d.thermTrip := rfl
@[simp] theorem Dev.updWin_straps (k : Nat) (f : Win → Win) : (d.updWin k f).straps = d.straps := rfl
@[simp] theorem Dev.updWin_ports (k : Nat) (f : Win → Win) : (d.updWin k f).ports = d.ports := rfl
@[simp] theorem Dev.updWin_contracts (k : Nat) (f : Win → Win) : (d.updWin k f).contracts = d.contracts := rfl
@[simp] theorem Dev.updWin_bibs (k : Nat) (f : Win → Win) : (d.updWin k f).bibs = d.bibs := rfl
@[simp] theorem Dev.updWin_rings (k : Nat) (f : Win → Win) : (d.updWin k f).rings = d.rings := rfl
@[simp] theorem Dev.updWin_reqs (k : Nat) (f : Win → Win) : (d.updWin k f).reqs = d.reqs := rfl
@[simp] theorem Dev.updWin_dmas (k : Nat) (f : Win → Win) : (d.updWin k f).dmas = d.dmas := rfl
@[simp] theorem Dev.updWin_bufs (k : Nat) (f : Win → Win) : (d.updWin k f).bufs = d.bufs := rfl
@[simp] theorem Dev.updWin_recs (k : Nat) (f : Win → Win) : (d.updWin k f).recs = d.recs := rfl
@[simp] theorem Dev.updWin_fenced (k : Nat) (f : Win → Win) : (d.updWin k f).fenced = d.fenced := rfl
@[simp] theorem Dev.updWin_notifiedAt (k : Nat) (f : Win → Win) : (d.updWin k f).notifiedAt = d.notifiedAt := rfl
@[simp] theorem Dev.updWin_notifyHeld (k : Nat) (f : Win → Win) : (d.updWin k f).notifyHeld = d.notifyHeld := rfl
@[simp] theorem Dev.updWin_outlets (k : Nat) (f : Win → Win) : (d.updWin k f).outlets = d.outlets := rfl
@[simp] theorem Dev.updWin_queues (k : Nat) (f : Win → Win) : (d.updWin k f).queues = d.queues := rfl
@[simp] theorem Dev.updWin_pacers (k : Nat) (f : Win → Win) : (d.updWin k f).pacers = d.pacers := rfl
@[simp] theorem Dev.updWin_ptpCount (k : Nat) (f : Win → Win) : (d.updWin k f).ptpCount = d.ptpCount := rfl
@[simp] theorem Dev.updWin_ptpSync (k : Nat) (f : Win → Win) : (d.updWin k f).ptpSync = d.ptpSync := rfl
@[simp] theorem Dev.updWin_fl (k : Nat) (f : Win → Win) : (d.updWin k f).fl = d.fl := rfl
@[simp] theorem Dev.updWin_parts (k : Nat) (f : Win → Win) : (d.updWin k f).parts = d.parts := rfl
@[simp] theorem Dev.updWin_sliceMap (k : Nat) (f : Win → Win) : (d.updWin k f).sliceMap = d.sliceMap := rfl
@[simp] theorem Dev.updWin_ix (k : Nat) (f : Win → Win) : (d.updWin k f).ix = d.ix := rfl
@[simp] theorem Dev.updWin_em (k : Nat) (f : Win → Win) : (d.updWin k f).em = d.em := rfl
@[simp] theorem Dev.updWin_inf (k : Nat) (f : Win → Win) : (d.updWin k f).inf = d.inf := rfl
@[simp] theorem Dev.updWin_pl (k : Nat) (f : Win → Win) : (d.updWin k f).pl = d.pl := rfl
@[simp] theorem Dev.updWin_ld (k : Nat) (f : Win → Win) : (d.updWin k f).ld = d.ld := rfl
@[simp] theorem Dev.updWin_sl (k : Nat) (f : Win → Win) : (d.updWin k f).sl = d.sl := rfl
@[simp] theorem Dev.updWin_rcv (k : Nat) (f : Win → Win) : (d.updWin k f).rcv = d.rcv := rfl
@[simp] theorem Dev.updWin_panel (k : Nat) (f : Win → Win) : (d.updWin k f).panel = d.panel := rfl
@[simp] theorem Dev.updWin_costs (k : Nat) (f : Win → Win) : (d.updWin k f).costs = d.costs := rfl
@[simp] theorem Dev.updWin_mt (k : Nat) (f : Win → Win) : (d.updWin k f).mt = d.mt := rfl
@[simp] theorem Dev.updWin_measRun (k : Nat) (f : Win → Win) : (d.updWin k f).measRun = d.measRun := rfl
@[simp] theorem Dev.updWin_measLog (k : Nat) (f : Win → Win) : (d.updWin k f).measLog = d.measLog := rfl
@[simp] theorem Dev.updWin_idKey (k : Nat) (f : Win → Win) : (d.updWin k f).idKey = d.idKey := rfl
@[simp] theorem Dev.updWin_fwDigest (k : Nat) (f : Win → Win) : (d.updWin k f).fwDigest = d.fwDigest := rfl
@[simp] theorem Dev.updWin_quotes (k : Nat) (f : Win → Win) : (d.updWin k f).quotes = d.quotes := rfl
@[simp] theorem Dev.updWin_keyJobs (k : Nat) (f : Win → Win) : (d.updWin k f).keyJobs = d.keyJobs := rfl
@[simp] theorem Dev.updWin_fuseBusy (k : Nat) (f : Win → Win) : (d.updWin k f).fuseBusy = d.fuseBusy := rfl
@[simp] theorem Dev.updWin_jtagInstr (k : Nat) (f : Win → Win) : (d.updWin k f).jtagInstr = d.jtagInstr := rfl
@[simp] theorem Dev.updWin_mctpEid (k : Nat) (f : Win → Win) : (d.updWin k f).mctpEid = d.mctpEid := rfl
@[simp] theorem Dev.updWin_out (k : Nat) (f : Win → Win) : (d.updWin k f).out = d.out := rfl
@[simp] theorem Dev.updWin_draws (k : Nat) (f : Win → Win) : (d.updWin k f).draws = d.draws := rfl
@[simp] theorem Dev.updWin_ids (k : Nat) (f : Win → Win) : (d.updWin k f).ids = d.ids := rfl

/-! ## setRing -/

@[simp] theorem Dev.setRing_now (k : Nat) (v : Ring) : (d.setRing k v).now = d.now := rfl
@[simp] theorem Dev.setRing_regs (k : Nat) (v : Ring) : (d.setRing k v).regs = d.regs := rfl
@[simp] theorem Dev.setRing_fuses (k : Nat) (v : Ring) : (d.setRing k v).fuses = d.fuses := rfl
@[simp] theorem Dev.setRing_rom (k : Nat) (v : Ring) : (d.setRing k v).rom = d.rom := rfl
@[simp] theorem Dev.setRing_nor (k : Nat) (v : Ring) : (d.setRing k v).nor = d.nor := rfl
@[simp] theorem Dev.setRing_fresh (k : Nat) (v : Ring) : (d.setRing k v).fresh = d.fresh := rfl
@[simp] theorem Dev.setRing_jtagHold (k : Nat) (v : Ring) : (d.setRing k v).jtagHold = d.jtagHold := rfl
@[simp] theorem Dev.setRing_relAt (k : Nat) (v : Ring) : (d.setRing k v).relAt = d.relAt := rfl
@[simp] theorem Dev.setRing_thermTrip (k : Nat) (v : Ring) : (d.setRing k v).thermTrip = d.thermTrip := rfl
@[simp] theorem Dev.setRing_straps (k : Nat) (v : Ring) : (d.setRing k v).straps = d.straps := rfl
@[simp] theorem Dev.setRing_ports (k : Nat) (v : Ring) : (d.setRing k v).ports = d.ports := rfl
@[simp] theorem Dev.setRing_contracts (k : Nat) (v : Ring) : (d.setRing k v).contracts = d.contracts := rfl
@[simp] theorem Dev.setRing_bibs (k : Nat) (v : Ring) : (d.setRing k v).bibs = d.bibs := rfl
@[simp] theorem Dev.setRing_wins (k : Nat) (v : Ring) : (d.setRing k v).wins = d.wins := rfl
@[simp] theorem Dev.setRing_reqs (k : Nat) (v : Ring) : (d.setRing k v).reqs = d.reqs := rfl
@[simp] theorem Dev.setRing_dmas (k : Nat) (v : Ring) : (d.setRing k v).dmas = d.dmas := rfl
@[simp] theorem Dev.setRing_bufs (k : Nat) (v : Ring) : (d.setRing k v).bufs = d.bufs := rfl
@[simp] theorem Dev.setRing_recs (k : Nat) (v : Ring) : (d.setRing k v).recs = d.recs := rfl
@[simp] theorem Dev.setRing_fenced (k : Nat) (v : Ring) : (d.setRing k v).fenced = d.fenced := rfl
@[simp] theorem Dev.setRing_notifiedAt (k : Nat) (v : Ring) : (d.setRing k v).notifiedAt = d.notifiedAt := rfl
@[simp] theorem Dev.setRing_notifyHeld (k : Nat) (v : Ring) : (d.setRing k v).notifyHeld = d.notifyHeld := rfl
@[simp] theorem Dev.setRing_outlets (k : Nat) (v : Ring) : (d.setRing k v).outlets = d.outlets := rfl
@[simp] theorem Dev.setRing_queues (k : Nat) (v : Ring) : (d.setRing k v).queues = d.queues := rfl
@[simp] theorem Dev.setRing_pacers (k : Nat) (v : Ring) : (d.setRing k v).pacers = d.pacers := rfl
@[simp] theorem Dev.setRing_ptpCount (k : Nat) (v : Ring) : (d.setRing k v).ptpCount = d.ptpCount := rfl
@[simp] theorem Dev.setRing_ptpSync (k : Nat) (v : Ring) : (d.setRing k v).ptpSync = d.ptpSync := rfl
@[simp] theorem Dev.setRing_fl (k : Nat) (v : Ring) : (d.setRing k v).fl = d.fl := rfl
@[simp] theorem Dev.setRing_parts (k : Nat) (v : Ring) : (d.setRing k v).parts = d.parts := rfl
@[simp] theorem Dev.setRing_sliceMap (k : Nat) (v : Ring) : (d.setRing k v).sliceMap = d.sliceMap := rfl
@[simp] theorem Dev.setRing_ix (k : Nat) (v : Ring) : (d.setRing k v).ix = d.ix := rfl
@[simp] theorem Dev.setRing_em (k : Nat) (v : Ring) : (d.setRing k v).em = d.em := rfl
@[simp] theorem Dev.setRing_inf (k : Nat) (v : Ring) : (d.setRing k v).inf = d.inf := rfl
@[simp] theorem Dev.setRing_pl (k : Nat) (v : Ring) : (d.setRing k v).pl = d.pl := rfl
@[simp] theorem Dev.setRing_ld (k : Nat) (v : Ring) : (d.setRing k v).ld = d.ld := rfl
@[simp] theorem Dev.setRing_sl (k : Nat) (v : Ring) : (d.setRing k v).sl = d.sl := rfl
@[simp] theorem Dev.setRing_rcv (k : Nat) (v : Ring) : (d.setRing k v).rcv = d.rcv := rfl
@[simp] theorem Dev.setRing_panel (k : Nat) (v : Ring) : (d.setRing k v).panel = d.panel := rfl
@[simp] theorem Dev.setRing_costs (k : Nat) (v : Ring) : (d.setRing k v).costs = d.costs := rfl
@[simp] theorem Dev.setRing_mt (k : Nat) (v : Ring) : (d.setRing k v).mt = d.mt := rfl
@[simp] theorem Dev.setRing_measRun (k : Nat) (v : Ring) : (d.setRing k v).measRun = d.measRun := rfl
@[simp] theorem Dev.setRing_measLog (k : Nat) (v : Ring) : (d.setRing k v).measLog = d.measLog := rfl
@[simp] theorem Dev.setRing_idKey (k : Nat) (v : Ring) : (d.setRing k v).idKey = d.idKey := rfl
@[simp] theorem Dev.setRing_fwDigest (k : Nat) (v : Ring) : (d.setRing k v).fwDigest = d.fwDigest := rfl
@[simp] theorem Dev.setRing_quotes (k : Nat) (v : Ring) : (d.setRing k v).quotes = d.quotes := rfl
@[simp] theorem Dev.setRing_keyJobs (k : Nat) (v : Ring) : (d.setRing k v).keyJobs = d.keyJobs := rfl
@[simp] theorem Dev.setRing_fuseBusy (k : Nat) (v : Ring) : (d.setRing k v).fuseBusy = d.fuseBusy := rfl
@[simp] theorem Dev.setRing_jtagInstr (k : Nat) (v : Ring) : (d.setRing k v).jtagInstr = d.jtagInstr := rfl
@[simp] theorem Dev.setRing_mctpEid (k : Nat) (v : Ring) : (d.setRing k v).mctpEid = d.mctpEid := rfl
@[simp] theorem Dev.setRing_out (k : Nat) (v : Ring) : (d.setRing k v).out = d.out := rfl
@[simp] theorem Dev.setRing_draws (k : Nat) (v : Ring) : (d.setRing k v).draws = d.draws := rfl
@[simp] theorem Dev.setRing_ids (k : Nat) (v : Ring) : (d.setRing k v).ids = d.ids := rfl

/-! ## updRing -/

@[simp] theorem Dev.updRing_now (k : Nat) (f : Ring → Ring) : (d.updRing k f).now = d.now := rfl
@[simp] theorem Dev.updRing_regs (k : Nat) (f : Ring → Ring) : (d.updRing k f).regs = d.regs := rfl
@[simp] theorem Dev.updRing_fuses (k : Nat) (f : Ring → Ring) : (d.updRing k f).fuses = d.fuses := rfl
@[simp] theorem Dev.updRing_rom (k : Nat) (f : Ring → Ring) : (d.updRing k f).rom = d.rom := rfl
@[simp] theorem Dev.updRing_nor (k : Nat) (f : Ring → Ring) : (d.updRing k f).nor = d.nor := rfl
@[simp] theorem Dev.updRing_fresh (k : Nat) (f : Ring → Ring) : (d.updRing k f).fresh = d.fresh := rfl
@[simp] theorem Dev.updRing_jtagHold (k : Nat) (f : Ring → Ring) : (d.updRing k f).jtagHold = d.jtagHold := rfl
@[simp] theorem Dev.updRing_relAt (k : Nat) (f : Ring → Ring) : (d.updRing k f).relAt = d.relAt := rfl
@[simp] theorem Dev.updRing_thermTrip (k : Nat) (f : Ring → Ring) : (d.updRing k f).thermTrip = d.thermTrip := rfl
@[simp] theorem Dev.updRing_straps (k : Nat) (f : Ring → Ring) : (d.updRing k f).straps = d.straps := rfl
@[simp] theorem Dev.updRing_ports (k : Nat) (f : Ring → Ring) : (d.updRing k f).ports = d.ports := rfl
@[simp] theorem Dev.updRing_contracts (k : Nat) (f : Ring → Ring) : (d.updRing k f).contracts = d.contracts := rfl
@[simp] theorem Dev.updRing_bibs (k : Nat) (f : Ring → Ring) : (d.updRing k f).bibs = d.bibs := rfl
@[simp] theorem Dev.updRing_wins (k : Nat) (f : Ring → Ring) : (d.updRing k f).wins = d.wins := rfl
@[simp] theorem Dev.updRing_reqs (k : Nat) (f : Ring → Ring) : (d.updRing k f).reqs = d.reqs := rfl
@[simp] theorem Dev.updRing_dmas (k : Nat) (f : Ring → Ring) : (d.updRing k f).dmas = d.dmas := rfl
@[simp] theorem Dev.updRing_bufs (k : Nat) (f : Ring → Ring) : (d.updRing k f).bufs = d.bufs := rfl
@[simp] theorem Dev.updRing_recs (k : Nat) (f : Ring → Ring) : (d.updRing k f).recs = d.recs := rfl
@[simp] theorem Dev.updRing_fenced (k : Nat) (f : Ring → Ring) : (d.updRing k f).fenced = d.fenced := rfl
@[simp] theorem Dev.updRing_notifiedAt (k : Nat) (f : Ring → Ring) : (d.updRing k f).notifiedAt = d.notifiedAt := rfl
@[simp] theorem Dev.updRing_notifyHeld (k : Nat) (f : Ring → Ring) : (d.updRing k f).notifyHeld = d.notifyHeld := rfl
@[simp] theorem Dev.updRing_outlets (k : Nat) (f : Ring → Ring) : (d.updRing k f).outlets = d.outlets := rfl
@[simp] theorem Dev.updRing_queues (k : Nat) (f : Ring → Ring) : (d.updRing k f).queues = d.queues := rfl
@[simp] theorem Dev.updRing_pacers (k : Nat) (f : Ring → Ring) : (d.updRing k f).pacers = d.pacers := rfl
@[simp] theorem Dev.updRing_ptpCount (k : Nat) (f : Ring → Ring) : (d.updRing k f).ptpCount = d.ptpCount := rfl
@[simp] theorem Dev.updRing_ptpSync (k : Nat) (f : Ring → Ring) : (d.updRing k f).ptpSync = d.ptpSync := rfl
@[simp] theorem Dev.updRing_fl (k : Nat) (f : Ring → Ring) : (d.updRing k f).fl = d.fl := rfl
@[simp] theorem Dev.updRing_parts (k : Nat) (f : Ring → Ring) : (d.updRing k f).parts = d.parts := rfl
@[simp] theorem Dev.updRing_sliceMap (k : Nat) (f : Ring → Ring) : (d.updRing k f).sliceMap = d.sliceMap := rfl
@[simp] theorem Dev.updRing_ix (k : Nat) (f : Ring → Ring) : (d.updRing k f).ix = d.ix := rfl
@[simp] theorem Dev.updRing_em (k : Nat) (f : Ring → Ring) : (d.updRing k f).em = d.em := rfl
@[simp] theorem Dev.updRing_inf (k : Nat) (f : Ring → Ring) : (d.updRing k f).inf = d.inf := rfl
@[simp] theorem Dev.updRing_pl (k : Nat) (f : Ring → Ring) : (d.updRing k f).pl = d.pl := rfl
@[simp] theorem Dev.updRing_ld (k : Nat) (f : Ring → Ring) : (d.updRing k f).ld = d.ld := rfl
@[simp] theorem Dev.updRing_sl (k : Nat) (f : Ring → Ring) : (d.updRing k f).sl = d.sl := rfl
@[simp] theorem Dev.updRing_rcv (k : Nat) (f : Ring → Ring) : (d.updRing k f).rcv = d.rcv := rfl
@[simp] theorem Dev.updRing_panel (k : Nat) (f : Ring → Ring) : (d.updRing k f).panel = d.panel := rfl
@[simp] theorem Dev.updRing_costs (k : Nat) (f : Ring → Ring) : (d.updRing k f).costs = d.costs := rfl
@[simp] theorem Dev.updRing_mt (k : Nat) (f : Ring → Ring) : (d.updRing k f).mt = d.mt := rfl
@[simp] theorem Dev.updRing_measRun (k : Nat) (f : Ring → Ring) : (d.updRing k f).measRun = d.measRun := rfl
@[simp] theorem Dev.updRing_measLog (k : Nat) (f : Ring → Ring) : (d.updRing k f).measLog = d.measLog := rfl
@[simp] theorem Dev.updRing_idKey (k : Nat) (f : Ring → Ring) : (d.updRing k f).idKey = d.idKey := rfl
@[simp] theorem Dev.updRing_fwDigest (k : Nat) (f : Ring → Ring) : (d.updRing k f).fwDigest = d.fwDigest := rfl
@[simp] theorem Dev.updRing_quotes (k : Nat) (f : Ring → Ring) : (d.updRing k f).quotes = d.quotes := rfl
@[simp] theorem Dev.updRing_keyJobs (k : Nat) (f : Ring → Ring) : (d.updRing k f).keyJobs = d.keyJobs := rfl
@[simp] theorem Dev.updRing_fuseBusy (k : Nat) (f : Ring → Ring) : (d.updRing k f).fuseBusy = d.fuseBusy := rfl
@[simp] theorem Dev.updRing_jtagInstr (k : Nat) (f : Ring → Ring) : (d.updRing k f).jtagInstr = d.jtagInstr := rfl
@[simp] theorem Dev.updRing_mctpEid (k : Nat) (f : Ring → Ring) : (d.updRing k f).mctpEid = d.mctpEid := rfl
@[simp] theorem Dev.updRing_out (k : Nat) (f : Ring → Ring) : (d.updRing k f).out = d.out := rfl
@[simp] theorem Dev.updRing_draws (k : Nat) (f : Ring → Ring) : (d.updRing k f).draws = d.draws := rfl
@[simp] theorem Dev.updRing_ids (k : Nat) (f : Ring → Ring) : (d.updRing k f).ids = d.ids := rfl

/-! ## setReq -/

@[simp] theorem Dev.setReq_now (k : Nat) (v : Req) : (d.setReq k v).now = d.now := rfl
@[simp] theorem Dev.setReq_regs (k : Nat) (v : Req) : (d.setReq k v).regs = d.regs := rfl
@[simp] theorem Dev.setReq_fuses (k : Nat) (v : Req) : (d.setReq k v).fuses = d.fuses := rfl
@[simp] theorem Dev.setReq_rom (k : Nat) (v : Req) : (d.setReq k v).rom = d.rom := rfl
@[simp] theorem Dev.setReq_nor (k : Nat) (v : Req) : (d.setReq k v).nor = d.nor := rfl
@[simp] theorem Dev.setReq_fresh (k : Nat) (v : Req) : (d.setReq k v).fresh = d.fresh := rfl
@[simp] theorem Dev.setReq_jtagHold (k : Nat) (v : Req) : (d.setReq k v).jtagHold = d.jtagHold := rfl
@[simp] theorem Dev.setReq_relAt (k : Nat) (v : Req) : (d.setReq k v).relAt = d.relAt := rfl
@[simp] theorem Dev.setReq_thermTrip (k : Nat) (v : Req) : (d.setReq k v).thermTrip = d.thermTrip := rfl
@[simp] theorem Dev.setReq_straps (k : Nat) (v : Req) : (d.setReq k v).straps = d.straps := rfl
@[simp] theorem Dev.setReq_ports (k : Nat) (v : Req) : (d.setReq k v).ports = d.ports := rfl
@[simp] theorem Dev.setReq_contracts (k : Nat) (v : Req) : (d.setReq k v).contracts = d.contracts := rfl
@[simp] theorem Dev.setReq_bibs (k : Nat) (v : Req) : (d.setReq k v).bibs = d.bibs := rfl
@[simp] theorem Dev.setReq_wins (k : Nat) (v : Req) : (d.setReq k v).wins = d.wins := rfl
@[simp] theorem Dev.setReq_rings (k : Nat) (v : Req) : (d.setReq k v).rings = d.rings := rfl
@[simp] theorem Dev.setReq_dmas (k : Nat) (v : Req) : (d.setReq k v).dmas = d.dmas := rfl
@[simp] theorem Dev.setReq_bufs (k : Nat) (v : Req) : (d.setReq k v).bufs = d.bufs := rfl
@[simp] theorem Dev.setReq_recs (k : Nat) (v : Req) : (d.setReq k v).recs = d.recs := rfl
@[simp] theorem Dev.setReq_fenced (k : Nat) (v : Req) : (d.setReq k v).fenced = d.fenced := rfl
@[simp] theorem Dev.setReq_notifiedAt (k : Nat) (v : Req) : (d.setReq k v).notifiedAt = d.notifiedAt := rfl
@[simp] theorem Dev.setReq_notifyHeld (k : Nat) (v : Req) : (d.setReq k v).notifyHeld = d.notifyHeld := rfl
@[simp] theorem Dev.setReq_outlets (k : Nat) (v : Req) : (d.setReq k v).outlets = d.outlets := rfl
@[simp] theorem Dev.setReq_queues (k : Nat) (v : Req) : (d.setReq k v).queues = d.queues := rfl
@[simp] theorem Dev.setReq_pacers (k : Nat) (v : Req) : (d.setReq k v).pacers = d.pacers := rfl
@[simp] theorem Dev.setReq_ptpCount (k : Nat) (v : Req) : (d.setReq k v).ptpCount = d.ptpCount := rfl
@[simp] theorem Dev.setReq_ptpSync (k : Nat) (v : Req) : (d.setReq k v).ptpSync = d.ptpSync := rfl
@[simp] theorem Dev.setReq_fl (k : Nat) (v : Req) : (d.setReq k v).fl = d.fl := rfl
@[simp] theorem Dev.setReq_parts (k : Nat) (v : Req) : (d.setReq k v).parts = d.parts := rfl
@[simp] theorem Dev.setReq_sliceMap (k : Nat) (v : Req) : (d.setReq k v).sliceMap = d.sliceMap := rfl
@[simp] theorem Dev.setReq_ix (k : Nat) (v : Req) : (d.setReq k v).ix = d.ix := rfl
@[simp] theorem Dev.setReq_em (k : Nat) (v : Req) : (d.setReq k v).em = d.em := rfl
@[simp] theorem Dev.setReq_inf (k : Nat) (v : Req) : (d.setReq k v).inf = d.inf := rfl
@[simp] theorem Dev.setReq_pl (k : Nat) (v : Req) : (d.setReq k v).pl = d.pl := rfl
@[simp] theorem Dev.setReq_ld (k : Nat) (v : Req) : (d.setReq k v).ld = d.ld := rfl
@[simp] theorem Dev.setReq_sl (k : Nat) (v : Req) : (d.setReq k v).sl = d.sl := rfl
@[simp] theorem Dev.setReq_rcv (k : Nat) (v : Req) : (d.setReq k v).rcv = d.rcv := rfl
@[simp] theorem Dev.setReq_panel (k : Nat) (v : Req) : (d.setReq k v).panel = d.panel := rfl
@[simp] theorem Dev.setReq_costs (k : Nat) (v : Req) : (d.setReq k v).costs = d.costs := rfl
@[simp] theorem Dev.setReq_mt (k : Nat) (v : Req) : (d.setReq k v).mt = d.mt := rfl
@[simp] theorem Dev.setReq_measRun (k : Nat) (v : Req) : (d.setReq k v).measRun = d.measRun := rfl
@[simp] theorem Dev.setReq_measLog (k : Nat) (v : Req) : (d.setReq k v).measLog = d.measLog := rfl
@[simp] theorem Dev.setReq_idKey (k : Nat) (v : Req) : (d.setReq k v).idKey = d.idKey := rfl
@[simp] theorem Dev.setReq_fwDigest (k : Nat) (v : Req) : (d.setReq k v).fwDigest = d.fwDigest := rfl
@[simp] theorem Dev.setReq_quotes (k : Nat) (v : Req) : (d.setReq k v).quotes = d.quotes := rfl
@[simp] theorem Dev.setReq_keyJobs (k : Nat) (v : Req) : (d.setReq k v).keyJobs = d.keyJobs := rfl
@[simp] theorem Dev.setReq_fuseBusy (k : Nat) (v : Req) : (d.setReq k v).fuseBusy = d.fuseBusy := rfl
@[simp] theorem Dev.setReq_jtagInstr (k : Nat) (v : Req) : (d.setReq k v).jtagInstr = d.jtagInstr := rfl
@[simp] theorem Dev.setReq_mctpEid (k : Nat) (v : Req) : (d.setReq k v).mctpEid = d.mctpEid := rfl
@[simp] theorem Dev.setReq_out (k : Nat) (v : Req) : (d.setReq k v).out = d.out := rfl
@[simp] theorem Dev.setReq_draws (k : Nat) (v : Req) : (d.setReq k v).draws = d.draws := rfl
@[simp] theorem Dev.setReq_ids (k : Nat) (v : Req) : (d.setReq k v).ids = d.ids := rfl

/-! ## updReq -/

@[simp] theorem Dev.updReq_now (k : Nat) (f : Req → Req) : (d.updReq k f).now = d.now := rfl
@[simp] theorem Dev.updReq_regs (k : Nat) (f : Req → Req) : (d.updReq k f).regs = d.regs := rfl
@[simp] theorem Dev.updReq_fuses (k : Nat) (f : Req → Req) : (d.updReq k f).fuses = d.fuses := rfl
@[simp] theorem Dev.updReq_rom (k : Nat) (f : Req → Req) : (d.updReq k f).rom = d.rom := rfl
@[simp] theorem Dev.updReq_nor (k : Nat) (f : Req → Req) : (d.updReq k f).nor = d.nor := rfl
@[simp] theorem Dev.updReq_fresh (k : Nat) (f : Req → Req) : (d.updReq k f).fresh = d.fresh := rfl
@[simp] theorem Dev.updReq_jtagHold (k : Nat) (f : Req → Req) : (d.updReq k f).jtagHold = d.jtagHold := rfl
@[simp] theorem Dev.updReq_relAt (k : Nat) (f : Req → Req) : (d.updReq k f).relAt = d.relAt := rfl
@[simp] theorem Dev.updReq_thermTrip (k : Nat) (f : Req → Req) : (d.updReq k f).thermTrip = d.thermTrip := rfl
@[simp] theorem Dev.updReq_straps (k : Nat) (f : Req → Req) : (d.updReq k f).straps = d.straps := rfl
@[simp] theorem Dev.updReq_ports (k : Nat) (f : Req → Req) : (d.updReq k f).ports = d.ports := rfl
@[simp] theorem Dev.updReq_contracts (k : Nat) (f : Req → Req) : (d.updReq k f).contracts = d.contracts := rfl
@[simp] theorem Dev.updReq_bibs (k : Nat) (f : Req → Req) : (d.updReq k f).bibs = d.bibs := rfl
@[simp] theorem Dev.updReq_wins (k : Nat) (f : Req → Req) : (d.updReq k f).wins = d.wins := rfl
@[simp] theorem Dev.updReq_rings (k : Nat) (f : Req → Req) : (d.updReq k f).rings = d.rings := rfl
@[simp] theorem Dev.updReq_dmas (k : Nat) (f : Req → Req) : (d.updReq k f).dmas = d.dmas := rfl
@[simp] theorem Dev.updReq_bufs (k : Nat) (f : Req → Req) : (d.updReq k f).bufs = d.bufs := rfl
@[simp] theorem Dev.updReq_recs (k : Nat) (f : Req → Req) : (d.updReq k f).recs = d.recs := rfl
@[simp] theorem Dev.updReq_fenced (k : Nat) (f : Req → Req) : (d.updReq k f).fenced = d.fenced := rfl
@[simp] theorem Dev.updReq_notifiedAt (k : Nat) (f : Req → Req) : (d.updReq k f).notifiedAt = d.notifiedAt := rfl
@[simp] theorem Dev.updReq_notifyHeld (k : Nat) (f : Req → Req) : (d.updReq k f).notifyHeld = d.notifyHeld := rfl
@[simp] theorem Dev.updReq_outlets (k : Nat) (f : Req → Req) : (d.updReq k f).outlets = d.outlets := rfl
@[simp] theorem Dev.updReq_queues (k : Nat) (f : Req → Req) : (d.updReq k f).queues = d.queues := rfl
@[simp] theorem Dev.updReq_pacers (k : Nat) (f : Req → Req) : (d.updReq k f).pacers = d.pacers := rfl
@[simp] theorem Dev.updReq_ptpCount (k : Nat) (f : Req → Req) : (d.updReq k f).ptpCount = d.ptpCount := rfl
@[simp] theorem Dev.updReq_ptpSync (k : Nat) (f : Req → Req) : (d.updReq k f).ptpSync = d.ptpSync := rfl
@[simp] theorem Dev.updReq_fl (k : Nat) (f : Req → Req) : (d.updReq k f).fl = d.fl := rfl
@[simp] theorem Dev.updReq_parts (k : Nat) (f : Req → Req) : (d.updReq k f).parts = d.parts := rfl
@[simp] theorem Dev.updReq_sliceMap (k : Nat) (f : Req → Req) : (d.updReq k f).sliceMap = d.sliceMap := rfl
@[simp] theorem Dev.updReq_ix (k : Nat) (f : Req → Req) : (d.updReq k f).ix = d.ix := rfl
@[simp] theorem Dev.updReq_em (k : Nat) (f : Req → Req) : (d.updReq k f).em = d.em := rfl
@[simp] theorem Dev.updReq_inf (k : Nat) (f : Req → Req) : (d.updReq k f).inf = d.inf := rfl
@[simp] theorem Dev.updReq_pl (k : Nat) (f : Req → Req) : (d.updReq k f).pl = d.pl := rfl
@[simp] theorem Dev.updReq_ld (k : Nat) (f : Req → Req) : (d.updReq k f).ld = d.ld := rfl
@[simp] theorem Dev.updReq_sl (k : Nat) (f : Req → Req) : (d.updReq k f).sl = d.sl := rfl
@[simp] theorem Dev.updReq_rcv (k : Nat) (f : Req → Req) : (d.updReq k f).rcv = d.rcv := rfl
@[simp] theorem Dev.updReq_panel (k : Nat) (f : Req → Req) : (d.updReq k f).panel = d.panel := rfl
@[simp] theorem Dev.updReq_costs (k : Nat) (f : Req → Req) : (d.updReq k f).costs = d.costs := rfl
@[simp] theorem Dev.updReq_mt (k : Nat) (f : Req → Req) : (d.updReq k f).mt = d.mt := rfl
@[simp] theorem Dev.updReq_measRun (k : Nat) (f : Req → Req) : (d.updReq k f).measRun = d.measRun := rfl
@[simp] theorem Dev.updReq_measLog (k : Nat) (f : Req → Req) : (d.updReq k f).measLog = d.measLog := rfl
@[simp] theorem Dev.updReq_idKey (k : Nat) (f : Req → Req) : (d.updReq k f).idKey = d.idKey := rfl
@[simp] theorem Dev.updReq_fwDigest (k : Nat) (f : Req → Req) : (d.updReq k f).fwDigest = d.fwDigest := rfl
@[simp] theorem Dev.updReq_quotes (k : Nat) (f : Req → Req) : (d.updReq k f).quotes = d.quotes := rfl
@[simp] theorem Dev.updReq_keyJobs (k : Nat) (f : Req → Req) : (d.updReq k f).keyJobs = d.keyJobs := rfl
@[simp] theorem Dev.updReq_fuseBusy (k : Nat) (f : Req → Req) : (d.updReq k f).fuseBusy = d.fuseBusy := rfl
@[simp] theorem Dev.updReq_jtagInstr (k : Nat) (f : Req → Req) : (d.updReq k f).jtagInstr = d.jtagInstr := rfl
@[simp] theorem Dev.updReq_mctpEid (k : Nat) (f : Req → Req) : (d.updReq k f).mctpEid = d.mctpEid := rfl
@[simp] theorem Dev.updReq_out (k : Nat) (f : Req → Req) : (d.updReq k f).out = d.out := rfl
@[simp] theorem Dev.updReq_draws (k : Nat) (f : Req → Req) : (d.updReq k f).draws = d.draws := rfl
@[simp] theorem Dev.updReq_ids (k : Nat) (f : Req → Req) : (d.updReq k f).ids = d.ids := rfl

/-! ## updPort -/

@[simp] theorem Dev.updPort_now (k : Nat) (f : Port → Port) : (d.updPort k f).now = d.now := rfl
@[simp] theorem Dev.updPort_regs (k : Nat) (f : Port → Port) : (d.updPort k f).regs = d.regs := rfl
@[simp] theorem Dev.updPort_fuses (k : Nat) (f : Port → Port) : (d.updPort k f).fuses = d.fuses := rfl
@[simp] theorem Dev.updPort_rom (k : Nat) (f : Port → Port) : (d.updPort k f).rom = d.rom := rfl
@[simp] theorem Dev.updPort_nor (k : Nat) (f : Port → Port) : (d.updPort k f).nor = d.nor := rfl
@[simp] theorem Dev.updPort_fresh (k : Nat) (f : Port → Port) : (d.updPort k f).fresh = d.fresh := rfl
@[simp] theorem Dev.updPort_jtagHold (k : Nat) (f : Port → Port) : (d.updPort k f).jtagHold = d.jtagHold := rfl
@[simp] theorem Dev.updPort_relAt (k : Nat) (f : Port → Port) : (d.updPort k f).relAt = d.relAt := rfl
@[simp] theorem Dev.updPort_thermTrip (k : Nat) (f : Port → Port) : (d.updPort k f).thermTrip = d.thermTrip := rfl
@[simp] theorem Dev.updPort_straps (k : Nat) (f : Port → Port) : (d.updPort k f).straps = d.straps := rfl
@[simp] theorem Dev.updPort_contracts (k : Nat) (f : Port → Port) : (d.updPort k f).contracts = d.contracts := rfl
@[simp] theorem Dev.updPort_bibs (k : Nat) (f : Port → Port) : (d.updPort k f).bibs = d.bibs := rfl
@[simp] theorem Dev.updPort_wins (k : Nat) (f : Port → Port) : (d.updPort k f).wins = d.wins := rfl
@[simp] theorem Dev.updPort_rings (k : Nat) (f : Port → Port) : (d.updPort k f).rings = d.rings := rfl
@[simp] theorem Dev.updPort_reqs (k : Nat) (f : Port → Port) : (d.updPort k f).reqs = d.reqs := rfl
@[simp] theorem Dev.updPort_dmas (k : Nat) (f : Port → Port) : (d.updPort k f).dmas = d.dmas := rfl
@[simp] theorem Dev.updPort_bufs (k : Nat) (f : Port → Port) : (d.updPort k f).bufs = d.bufs := rfl
@[simp] theorem Dev.updPort_recs (k : Nat) (f : Port → Port) : (d.updPort k f).recs = d.recs := rfl
@[simp] theorem Dev.updPort_fenced (k : Nat) (f : Port → Port) : (d.updPort k f).fenced = d.fenced := rfl
@[simp] theorem Dev.updPort_notifiedAt (k : Nat) (f : Port → Port) : (d.updPort k f).notifiedAt = d.notifiedAt := rfl
@[simp] theorem Dev.updPort_notifyHeld (k : Nat) (f : Port → Port) : (d.updPort k f).notifyHeld = d.notifyHeld := rfl
@[simp] theorem Dev.updPort_outlets (k : Nat) (f : Port → Port) : (d.updPort k f).outlets = d.outlets := rfl
@[simp] theorem Dev.updPort_queues (k : Nat) (f : Port → Port) : (d.updPort k f).queues = d.queues := rfl
@[simp] theorem Dev.updPort_pacers (k : Nat) (f : Port → Port) : (d.updPort k f).pacers = d.pacers := rfl
@[simp] theorem Dev.updPort_ptpCount (k : Nat) (f : Port → Port) : (d.updPort k f).ptpCount = d.ptpCount := rfl
@[simp] theorem Dev.updPort_ptpSync (k : Nat) (f : Port → Port) : (d.updPort k f).ptpSync = d.ptpSync := rfl
@[simp] theorem Dev.updPort_fl (k : Nat) (f : Port → Port) : (d.updPort k f).fl = d.fl := rfl
@[simp] theorem Dev.updPort_parts (k : Nat) (f : Port → Port) : (d.updPort k f).parts = d.parts := rfl
@[simp] theorem Dev.updPort_sliceMap (k : Nat) (f : Port → Port) : (d.updPort k f).sliceMap = d.sliceMap := rfl
@[simp] theorem Dev.updPort_ix (k : Nat) (f : Port → Port) : (d.updPort k f).ix = d.ix := rfl
@[simp] theorem Dev.updPort_em (k : Nat) (f : Port → Port) : (d.updPort k f).em = d.em := rfl
@[simp] theorem Dev.updPort_inf (k : Nat) (f : Port → Port) : (d.updPort k f).inf = d.inf := rfl
@[simp] theorem Dev.updPort_pl (k : Nat) (f : Port → Port) : (d.updPort k f).pl = d.pl := rfl
@[simp] theorem Dev.updPort_ld (k : Nat) (f : Port → Port) : (d.updPort k f).ld = d.ld := rfl
@[simp] theorem Dev.updPort_sl (k : Nat) (f : Port → Port) : (d.updPort k f).sl = d.sl := rfl
@[simp] theorem Dev.updPort_rcv (k : Nat) (f : Port → Port) : (d.updPort k f).rcv = d.rcv := rfl
@[simp] theorem Dev.updPort_panel (k : Nat) (f : Port → Port) : (d.updPort k f).panel = d.panel := rfl
@[simp] theorem Dev.updPort_costs (k : Nat) (f : Port → Port) : (d.updPort k f).costs = d.costs := rfl
@[simp] theorem Dev.updPort_mt (k : Nat) (f : Port → Port) : (d.updPort k f).mt = d.mt := rfl
@[simp] theorem Dev.updPort_measRun (k : Nat) (f : Port → Port) : (d.updPort k f).measRun = d.measRun := rfl
@[simp] theorem Dev.updPort_measLog (k : Nat) (f : Port → Port) : (d.updPort k f).measLog = d.measLog := rfl
@[simp] theorem Dev.updPort_idKey (k : Nat) (f : Port → Port) : (d.updPort k f).idKey = d.idKey := rfl
@[simp] theorem Dev.updPort_fwDigest (k : Nat) (f : Port → Port) : (d.updPort k f).fwDigest = d.fwDigest := rfl
@[simp] theorem Dev.updPort_quotes (k : Nat) (f : Port → Port) : (d.updPort k f).quotes = d.quotes := rfl
@[simp] theorem Dev.updPort_keyJobs (k : Nat) (f : Port → Port) : (d.updPort k f).keyJobs = d.keyJobs := rfl
@[simp] theorem Dev.updPort_fuseBusy (k : Nat) (f : Port → Port) : (d.updPort k f).fuseBusy = d.fuseBusy := rfl
@[simp] theorem Dev.updPort_jtagInstr (k : Nat) (f : Port → Port) : (d.updPort k f).jtagInstr = d.jtagInstr := rfl
@[simp] theorem Dev.updPort_mctpEid (k : Nat) (f : Port → Port) : (d.updPort k f).mctpEid = d.mctpEid := rfl
@[simp] theorem Dev.updPort_out (k : Nat) (f : Port → Port) : (d.updPort k f).out = d.out := rfl
@[simp] theorem Dev.updPort_draws (k : Nat) (f : Port → Port) : (d.updPort k f).draws = d.draws := rfl
@[simp] theorem Dev.updPort_ids (k : Nat) (f : Port → Port) : (d.updPort k f).ids = d.ids := rfl

/-! ## updOutlet -/

@[simp] theorem Dev.updOutlet_now (k : Nat) (f : Outlet → Outlet) : (d.updOutlet k f).now = d.now := rfl
@[simp] theorem Dev.updOutlet_regs (k : Nat) (f : Outlet → Outlet) : (d.updOutlet k f).regs = d.regs := rfl
@[simp] theorem Dev.updOutlet_fuses (k : Nat) (f : Outlet → Outlet) : (d.updOutlet k f).fuses = d.fuses := rfl
@[simp] theorem Dev.updOutlet_rom (k : Nat) (f : Outlet → Outlet) : (d.updOutlet k f).rom = d.rom := rfl
@[simp] theorem Dev.updOutlet_nor (k : Nat) (f : Outlet → Outlet) : (d.updOutlet k f).nor = d.nor := rfl
@[simp] theorem Dev.updOutlet_fresh (k : Nat) (f : Outlet → Outlet) : (d.updOutlet k f).fresh = d.fresh := rfl
@[simp] theorem Dev.updOutlet_jtagHold (k : Nat) (f : Outlet → Outlet) : (d.updOutlet k f).jtagHold = d.jtagHold := rfl
@[simp] theorem Dev.updOutlet_relAt (k : Nat) (f : Outlet → Outlet) : (d.updOutlet k f).relAt = d.relAt := rfl
@[simp] theorem Dev.updOutlet_thermTrip (k : Nat) (f : Outlet → Outlet) : (d.updOutlet k f).thermTrip = d.thermTrip := rfl
@[simp] theorem Dev.updOutlet_straps (k : Nat) (f : Outlet → Outlet) : (d.updOutlet k f).straps = d.straps := rfl
@[simp] theorem Dev.updOutlet_ports (k : Nat) (f : Outlet → Outlet) : (d.updOutlet k f).ports = d.ports := rfl
@[simp] theorem Dev.updOutlet_contracts (k : Nat) (f : Outlet → Outlet) : (d.updOutlet k f).contracts = d.contracts := rfl
@[simp] theorem Dev.updOutlet_bibs (k : Nat) (f : Outlet → Outlet) : (d.updOutlet k f).bibs = d.bibs := rfl
@[simp] theorem Dev.updOutlet_wins (k : Nat) (f : Outlet → Outlet) : (d.updOutlet k f).wins = d.wins := rfl
@[simp] theorem Dev.updOutlet_rings (k : Nat) (f : Outlet → Outlet) : (d.updOutlet k f).rings = d.rings := rfl
@[simp] theorem Dev.updOutlet_reqs (k : Nat) (f : Outlet → Outlet) : (d.updOutlet k f).reqs = d.reqs := rfl
@[simp] theorem Dev.updOutlet_dmas (k : Nat) (f : Outlet → Outlet) : (d.updOutlet k f).dmas = d.dmas := rfl
@[simp] theorem Dev.updOutlet_bufs (k : Nat) (f : Outlet → Outlet) : (d.updOutlet k f).bufs = d.bufs := rfl
@[simp] theorem Dev.updOutlet_recs (k : Nat) (f : Outlet → Outlet) : (d.updOutlet k f).recs = d.recs := rfl
@[simp] theorem Dev.updOutlet_fenced (k : Nat) (f : Outlet → Outlet) : (d.updOutlet k f).fenced = d.fenced := rfl
@[simp] theorem Dev.updOutlet_notifiedAt (k : Nat) (f : Outlet → Outlet) : (d.updOutlet k f).notifiedAt = d.notifiedAt := rfl
@[simp] theorem Dev.updOutlet_notifyHeld (k : Nat) (f : Outlet → Outlet) : (d.updOutlet k f).notifyHeld = d.notifyHeld := rfl
@[simp] theorem Dev.updOutlet_queues (k : Nat) (f : Outlet → Outlet) : (d.updOutlet k f).queues = d.queues := rfl
@[simp] theorem Dev.updOutlet_pacers (k : Nat) (f : Outlet → Outlet) : (d.updOutlet k f).pacers = d.pacers := rfl
@[simp] theorem Dev.updOutlet_ptpCount (k : Nat) (f : Outlet → Outlet) : (d.updOutlet k f).ptpCount = d.ptpCount := rfl
@[simp] theorem Dev.updOutlet_ptpSync (k : Nat) (f : Outlet → Outlet) : (d.updOutlet k f).ptpSync = d.ptpSync := rfl
@[simp] theorem Dev.updOutlet_fl (k : Nat) (f : Outlet → Outlet) : (d.updOutlet k f).fl = d.fl := rfl
@[simp] theorem Dev.updOutlet_parts (k : Nat) (f : Outlet → Outlet) : (d.updOutlet k f).parts = d.parts := rfl
@[simp] theorem Dev.updOutlet_sliceMap (k : Nat) (f : Outlet → Outlet) : (d.updOutlet k f).sliceMap = d.sliceMap := rfl
@[simp] theorem Dev.updOutlet_ix (k : Nat) (f : Outlet → Outlet) : (d.updOutlet k f).ix = d.ix := rfl
@[simp] theorem Dev.updOutlet_em (k : Nat) (f : Outlet → Outlet) : (d.updOutlet k f).em = d.em := rfl
@[simp] theorem Dev.updOutlet_inf (k : Nat) (f : Outlet → Outlet) : (d.updOutlet k f).inf = d.inf := rfl
@[simp] theorem Dev.updOutlet_pl (k : Nat) (f : Outlet → Outlet) : (d.updOutlet k f).pl = d.pl := rfl
@[simp] theorem Dev.updOutlet_ld (k : Nat) (f : Outlet → Outlet) : (d.updOutlet k f).ld = d.ld := rfl
@[simp] theorem Dev.updOutlet_sl (k : Nat) (f : Outlet → Outlet) : (d.updOutlet k f).sl = d.sl := rfl
@[simp] theorem Dev.updOutlet_rcv (k : Nat) (f : Outlet → Outlet) : (d.updOutlet k f).rcv = d.rcv := rfl
@[simp] theorem Dev.updOutlet_panel (k : Nat) (f : Outlet → Outlet) : (d.updOutlet k f).panel = d.panel := rfl
@[simp] theorem Dev.updOutlet_costs (k : Nat) (f : Outlet → Outlet) : (d.updOutlet k f).costs = d.costs := rfl
@[simp] theorem Dev.updOutlet_mt (k : Nat) (f : Outlet → Outlet) : (d.updOutlet k f).mt = d.mt := rfl
@[simp] theorem Dev.updOutlet_measRun (k : Nat) (f : Outlet → Outlet) : (d.updOutlet k f).measRun = d.measRun := rfl
@[simp] theorem Dev.updOutlet_measLog (k : Nat) (f : Outlet → Outlet) : (d.updOutlet k f).measLog = d.measLog := rfl
@[simp] theorem Dev.updOutlet_idKey (k : Nat) (f : Outlet → Outlet) : (d.updOutlet k f).idKey = d.idKey := rfl
@[simp] theorem Dev.updOutlet_fwDigest (k : Nat) (f : Outlet → Outlet) : (d.updOutlet k f).fwDigest = d.fwDigest := rfl
@[simp] theorem Dev.updOutlet_quotes (k : Nat) (f : Outlet → Outlet) : (d.updOutlet k f).quotes = d.quotes := rfl
@[simp] theorem Dev.updOutlet_keyJobs (k : Nat) (f : Outlet → Outlet) : (d.updOutlet k f).keyJobs = d.keyJobs := rfl
@[simp] theorem Dev.updOutlet_fuseBusy (k : Nat) (f : Outlet → Outlet) : (d.updOutlet k f).fuseBusy = d.fuseBusy := rfl
@[simp] theorem Dev.updOutlet_jtagInstr (k : Nat) (f : Outlet → Outlet) : (d.updOutlet k f).jtagInstr = d.jtagInstr := rfl
@[simp] theorem Dev.updOutlet_mctpEid (k : Nat) (f : Outlet → Outlet) : (d.updOutlet k f).mctpEid = d.mctpEid := rfl
@[simp] theorem Dev.updOutlet_out (k : Nat) (f : Outlet → Outlet) : (d.updOutlet k f).out = d.out := rfl
@[simp] theorem Dev.updOutlet_draws (k : Nat) (f : Outlet → Outlet) : (d.updOutlet k f).draws = d.draws := rfl
@[simp] theorem Dev.updOutlet_ids (k : Nat) (f : Outlet → Outlet) : (d.updOutlet k f).ids = d.ids := rfl

/-! ## setIx -/

@[simp] theorem Dev.setIx_now (f : Index → Index) : (d.setIx f).now = d.now := rfl
@[simp] theorem Dev.setIx_regs (f : Index → Index) : (d.setIx f).regs = d.regs := rfl
@[simp] theorem Dev.setIx_fuses (f : Index → Index) : (d.setIx f).fuses = d.fuses := rfl
@[simp] theorem Dev.setIx_rom (f : Index → Index) : (d.setIx f).rom = d.rom := rfl
@[simp] theorem Dev.setIx_nor (f : Index → Index) : (d.setIx f).nor = d.nor := rfl
@[simp] theorem Dev.setIx_fresh (f : Index → Index) : (d.setIx f).fresh = d.fresh := rfl
@[simp] theorem Dev.setIx_jtagHold (f : Index → Index) : (d.setIx f).jtagHold = d.jtagHold := rfl
@[simp] theorem Dev.setIx_relAt (f : Index → Index) : (d.setIx f).relAt = d.relAt := rfl
@[simp] theorem Dev.setIx_thermTrip (f : Index → Index) : (d.setIx f).thermTrip = d.thermTrip := rfl
@[simp] theorem Dev.setIx_straps (f : Index → Index) : (d.setIx f).straps = d.straps := rfl
@[simp] theorem Dev.setIx_ports (f : Index → Index) : (d.setIx f).ports = d.ports := rfl
@[simp] theorem Dev.setIx_contracts (f : Index → Index) : (d.setIx f).contracts = d.contracts := rfl
@[simp] theorem Dev.setIx_bibs (f : Index → Index) : (d.setIx f).bibs = d.bibs := rfl
@[simp] theorem Dev.setIx_wins (f : Index → Index) : (d.setIx f).wins = d.wins := rfl
@[simp] theorem Dev.setIx_rings (f : Index → Index) : (d.setIx f).rings = d.rings := rfl
@[simp] theorem Dev.setIx_reqs (f : Index → Index) : (d.setIx f).reqs = d.reqs := rfl
@[simp] theorem Dev.setIx_dmas (f : Index → Index) : (d.setIx f).dmas = d.dmas := rfl
@[simp] theorem Dev.setIx_bufs (f : Index → Index) : (d.setIx f).bufs = d.bufs := rfl
@[simp] theorem Dev.setIx_recs (f : Index → Index) : (d.setIx f).recs = d.recs := rfl
@[simp] theorem Dev.setIx_fenced (f : Index → Index) : (d.setIx f).fenced = d.fenced := rfl
@[simp] theorem Dev.setIx_notifiedAt (f : Index → Index) : (d.setIx f).notifiedAt = d.notifiedAt := rfl
@[simp] theorem Dev.setIx_notifyHeld (f : Index → Index) : (d.setIx f).notifyHeld = d.notifyHeld := rfl
@[simp] theorem Dev.setIx_outlets (f : Index → Index) : (d.setIx f).outlets = d.outlets := rfl
@[simp] theorem Dev.setIx_queues (f : Index → Index) : (d.setIx f).queues = d.queues := rfl
@[simp] theorem Dev.setIx_pacers (f : Index → Index) : (d.setIx f).pacers = d.pacers := rfl
@[simp] theorem Dev.setIx_ptpCount (f : Index → Index) : (d.setIx f).ptpCount = d.ptpCount := rfl
@[simp] theorem Dev.setIx_ptpSync (f : Index → Index) : (d.setIx f).ptpSync = d.ptpSync := rfl
@[simp] theorem Dev.setIx_fl (f : Index → Index) : (d.setIx f).fl = d.fl := rfl
@[simp] theorem Dev.setIx_parts (f : Index → Index) : (d.setIx f).parts = d.parts := rfl
@[simp] theorem Dev.setIx_sliceMap (f : Index → Index) : (d.setIx f).sliceMap = d.sliceMap := rfl
@[simp] theorem Dev.setIx_em (f : Index → Index) : (d.setIx f).em = d.em := rfl
@[simp] theorem Dev.setIx_inf (f : Index → Index) : (d.setIx f).inf = d.inf := rfl
@[simp] theorem Dev.setIx_pl (f : Index → Index) : (d.setIx f).pl = d.pl := rfl
@[simp] theorem Dev.setIx_ld (f : Index → Index) : (d.setIx f).ld = d.ld := rfl
@[simp] theorem Dev.setIx_sl (f : Index → Index) : (d.setIx f).sl = d.sl := rfl
@[simp] theorem Dev.setIx_rcv (f : Index → Index) : (d.setIx f).rcv = d.rcv := rfl
@[simp] theorem Dev.setIx_panel (f : Index → Index) : (d.setIx f).panel = d.panel := rfl
@[simp] theorem Dev.setIx_costs (f : Index → Index) : (d.setIx f).costs = d.costs := rfl
@[simp] theorem Dev.setIx_mt (f : Index → Index) : (d.setIx f).mt = d.mt := rfl
@[simp] theorem Dev.setIx_measRun (f : Index → Index) : (d.setIx f).measRun = d.measRun := rfl
@[simp] theorem Dev.setIx_measLog (f : Index → Index) : (d.setIx f).measLog = d.measLog := rfl
@[simp] theorem Dev.setIx_idKey (f : Index → Index) : (d.setIx f).idKey = d.idKey := rfl
@[simp] theorem Dev.setIx_fwDigest (f : Index → Index) : (d.setIx f).fwDigest = d.fwDigest := rfl
@[simp] theorem Dev.setIx_quotes (f : Index → Index) : (d.setIx f).quotes = d.quotes := rfl
@[simp] theorem Dev.setIx_keyJobs (f : Index → Index) : (d.setIx f).keyJobs = d.keyJobs := rfl
@[simp] theorem Dev.setIx_fuseBusy (f : Index → Index) : (d.setIx f).fuseBusy = d.fuseBusy := rfl
@[simp] theorem Dev.setIx_jtagInstr (f : Index → Index) : (d.setIx f).jtagInstr = d.jtagInstr := rfl
@[simp] theorem Dev.setIx_mctpEid (f : Index → Index) : (d.setIx f).mctpEid = d.mctpEid := rfl
@[simp] theorem Dev.setIx_out (f : Index → Index) : (d.setIx f).out = d.out := rfl
@[simp] theorem Dev.setIx_draws (f : Index → Index) : (d.setIx f).draws = d.draws := rfl
@[simp] theorem Dev.setIx_ids (f : Index → Index) : (d.setIx f).ids = d.ids := rfl

/-! ## setEm -/

@[simp] theorem Dev.setEm_now (f : Embed → Embed) : (d.setEm f).now = d.now := rfl
@[simp] theorem Dev.setEm_regs (f : Embed → Embed) : (d.setEm f).regs = d.regs := rfl
@[simp] theorem Dev.setEm_fuses (f : Embed → Embed) : (d.setEm f).fuses = d.fuses := rfl
@[simp] theorem Dev.setEm_rom (f : Embed → Embed) : (d.setEm f).rom = d.rom := rfl
@[simp] theorem Dev.setEm_nor (f : Embed → Embed) : (d.setEm f).nor = d.nor := rfl
@[simp] theorem Dev.setEm_fresh (f : Embed → Embed) : (d.setEm f).fresh = d.fresh := rfl
@[simp] theorem Dev.setEm_jtagHold (f : Embed → Embed) : (d.setEm f).jtagHold = d.jtagHold := rfl
@[simp] theorem Dev.setEm_relAt (f : Embed → Embed) : (d.setEm f).relAt = d.relAt := rfl
@[simp] theorem Dev.setEm_thermTrip (f : Embed → Embed) : (d.setEm f).thermTrip = d.thermTrip := rfl
@[simp] theorem Dev.setEm_straps (f : Embed → Embed) : (d.setEm f).straps = d.straps := rfl
@[simp] theorem Dev.setEm_ports (f : Embed → Embed) : (d.setEm f).ports = d.ports := rfl
@[simp] theorem Dev.setEm_contracts (f : Embed → Embed) : (d.setEm f).contracts = d.contracts := rfl
@[simp] theorem Dev.setEm_bibs (f : Embed → Embed) : (d.setEm f).bibs = d.bibs := rfl
@[simp] theorem Dev.setEm_wins (f : Embed → Embed) : (d.setEm f).wins = d.wins := rfl
@[simp] theorem Dev.setEm_rings (f : Embed → Embed) : (d.setEm f).rings = d.rings := rfl
@[simp] theorem Dev.setEm_reqs (f : Embed → Embed) : (d.setEm f).reqs = d.reqs := rfl
@[simp] theorem Dev.setEm_dmas (f : Embed → Embed) : (d.setEm f).dmas = d.dmas := rfl
@[simp] theorem Dev.setEm_bufs (f : Embed → Embed) : (d.setEm f).bufs = d.bufs := rfl
@[simp] theorem Dev.setEm_recs (f : Embed → Embed) : (d.setEm f).recs = d.recs := rfl
@[simp] theorem Dev.setEm_fenced (f : Embed → Embed) : (d.setEm f).fenced = d.fenced := rfl
@[simp] theorem Dev.setEm_notifiedAt (f : Embed → Embed) : (d.setEm f).notifiedAt = d.notifiedAt := rfl
@[simp] theorem Dev.setEm_notifyHeld (f : Embed → Embed) : (d.setEm f).notifyHeld = d.notifyHeld := rfl
@[simp] theorem Dev.setEm_outlets (f : Embed → Embed) : (d.setEm f).outlets = d.outlets := rfl
@[simp] theorem Dev.setEm_queues (f : Embed → Embed) : (d.setEm f).queues = d.queues := rfl
@[simp] theorem Dev.setEm_pacers (f : Embed → Embed) : (d.setEm f).pacers = d.pacers := rfl
@[simp] theorem Dev.setEm_ptpCount (f : Embed → Embed) : (d.setEm f).ptpCount = d.ptpCount := rfl
@[simp] theorem Dev.setEm_ptpSync (f : Embed → Embed) : (d.setEm f).ptpSync = d.ptpSync := rfl
@[simp] theorem Dev.setEm_fl (f : Embed → Embed) : (d.setEm f).fl = d.fl := rfl
@[simp] theorem Dev.setEm_parts (f : Embed → Embed) : (d.setEm f).parts = d.parts := rfl
@[simp] theorem Dev.setEm_sliceMap (f : Embed → Embed) : (d.setEm f).sliceMap = d.sliceMap := rfl
@[simp] theorem Dev.setEm_ix (f : Embed → Embed) : (d.setEm f).ix = d.ix := rfl
@[simp] theorem Dev.setEm_inf (f : Embed → Embed) : (d.setEm f).inf = d.inf := rfl
@[simp] theorem Dev.setEm_pl (f : Embed → Embed) : (d.setEm f).pl = d.pl := rfl
@[simp] theorem Dev.setEm_ld (f : Embed → Embed) : (d.setEm f).ld = d.ld := rfl
@[simp] theorem Dev.setEm_sl (f : Embed → Embed) : (d.setEm f).sl = d.sl := rfl
@[simp] theorem Dev.setEm_rcv (f : Embed → Embed) : (d.setEm f).rcv = d.rcv := rfl
@[simp] theorem Dev.setEm_panel (f : Embed → Embed) : (d.setEm f).panel = d.panel := rfl
@[simp] theorem Dev.setEm_costs (f : Embed → Embed) : (d.setEm f).costs = d.costs := rfl
@[simp] theorem Dev.setEm_mt (f : Embed → Embed) : (d.setEm f).mt = d.mt := rfl
@[simp] theorem Dev.setEm_measRun (f : Embed → Embed) : (d.setEm f).measRun = d.measRun := rfl
@[simp] theorem Dev.setEm_measLog (f : Embed → Embed) : (d.setEm f).measLog = d.measLog := rfl
@[simp] theorem Dev.setEm_idKey (f : Embed → Embed) : (d.setEm f).idKey = d.idKey := rfl
@[simp] theorem Dev.setEm_fwDigest (f : Embed → Embed) : (d.setEm f).fwDigest = d.fwDigest := rfl
@[simp] theorem Dev.setEm_quotes (f : Embed → Embed) : (d.setEm f).quotes = d.quotes := rfl
@[simp] theorem Dev.setEm_keyJobs (f : Embed → Embed) : (d.setEm f).keyJobs = d.keyJobs := rfl
@[simp] theorem Dev.setEm_fuseBusy (f : Embed → Embed) : (d.setEm f).fuseBusy = d.fuseBusy := rfl
@[simp] theorem Dev.setEm_jtagInstr (f : Embed → Embed) : (d.setEm f).jtagInstr = d.jtagInstr := rfl
@[simp] theorem Dev.setEm_mctpEid (f : Embed → Embed) : (d.setEm f).mctpEid = d.mctpEid := rfl
@[simp] theorem Dev.setEm_out (f : Embed → Embed) : (d.setEm f).out = d.out := rfl
@[simp] theorem Dev.setEm_draws (f : Embed → Embed) : (d.setEm f).draws = d.draws := rfl
@[simp] theorem Dev.setEm_ids (f : Embed → Embed) : (d.setEm f).ids = d.ids := rfl

/-! ## setInf -/

@[simp] theorem Dev.setInf_now (f : Infield → Infield) : (d.setInf f).now = d.now := rfl
@[simp] theorem Dev.setInf_regs (f : Infield → Infield) : (d.setInf f).regs = d.regs := rfl
@[simp] theorem Dev.setInf_fuses (f : Infield → Infield) : (d.setInf f).fuses = d.fuses := rfl
@[simp] theorem Dev.setInf_rom (f : Infield → Infield) : (d.setInf f).rom = d.rom := rfl
@[simp] theorem Dev.setInf_nor (f : Infield → Infield) : (d.setInf f).nor = d.nor := rfl
@[simp] theorem Dev.setInf_fresh (f : Infield → Infield) : (d.setInf f).fresh = d.fresh := rfl
@[simp] theorem Dev.setInf_jtagHold (f : Infield → Infield) : (d.setInf f).jtagHold = d.jtagHold := rfl
@[simp] theorem Dev.setInf_relAt (f : Infield → Infield) : (d.setInf f).relAt = d.relAt := rfl
@[simp] theorem Dev.setInf_thermTrip (f : Infield → Infield) : (d.setInf f).thermTrip = d.thermTrip := rfl
@[simp] theorem Dev.setInf_straps (f : Infield → Infield) : (d.setInf f).straps = d.straps := rfl
@[simp] theorem Dev.setInf_ports (f : Infield → Infield) : (d.setInf f).ports = d.ports := rfl
@[simp] theorem Dev.setInf_contracts (f : Infield → Infield) : (d.setInf f).contracts = d.contracts := rfl
@[simp] theorem Dev.setInf_bibs (f : Infield → Infield) : (d.setInf f).bibs = d.bibs := rfl
@[simp] theorem Dev.setInf_wins (f : Infield → Infield) : (d.setInf f).wins = d.wins := rfl
@[simp] theorem Dev.setInf_rings (f : Infield → Infield) : (d.setInf f).rings = d.rings := rfl
@[simp] theorem Dev.setInf_reqs (f : Infield → Infield) : (d.setInf f).reqs = d.reqs := rfl
@[simp] theorem Dev.setInf_dmas (f : Infield → Infield) : (d.setInf f).dmas = d.dmas := rfl
@[simp] theorem Dev.setInf_bufs (f : Infield → Infield) : (d.setInf f).bufs = d.bufs := rfl
@[simp] theorem Dev.setInf_recs (f : Infield → Infield) : (d.setInf f).recs = d.recs := rfl
@[simp] theorem Dev.setInf_fenced (f : Infield → Infield) : (d.setInf f).fenced = d.fenced := rfl
@[simp] theorem Dev.setInf_notifiedAt (f : Infield → Infield) : (d.setInf f).notifiedAt = d.notifiedAt := rfl
@[simp] theorem Dev.setInf_notifyHeld (f : Infield → Infield) : (d.setInf f).notifyHeld = d.notifyHeld := rfl
@[simp] theorem Dev.setInf_outlets (f : Infield → Infield) : (d.setInf f).outlets = d.outlets := rfl
@[simp] theorem Dev.setInf_queues (f : Infield → Infield) : (d.setInf f).queues = d.queues := rfl
@[simp] theorem Dev.setInf_pacers (f : Infield → Infield) : (d.setInf f).pacers = d.pacers := rfl
@[simp] theorem Dev.setInf_ptpCount (f : Infield → Infield) : (d.setInf f).ptpCount = d.ptpCount := rfl
@[simp] theorem Dev.setInf_ptpSync (f : Infield → Infield) : (d.setInf f).ptpSync = d.ptpSync := rfl
@[simp] theorem Dev.setInf_fl (f : Infield → Infield) : (d.setInf f).fl = d.fl := rfl
@[simp] theorem Dev.setInf_parts (f : Infield → Infield) : (d.setInf f).parts = d.parts := rfl
@[simp] theorem Dev.setInf_sliceMap (f : Infield → Infield) : (d.setInf f).sliceMap = d.sliceMap := rfl
@[simp] theorem Dev.setInf_ix (f : Infield → Infield) : (d.setInf f).ix = d.ix := rfl
@[simp] theorem Dev.setInf_em (f : Infield → Infield) : (d.setInf f).em = d.em := rfl
@[simp] theorem Dev.setInf_pl (f : Infield → Infield) : (d.setInf f).pl = d.pl := rfl
@[simp] theorem Dev.setInf_ld (f : Infield → Infield) : (d.setInf f).ld = d.ld := rfl
@[simp] theorem Dev.setInf_sl (f : Infield → Infield) : (d.setInf f).sl = d.sl := rfl
@[simp] theorem Dev.setInf_rcv (f : Infield → Infield) : (d.setInf f).rcv = d.rcv := rfl
@[simp] theorem Dev.setInf_panel (f : Infield → Infield) : (d.setInf f).panel = d.panel := rfl
@[simp] theorem Dev.setInf_costs (f : Infield → Infield) : (d.setInf f).costs = d.costs := rfl
@[simp] theorem Dev.setInf_mt (f : Infield → Infield) : (d.setInf f).mt = d.mt := rfl
@[simp] theorem Dev.setInf_measRun (f : Infield → Infield) : (d.setInf f).measRun = d.measRun := rfl
@[simp] theorem Dev.setInf_measLog (f : Infield → Infield) : (d.setInf f).measLog = d.measLog := rfl
@[simp] theorem Dev.setInf_idKey (f : Infield → Infield) : (d.setInf f).idKey = d.idKey := rfl
@[simp] theorem Dev.setInf_fwDigest (f : Infield → Infield) : (d.setInf f).fwDigest = d.fwDigest := rfl
@[simp] theorem Dev.setInf_quotes (f : Infield → Infield) : (d.setInf f).quotes = d.quotes := rfl
@[simp] theorem Dev.setInf_keyJobs (f : Infield → Infield) : (d.setInf f).keyJobs = d.keyJobs := rfl
@[simp] theorem Dev.setInf_fuseBusy (f : Infield → Infield) : (d.setInf f).fuseBusy = d.fuseBusy := rfl
@[simp] theorem Dev.setInf_jtagInstr (f : Infield → Infield) : (d.setInf f).jtagInstr = d.jtagInstr := rfl
@[simp] theorem Dev.setInf_mctpEid (f : Infield → Infield) : (d.setInf f).mctpEid = d.mctpEid := rfl
@[simp] theorem Dev.setInf_out (f : Infield → Infield) : (d.setInf f).out = d.out := rfl
@[simp] theorem Dev.setInf_draws (f : Infield → Infield) : (d.setInf f).draws = d.draws := rfl
@[simp] theorem Dev.setInf_ids (f : Infield → Infield) : (d.setInf f).ids = d.ids := rfl

/-! ## setPl -/

@[simp] theorem Dev.setPl_now (f : Pool → Pool) : (d.setPl f).now = d.now := rfl
@[simp] theorem Dev.setPl_regs (f : Pool → Pool) : (d.setPl f).regs = d.regs := rfl
@[simp] theorem Dev.setPl_fuses (f : Pool → Pool) : (d.setPl f).fuses = d.fuses := rfl
@[simp] theorem Dev.setPl_rom (f : Pool → Pool) : (d.setPl f).rom = d.rom := rfl
@[simp] theorem Dev.setPl_nor (f : Pool → Pool) : (d.setPl f).nor = d.nor := rfl
@[simp] theorem Dev.setPl_fresh (f : Pool → Pool) : (d.setPl f).fresh = d.fresh := rfl
@[simp] theorem Dev.setPl_jtagHold (f : Pool → Pool) : (d.setPl f).jtagHold = d.jtagHold := rfl
@[simp] theorem Dev.setPl_relAt (f : Pool → Pool) : (d.setPl f).relAt = d.relAt := rfl
@[simp] theorem Dev.setPl_thermTrip (f : Pool → Pool) : (d.setPl f).thermTrip = d.thermTrip := rfl
@[simp] theorem Dev.setPl_straps (f : Pool → Pool) : (d.setPl f).straps = d.straps := rfl
@[simp] theorem Dev.setPl_ports (f : Pool → Pool) : (d.setPl f).ports = d.ports := rfl
@[simp] theorem Dev.setPl_contracts (f : Pool → Pool) : (d.setPl f).contracts = d.contracts := rfl
@[simp] theorem Dev.setPl_bibs (f : Pool → Pool) : (d.setPl f).bibs = d.bibs := rfl
@[simp] theorem Dev.setPl_wins (f : Pool → Pool) : (d.setPl f).wins = d.wins := rfl
@[simp] theorem Dev.setPl_rings (f : Pool → Pool) : (d.setPl f).rings = d.rings := rfl
@[simp] theorem Dev.setPl_reqs (f : Pool → Pool) : (d.setPl f).reqs = d.reqs := rfl
@[simp] theorem Dev.setPl_dmas (f : Pool → Pool) : (d.setPl f).dmas = d.dmas := rfl
@[simp] theorem Dev.setPl_bufs (f : Pool → Pool) : (d.setPl f).bufs = d.bufs := rfl
@[simp] theorem Dev.setPl_recs (f : Pool → Pool) : (d.setPl f).recs = d.recs := rfl
@[simp] theorem Dev.setPl_fenced (f : Pool → Pool) : (d.setPl f).fenced = d.fenced := rfl
@[simp] theorem Dev.setPl_notifiedAt (f : Pool → Pool) : (d.setPl f).notifiedAt = d.notifiedAt := rfl
@[simp] theorem Dev.setPl_notifyHeld (f : Pool → Pool) : (d.setPl f).notifyHeld = d.notifyHeld := rfl
@[simp] theorem Dev.setPl_outlets (f : Pool → Pool) : (d.setPl f).outlets = d.outlets := rfl
@[simp] theorem Dev.setPl_queues (f : Pool → Pool) : (d.setPl f).queues = d.queues := rfl
@[simp] theorem Dev.setPl_pacers (f : Pool → Pool) : (d.setPl f).pacers = d.pacers := rfl
@[simp] theorem Dev.setPl_ptpCount (f : Pool → Pool) : (d.setPl f).ptpCount = d.ptpCount := rfl
@[simp] theorem Dev.setPl_ptpSync (f : Pool → Pool) : (d.setPl f).ptpSync = d.ptpSync := rfl
@[simp] theorem Dev.setPl_fl (f : Pool → Pool) : (d.setPl f).fl = d.fl := rfl
@[simp] theorem Dev.setPl_parts (f : Pool → Pool) : (d.setPl f).parts = d.parts := rfl
@[simp] theorem Dev.setPl_sliceMap (f : Pool → Pool) : (d.setPl f).sliceMap = d.sliceMap := rfl
@[simp] theorem Dev.setPl_ix (f : Pool → Pool) : (d.setPl f).ix = d.ix := rfl
@[simp] theorem Dev.setPl_em (f : Pool → Pool) : (d.setPl f).em = d.em := rfl
@[simp] theorem Dev.setPl_inf (f : Pool → Pool) : (d.setPl f).inf = d.inf := rfl
@[simp] theorem Dev.setPl_ld (f : Pool → Pool) : (d.setPl f).ld = d.ld := rfl
@[simp] theorem Dev.setPl_sl (f : Pool → Pool) : (d.setPl f).sl = d.sl := rfl
@[simp] theorem Dev.setPl_rcv (f : Pool → Pool) : (d.setPl f).rcv = d.rcv := rfl
@[simp] theorem Dev.setPl_panel (f : Pool → Pool) : (d.setPl f).panel = d.panel := rfl
@[simp] theorem Dev.setPl_costs (f : Pool → Pool) : (d.setPl f).costs = d.costs := rfl
@[simp] theorem Dev.setPl_mt (f : Pool → Pool) : (d.setPl f).mt = d.mt := rfl
@[simp] theorem Dev.setPl_measRun (f : Pool → Pool) : (d.setPl f).measRun = d.measRun := rfl
@[simp] theorem Dev.setPl_measLog (f : Pool → Pool) : (d.setPl f).measLog = d.measLog := rfl
@[simp] theorem Dev.setPl_idKey (f : Pool → Pool) : (d.setPl f).idKey = d.idKey := rfl
@[simp] theorem Dev.setPl_fwDigest (f : Pool → Pool) : (d.setPl f).fwDigest = d.fwDigest := rfl
@[simp] theorem Dev.setPl_quotes (f : Pool → Pool) : (d.setPl f).quotes = d.quotes := rfl
@[simp] theorem Dev.setPl_keyJobs (f : Pool → Pool) : (d.setPl f).keyJobs = d.keyJobs := rfl
@[simp] theorem Dev.setPl_fuseBusy (f : Pool → Pool) : (d.setPl f).fuseBusy = d.fuseBusy := rfl
@[simp] theorem Dev.setPl_jtagInstr (f : Pool → Pool) : (d.setPl f).jtagInstr = d.jtagInstr := rfl
@[simp] theorem Dev.setPl_mctpEid (f : Pool → Pool) : (d.setPl f).mctpEid = d.mctpEid := rfl
@[simp] theorem Dev.setPl_out (f : Pool → Pool) : (d.setPl f).out = d.out := rfl
@[simp] theorem Dev.setPl_draws (f : Pool → Pool) : (d.setPl f).draws = d.draws := rfl
@[simp] theorem Dev.setPl_ids (f : Pool → Pool) : (d.setPl f).ids = d.ids := rfl

/-! ## setLd -/

@[simp] theorem Dev.setLd_now (f : Loader → Loader) : (d.setLd f).now = d.now := rfl
@[simp] theorem Dev.setLd_regs (f : Loader → Loader) : (d.setLd f).regs = d.regs := rfl
@[simp] theorem Dev.setLd_fuses (f : Loader → Loader) : (d.setLd f).fuses = d.fuses := rfl
@[simp] theorem Dev.setLd_rom (f : Loader → Loader) : (d.setLd f).rom = d.rom := rfl
@[simp] theorem Dev.setLd_nor (f : Loader → Loader) : (d.setLd f).nor = d.nor := rfl
@[simp] theorem Dev.setLd_fresh (f : Loader → Loader) : (d.setLd f).fresh = d.fresh := rfl
@[simp] theorem Dev.setLd_jtagHold (f : Loader → Loader) : (d.setLd f).jtagHold = d.jtagHold := rfl
@[simp] theorem Dev.setLd_relAt (f : Loader → Loader) : (d.setLd f).relAt = d.relAt := rfl
@[simp] theorem Dev.setLd_thermTrip (f : Loader → Loader) : (d.setLd f).thermTrip = d.thermTrip := rfl
@[simp] theorem Dev.setLd_straps (f : Loader → Loader) : (d.setLd f).straps = d.straps := rfl
@[simp] theorem Dev.setLd_ports (f : Loader → Loader) : (d.setLd f).ports = d.ports := rfl
@[simp] theorem Dev.setLd_contracts (f : Loader → Loader) : (d.setLd f).contracts = d.contracts := rfl
@[simp] theorem Dev.setLd_bibs (f : Loader → Loader) : (d.setLd f).bibs = d.bibs := rfl
@[simp] theorem Dev.setLd_wins (f : Loader → Loader) : (d.setLd f).wins = d.wins := rfl
@[simp] theorem Dev.setLd_rings (f : Loader → Loader) : (d.setLd f).rings = d.rings := rfl
@[simp] theorem Dev.setLd_reqs (f : Loader → Loader) : (d.setLd f).reqs = d.reqs := rfl
@[simp] theorem Dev.setLd_dmas (f : Loader → Loader) : (d.setLd f).dmas = d.dmas := rfl
@[simp] theorem Dev.setLd_bufs (f : Loader → Loader) : (d.setLd f).bufs = d.bufs := rfl
@[simp] theorem Dev.setLd_recs (f : Loader → Loader) : (d.setLd f).recs = d.recs := rfl
@[simp] theorem Dev.setLd_fenced (f : Loader → Loader) : (d.setLd f).fenced = d.fenced := rfl
@[simp] theorem Dev.setLd_notifiedAt (f : Loader → Loader) : (d.setLd f).notifiedAt = d.notifiedAt := rfl
@[simp] theorem Dev.setLd_notifyHeld (f : Loader → Loader) : (d.setLd f).notifyHeld = d.notifyHeld := rfl
@[simp] theorem Dev.setLd_outlets (f : Loader → Loader) : (d.setLd f).outlets = d.outlets := rfl
@[simp] theorem Dev.setLd_queues (f : Loader → Loader) : (d.setLd f).queues = d.queues := rfl
@[simp] theorem Dev.setLd_pacers (f : Loader → Loader) : (d.setLd f).pacers = d.pacers := rfl
@[simp] theorem Dev.setLd_ptpCount (f : Loader → Loader) : (d.setLd f).ptpCount = d.ptpCount := rfl
@[simp] theorem Dev.setLd_ptpSync (f : Loader → Loader) : (d.setLd f).ptpSync = d.ptpSync := rfl
@[simp] theorem Dev.setLd_fl (f : Loader → Loader) : (d.setLd f).fl = d.fl := rfl
@[simp] theorem Dev.setLd_parts (f : Loader → Loader) : (d.setLd f).parts = d.parts := rfl
@[simp] theorem Dev.setLd_sliceMap (f : Loader → Loader) : (d.setLd f).sliceMap = d.sliceMap := rfl
@[simp] theorem Dev.setLd_ix (f : Loader → Loader) : (d.setLd f).ix = d.ix := rfl
@[simp] theorem Dev.setLd_em (f : Loader → Loader) : (d.setLd f).em = d.em := rfl
@[simp] theorem Dev.setLd_inf (f : Loader → Loader) : (d.setLd f).inf = d.inf := rfl
@[simp] theorem Dev.setLd_pl (f : Loader → Loader) : (d.setLd f).pl = d.pl := rfl
@[simp] theorem Dev.setLd_sl (f : Loader → Loader) : (d.setLd f).sl = d.sl := rfl
@[simp] theorem Dev.setLd_rcv (f : Loader → Loader) : (d.setLd f).rcv = d.rcv := rfl
@[simp] theorem Dev.setLd_panel (f : Loader → Loader) : (d.setLd f).panel = d.panel := rfl
@[simp] theorem Dev.setLd_costs (f : Loader → Loader) : (d.setLd f).costs = d.costs := rfl
@[simp] theorem Dev.setLd_mt (f : Loader → Loader) : (d.setLd f).mt = d.mt := rfl
@[simp] theorem Dev.setLd_measRun (f : Loader → Loader) : (d.setLd f).measRun = d.measRun := rfl
@[simp] theorem Dev.setLd_measLog (f : Loader → Loader) : (d.setLd f).measLog = d.measLog := rfl
@[simp] theorem Dev.setLd_idKey (f : Loader → Loader) : (d.setLd f).idKey = d.idKey := rfl
@[simp] theorem Dev.setLd_fwDigest (f : Loader → Loader) : (d.setLd f).fwDigest = d.fwDigest := rfl
@[simp] theorem Dev.setLd_quotes (f : Loader → Loader) : (d.setLd f).quotes = d.quotes := rfl
@[simp] theorem Dev.setLd_keyJobs (f : Loader → Loader) : (d.setLd f).keyJobs = d.keyJobs := rfl
@[simp] theorem Dev.setLd_fuseBusy (f : Loader → Loader) : (d.setLd f).fuseBusy = d.fuseBusy := rfl
@[simp] theorem Dev.setLd_jtagInstr (f : Loader → Loader) : (d.setLd f).jtagInstr = d.jtagInstr := rfl
@[simp] theorem Dev.setLd_mctpEid (f : Loader → Loader) : (d.setLd f).mctpEid = d.mctpEid := rfl
@[simp] theorem Dev.setLd_out (f : Loader → Loader) : (d.setLd f).out = d.out := rfl
@[simp] theorem Dev.setLd_draws (f : Loader → Loader) : (d.setLd f).draws = d.draws := rfl
@[simp] theorem Dev.setLd_ids (f : Loader → Loader) : (d.setLd f).ids = d.ids := rfl

/-! ## setMt -/

@[simp] theorem Dev.setMt_now (f : Meet → Meet) : (d.setMt f).now = d.now := rfl
@[simp] theorem Dev.setMt_regs (f : Meet → Meet) : (d.setMt f).regs = d.regs := rfl
@[simp] theorem Dev.setMt_fuses (f : Meet → Meet) : (d.setMt f).fuses = d.fuses := rfl
@[simp] theorem Dev.setMt_rom (f : Meet → Meet) : (d.setMt f).rom = d.rom := rfl
@[simp] theorem Dev.setMt_nor (f : Meet → Meet) : (d.setMt f).nor = d.nor := rfl
@[simp] theorem Dev.setMt_fresh (f : Meet → Meet) : (d.setMt f).fresh = d.fresh := rfl
@[simp] theorem Dev.setMt_jtagHold (f : Meet → Meet) : (d.setMt f).jtagHold = d.jtagHold := rfl
@[simp] theorem Dev.setMt_relAt (f : Meet → Meet) : (d.setMt f).relAt = d.relAt := rfl
@[simp] theorem Dev.setMt_thermTrip (f : Meet → Meet) : (d.setMt f).thermTrip = d.thermTrip := rfl
@[simp] theorem Dev.setMt_straps (f : Meet → Meet) : (d.setMt f).straps = d.straps := rfl
@[simp] theorem Dev.setMt_ports (f : Meet → Meet) : (d.setMt f).ports = d.ports := rfl
@[simp] theorem Dev.setMt_contracts (f : Meet → Meet) : (d.setMt f).contracts = d.contracts := rfl
@[simp] theorem Dev.setMt_bibs (f : Meet → Meet) : (d.setMt f).bibs = d.bibs := rfl
@[simp] theorem Dev.setMt_wins (f : Meet → Meet) : (d.setMt f).wins = d.wins := rfl
@[simp] theorem Dev.setMt_rings (f : Meet → Meet) : (d.setMt f).rings = d.rings := rfl
@[simp] theorem Dev.setMt_reqs (f : Meet → Meet) : (d.setMt f).reqs = d.reqs := rfl
@[simp] theorem Dev.setMt_dmas (f : Meet → Meet) : (d.setMt f).dmas = d.dmas := rfl
@[simp] theorem Dev.setMt_bufs (f : Meet → Meet) : (d.setMt f).bufs = d.bufs := rfl
@[simp] theorem Dev.setMt_recs (f : Meet → Meet) : (d.setMt f).recs = d.recs := rfl
@[simp] theorem Dev.setMt_fenced (f : Meet → Meet) : (d.setMt f).fenced = d.fenced := rfl
@[simp] theorem Dev.setMt_notifiedAt (f : Meet → Meet) : (d.setMt f).notifiedAt = d.notifiedAt := rfl
@[simp] theorem Dev.setMt_notifyHeld (f : Meet → Meet) : (d.setMt f).notifyHeld = d.notifyHeld := rfl
@[simp] theorem Dev.setMt_outlets (f : Meet → Meet) : (d.setMt f).outlets = d.outlets := rfl
@[simp] theorem Dev.setMt_queues (f : Meet → Meet) : (d.setMt f).queues = d.queues := rfl
@[simp] theorem Dev.setMt_pacers (f : Meet → Meet) : (d.setMt f).pacers = d.pacers := rfl
@[simp] theorem Dev.setMt_ptpCount (f : Meet → Meet) : (d.setMt f).ptpCount = d.ptpCount := rfl
@[simp] theorem Dev.setMt_ptpSync (f : Meet → Meet) : (d.setMt f).ptpSync = d.ptpSync := rfl
@[simp] theorem Dev.setMt_fl (f : Meet → Meet) : (d.setMt f).fl = d.fl := rfl
@[simp] theorem Dev.setMt_parts (f : Meet → Meet) : (d.setMt f).parts = d.parts := rfl
@[simp] theorem Dev.setMt_sliceMap (f : Meet → Meet) : (d.setMt f).sliceMap = d.sliceMap := rfl
@[simp] theorem Dev.setMt_ix (f : Meet → Meet) : (d.setMt f).ix = d.ix := rfl
@[simp] theorem Dev.setMt_em (f : Meet → Meet) : (d.setMt f).em = d.em := rfl
@[simp] theorem Dev.setMt_inf (f : Meet → Meet) : (d.setMt f).inf = d.inf := rfl
@[simp] theorem Dev.setMt_pl (f : Meet → Meet) : (d.setMt f).pl = d.pl := rfl
@[simp] theorem Dev.setMt_ld (f : Meet → Meet) : (d.setMt f).ld = d.ld := rfl
@[simp] theorem Dev.setMt_sl (f : Meet → Meet) : (d.setMt f).sl = d.sl := rfl
@[simp] theorem Dev.setMt_rcv (f : Meet → Meet) : (d.setMt f).rcv = d.rcv := rfl
@[simp] theorem Dev.setMt_panel (f : Meet → Meet) : (d.setMt f).panel = d.panel := rfl
@[simp] theorem Dev.setMt_costs (f : Meet → Meet) : (d.setMt f).costs = d.costs := rfl
@[simp] theorem Dev.setMt_measRun (f : Meet → Meet) : (d.setMt f).measRun = d.measRun := rfl
@[simp] theorem Dev.setMt_measLog (f : Meet → Meet) : (d.setMt f).measLog = d.measLog := rfl
@[simp] theorem Dev.setMt_idKey (f : Meet → Meet) : (d.setMt f).idKey = d.idKey := rfl
@[simp] theorem Dev.setMt_fwDigest (f : Meet → Meet) : (d.setMt f).fwDigest = d.fwDigest := rfl
@[simp] theorem Dev.setMt_quotes (f : Meet → Meet) : (d.setMt f).quotes = d.quotes := rfl
@[simp] theorem Dev.setMt_keyJobs (f : Meet → Meet) : (d.setMt f).keyJobs = d.keyJobs := rfl
@[simp] theorem Dev.setMt_fuseBusy (f : Meet → Meet) : (d.setMt f).fuseBusy = d.fuseBusy := rfl
@[simp] theorem Dev.setMt_jtagInstr (f : Meet → Meet) : (d.setMt f).jtagInstr = d.jtagInstr := rfl
@[simp] theorem Dev.setMt_mctpEid (f : Meet → Meet) : (d.setMt f).mctpEid = d.mctpEid := rfl
@[simp] theorem Dev.setMt_out (f : Meet → Meet) : (d.setMt f).out = d.out := rfl
@[simp] theorem Dev.setMt_draws (f : Meet → Meet) : (d.setMt f).draws = d.draws := rfl
@[simp] theorem Dev.setMt_ids (f : Meet → Meet) : (d.setMt f).ids = d.ids := rfl

/-! ## pushFrame -/

@[simp] theorem Dev.pushFrame_now (o u w : Nat) (f : Frame) : (d.pushFrame o u w f).now = d.now := rfl
@[simp] theorem Dev.pushFrame_regs (o u w : Nat) (f : Frame) : (d.pushFrame o u w f).regs = d.regs := rfl
@[simp] theorem Dev.pushFrame_fuses (o u w : Nat) (f : Frame) : (d.pushFrame o u w f).fuses = d.fuses := rfl
@[simp] theorem Dev.pushFrame_rom (o u w : Nat) (f : Frame) : (d.pushFrame o u w f).rom = d.rom := rfl
@[simp] theorem Dev.pushFrame_nor (o u w : Nat) (f : Frame) : (d.pushFrame o u w f).nor = d.nor := rfl
@[simp] theorem Dev.pushFrame_fresh (o u w : Nat) (f : Frame) : (d.pushFrame o u w f).fresh = d.fresh := rfl
@[simp] theorem Dev.pushFrame_jtagHold (o u w : Nat) (f : Frame) : (d.pushFrame o u w f).jtagHold = d.jtagHold := rfl
@[simp] theorem Dev.pushFrame_relAt (o u w : Nat) (f : Frame) : (d.pushFrame o u w f).relAt = d.relAt := rfl
@[simp] theorem Dev.pushFrame_thermTrip (o u w : Nat) (f : Frame) : (d.pushFrame o u w f).thermTrip = d.thermTrip := rfl
@[simp] theorem Dev.pushFrame_straps (o u w : Nat) (f : Frame) : (d.pushFrame o u w f).straps = d.straps := rfl
@[simp] theorem Dev.pushFrame_ports (o u w : Nat) (f : Frame) : (d.pushFrame o u w f).ports = d.ports := rfl
@[simp] theorem Dev.pushFrame_contracts (o u w : Nat) (f : Frame) : (d.pushFrame o u w f).contracts = d.contracts := rfl
@[simp] theorem Dev.pushFrame_bibs (o u w : Nat) (f : Frame) : (d.pushFrame o u w f).bibs = d.bibs := rfl
@[simp] theorem Dev.pushFrame_wins (o u w : Nat) (f : Frame) : (d.pushFrame o u w f).wins = d.wins := rfl
@[simp] theorem Dev.pushFrame_rings (o u w : Nat) (f : Frame) : (d.pushFrame o u w f).rings = d.rings := rfl
@[simp] theorem Dev.pushFrame_reqs (o u w : Nat) (f : Frame) : (d.pushFrame o u w f).reqs = d.reqs := rfl
@[simp] theorem Dev.pushFrame_dmas (o u w : Nat) (f : Frame) : (d.pushFrame o u w f).dmas = d.dmas := rfl
@[simp] theorem Dev.pushFrame_bufs (o u w : Nat) (f : Frame) : (d.pushFrame o u w f).bufs = d.bufs := rfl
@[simp] theorem Dev.pushFrame_recs (o u w : Nat) (f : Frame) : (d.pushFrame o u w f).recs = d.recs := rfl
@[simp] theorem Dev.pushFrame_fenced (o u w : Nat) (f : Frame) : (d.pushFrame o u w f).fenced = d.fenced := rfl
@[simp] theorem Dev.pushFrame_notifiedAt (o u w : Nat) (f : Frame) : (d.pushFrame o u w f).notifiedAt = d.notifiedAt := rfl
@[simp] theorem Dev.pushFrame_notifyHeld (o u w : Nat) (f : Frame) : (d.pushFrame o u w f).notifyHeld = d.notifyHeld := rfl
@[simp] theorem Dev.pushFrame_outlets (o u w : Nat) (f : Frame) : (d.pushFrame o u w f).outlets = d.outlets := rfl
@[simp] theorem Dev.pushFrame_pacers (o u w : Nat) (f : Frame) : (d.pushFrame o u w f).pacers = d.pacers := rfl
@[simp] theorem Dev.pushFrame_ptpCount (o u w : Nat) (f : Frame) : (d.pushFrame o u w f).ptpCount = d.ptpCount := rfl
@[simp] theorem Dev.pushFrame_ptpSync (o u w : Nat) (f : Frame) : (d.pushFrame o u w f).ptpSync = d.ptpSync := rfl
@[simp] theorem Dev.pushFrame_fl (o u w : Nat) (f : Frame) : (d.pushFrame o u w f).fl = d.fl := rfl
@[simp] theorem Dev.pushFrame_parts (o u w : Nat) (f : Frame) : (d.pushFrame o u w f).parts = d.parts := rfl
@[simp] theorem Dev.pushFrame_sliceMap (o u w : Nat) (f : Frame) : (d.pushFrame o u w f).sliceMap = d.sliceMap := rfl
@[simp] theorem Dev.pushFrame_ix (o u w : Nat) (f : Frame) : (d.pushFrame o u w f).ix = d.ix := rfl
@[simp] theorem Dev.pushFrame_em (o u w : Nat) (f : Frame) : (d.pushFrame o u w f).em = d.em := rfl
@[simp] theorem Dev.pushFrame_inf (o u w : Nat) (f : Frame) : (d.pushFrame o u w f).inf = d.inf := rfl
@[simp] theorem Dev.pushFrame_pl (o u w : Nat) (f : Frame) : (d.pushFrame o u w f).pl = d.pl := rfl
@[simp] theorem Dev.pushFrame_ld (o u w : Nat) (f : Frame) : (d.pushFrame o u w f).ld = d.ld := rfl
@[simp] theorem Dev.pushFrame_sl (o u w : Nat) (f : Frame) : (d.pushFrame o u w f).sl = d.sl := rfl
@[simp] theorem Dev.pushFrame_rcv (o u w : Nat) (f : Frame) : (d.pushFrame o u w f).rcv = d.rcv := rfl
@[simp] theorem Dev.pushFrame_panel (o u w : Nat) (f : Frame) : (d.pushFrame o u w f).panel = d.panel := rfl
@[simp] theorem Dev.pushFrame_costs (o u w : Nat) (f : Frame) : (d.pushFrame o u w f).costs = d.costs := rfl
@[simp] theorem Dev.pushFrame_mt (o u w : Nat) (f : Frame) : (d.pushFrame o u w f).mt = d.mt := rfl
@[simp] theorem Dev.pushFrame_measRun (o u w : Nat) (f : Frame) : (d.pushFrame o u w f).measRun = d.measRun := rfl
@[simp] theorem Dev.pushFrame_measLog (o u w : Nat) (f : Frame) : (d.pushFrame o u w f).measLog = d.measLog := rfl
@[simp] theorem Dev.pushFrame_idKey (o u w : Nat) (f : Frame) : (d.pushFrame o u w f).idKey = d.idKey := rfl
@[simp] theorem Dev.pushFrame_fwDigest (o u w : Nat) (f : Frame) : (d.pushFrame o u w f).fwDigest = d.fwDigest := rfl
@[simp] theorem Dev.pushFrame_quotes (o u w : Nat) (f : Frame) : (d.pushFrame o u w f).quotes = d.quotes := rfl
@[simp] theorem Dev.pushFrame_keyJobs (o u w : Nat) (f : Frame) : (d.pushFrame o u w f).keyJobs = d.keyJobs := rfl
@[simp] theorem Dev.pushFrame_fuseBusy (o u w : Nat) (f : Frame) : (d.pushFrame o u w f).fuseBusy = d.fuseBusy := rfl
@[simp] theorem Dev.pushFrame_jtagInstr (o u w : Nat) (f : Frame) : (d.pushFrame o u w f).jtagInstr = d.jtagInstr := rfl
@[simp] theorem Dev.pushFrame_mctpEid (o u w : Nat) (f : Frame) : (d.pushFrame o u w f).mctpEid = d.mctpEid := rfl
@[simp] theorem Dev.pushFrame_out (o u w : Nat) (f : Frame) : (d.pushFrame o u w f).out = d.out := rfl
@[simp] theorem Dev.pushFrame_draws (o u w : Nat) (f : Frame) : (d.pushFrame o u w f).draws = d.draws := rfl
@[simp] theorem Dev.pushFrame_ids (o u w : Nat) (f : Frame) : (d.pushFrame o u w f).ids = d.ids := rfl

/-! ## pushCtl -/

@[simp] theorem Dev.pushCtl_now (o n : Nat) (e : List Emit) : (d.pushCtl o n e).now = d.now := rfl
@[simp] theorem Dev.pushCtl_regs (o n : Nat) (e : List Emit) : (d.pushCtl o n e).regs = d.regs := rfl
@[simp] theorem Dev.pushCtl_fuses (o n : Nat) (e : List Emit) : (d.pushCtl o n e).fuses = d.fuses := rfl
@[simp] theorem Dev.pushCtl_rom (o n : Nat) (e : List Emit) : (d.pushCtl o n e).rom = d.rom := rfl
@[simp] theorem Dev.pushCtl_nor (o n : Nat) (e : List Emit) : (d.pushCtl o n e).nor = d.nor := rfl
@[simp] theorem Dev.pushCtl_fresh (o n : Nat) (e : List Emit) : (d.pushCtl o n e).fresh = d.fresh := rfl
@[simp] theorem Dev.pushCtl_jtagHold (o n : Nat) (e : List Emit) : (d.pushCtl o n e).jtagHold = d.jtagHold := rfl
@[simp] theorem Dev.pushCtl_relAt (o n : Nat) (e : List Emit) : (d.pushCtl o n e).relAt = d.relAt := rfl
@[simp] theorem Dev.pushCtl_thermTrip (o n : Nat) (e : List Emit) : (d.pushCtl o n e).thermTrip = d.thermTrip := rfl
@[simp] theorem Dev.pushCtl_straps (o n : Nat) (e : List Emit) : (d.pushCtl o n e).straps = d.straps := rfl
@[simp] theorem Dev.pushCtl_ports (o n : Nat) (e : List Emit) : (d.pushCtl o n e).ports = d.ports := rfl
@[simp] theorem Dev.pushCtl_contracts (o n : Nat) (e : List Emit) : (d.pushCtl o n e).contracts = d.contracts := rfl
@[simp] theorem Dev.pushCtl_bibs (o n : Nat) (e : List Emit) : (d.pushCtl o n e).bibs = d.bibs := rfl
@[simp] theorem Dev.pushCtl_wins (o n : Nat) (e : List Emit) : (d.pushCtl o n e).wins = d.wins := rfl
@[simp] theorem Dev.pushCtl_rings (o n : Nat) (e : List Emit) : (d.pushCtl o n e).rings = d.rings := rfl
@[simp] theorem Dev.pushCtl_reqs (o n : Nat) (e : List Emit) : (d.pushCtl o n e).reqs = d.reqs := rfl
@[simp] theorem Dev.pushCtl_dmas (o n : Nat) (e : List Emit) : (d.pushCtl o n e).dmas = d.dmas := rfl
@[simp] theorem Dev.pushCtl_bufs (o n : Nat) (e : List Emit) : (d.pushCtl o n e).bufs = d.bufs := rfl
@[simp] theorem Dev.pushCtl_recs (o n : Nat) (e : List Emit) : (d.pushCtl o n e).recs = d.recs := rfl
@[simp] theorem Dev.pushCtl_fenced (o n : Nat) (e : List Emit) : (d.pushCtl o n e).fenced = d.fenced := rfl
@[simp] theorem Dev.pushCtl_notifiedAt (o n : Nat) (e : List Emit) : (d.pushCtl o n e).notifiedAt = d.notifiedAt := rfl
@[simp] theorem Dev.pushCtl_notifyHeld (o n : Nat) (e : List Emit) : (d.pushCtl o n e).notifyHeld = d.notifyHeld := rfl
@[simp] theorem Dev.pushCtl_queues (o n : Nat) (e : List Emit) : (d.pushCtl o n e).queues = d.queues := rfl
@[simp] theorem Dev.pushCtl_pacers (o n : Nat) (e : List Emit) : (d.pushCtl o n e).pacers = d.pacers := rfl
@[simp] theorem Dev.pushCtl_ptpCount (o n : Nat) (e : List Emit) : (d.pushCtl o n e).ptpCount = d.ptpCount := rfl
@[simp] theorem Dev.pushCtl_ptpSync (o n : Nat) (e : List Emit) : (d.pushCtl o n e).ptpSync = d.ptpSync := rfl
@[simp] theorem Dev.pushCtl_fl (o n : Nat) (e : List Emit) : (d.pushCtl o n e).fl = d.fl := rfl
@[simp] theorem Dev.pushCtl_parts (o n : Nat) (e : List Emit) : (d.pushCtl o n e).parts = d.parts := rfl
@[simp] theorem Dev.pushCtl_sliceMap (o n : Nat) (e : List Emit) : (d.pushCtl o n e).sliceMap = d.sliceMap := rfl
@[simp] theorem Dev.pushCtl_ix (o n : Nat) (e : List Emit) : (d.pushCtl o n e).ix = d.ix := rfl
@[simp] theorem Dev.pushCtl_em (o n : Nat) (e : List Emit) : (d.pushCtl o n e).em = d.em := rfl
@[simp] theorem Dev.pushCtl_inf (o n : Nat) (e : List Emit) : (d.pushCtl o n e).inf = d.inf := rfl
@[simp] theorem Dev.pushCtl_pl (o n : Nat) (e : List Emit) : (d.pushCtl o n e).pl = d.pl := rfl
@[simp] theorem Dev.pushCtl_ld (o n : Nat) (e : List Emit) : (d.pushCtl o n e).ld = d.ld := rfl
@[simp] theorem Dev.pushCtl_sl (o n : Nat) (e : List Emit) : (d.pushCtl o n e).sl = d.sl := rfl
@[simp] theorem Dev.pushCtl_rcv (o n : Nat) (e : List Emit) : (d.pushCtl o n e).rcv = d.rcv := rfl
@[simp] theorem Dev.pushCtl_panel (o n : Nat) (e : List Emit) : (d.pushCtl o n e).panel = d.panel := rfl
@[simp] theorem Dev.pushCtl_costs (o n : Nat) (e : List Emit) : (d.pushCtl o n e).costs = d.costs := rfl
@[simp] theorem Dev.pushCtl_mt (o n : Nat) (e : List Emit) : (d.pushCtl o n e).mt = d.mt := rfl
@[simp] theorem Dev.pushCtl_measRun (o n : Nat) (e : List Emit) : (d.pushCtl o n e).measRun = d.measRun := rfl
@[simp] theorem Dev.pushCtl_measLog (o n : Nat) (e : List Emit) : (d.pushCtl o n e).measLog = d.measLog := rfl
@[simp] theorem Dev.pushCtl_idKey (o n : Nat) (e : List Emit) : (d.pushCtl o n e).idKey = d.idKey := rfl
@[simp] theorem Dev.pushCtl_fwDigest (o n : Nat) (e : List Emit) : (d.pushCtl o n e).fwDigest = d.fwDigest := rfl
@[simp] theorem Dev.pushCtl_quotes (o n : Nat) (e : List Emit) : (d.pushCtl o n e).quotes = d.quotes := rfl
@[simp] theorem Dev.pushCtl_keyJobs (o n : Nat) (e : List Emit) : (d.pushCtl o n e).keyJobs = d.keyJobs := rfl
@[simp] theorem Dev.pushCtl_fuseBusy (o n : Nat) (e : List Emit) : (d.pushCtl o n e).fuseBusy = d.fuseBusy := rfl
@[simp] theorem Dev.pushCtl_jtagInstr (o n : Nat) (e : List Emit) : (d.pushCtl o n e).jtagInstr = d.jtagInstr := rfl
@[simp] theorem Dev.pushCtl_mctpEid (o n : Nat) (e : List Emit) : (d.pushCtl o n e).mctpEid = d.mctpEid := rfl
@[simp] theorem Dev.pushCtl_out (o n : Nat) (e : List Emit) : (d.pushCtl o n e).out = d.out := rfl
@[simp] theorem Dev.pushCtl_draws (o n : Nat) (e : List Emit) : (d.pushCtl o n e).draws = d.draws := rfl
@[simp] theorem Dev.pushCtl_ids (o n : Nat) (e : List Emit) : (d.pushCtl o n e).ids = d.ids := rfl

/-! ## norStore -/

@[simp] theorem Dev.norStore_now (n : Nat) (b : Bytes) : (d.norStore n b).now = d.now := rfl
@[simp] theorem Dev.norStore_regs (n : Nat) (b : Bytes) : (d.norStore n b).regs = d.regs := rfl
@[simp] theorem Dev.norStore_fuses (n : Nat) (b : Bytes) : (d.norStore n b).fuses = d.fuses := rfl
@[simp] theorem Dev.norStore_rom (n : Nat) (b : Bytes) : (d.norStore n b).rom = d.rom := rfl
@[simp] theorem Dev.norStore_fresh (n : Nat) (b : Bytes) : (d.norStore n b).fresh = d.fresh := rfl
@[simp] theorem Dev.norStore_jtagHold (n : Nat) (b : Bytes) : (d.norStore n b).jtagHold = d.jtagHold := rfl
@[simp] theorem Dev.norStore_relAt (n : Nat) (b : Bytes) : (d.norStore n b).relAt = d.relAt := rfl
@[simp] theorem Dev.norStore_thermTrip (n : Nat) (b : Bytes) : (d.norStore n b).thermTrip = d.thermTrip := rfl
@[simp] theorem Dev.norStore_straps (n : Nat) (b : Bytes) : (d.norStore n b).straps = d.straps := rfl
@[simp] theorem Dev.norStore_ports (n : Nat) (b : Bytes) : (d.norStore n b).ports = d.ports := rfl
@[simp] theorem Dev.norStore_contracts (n : Nat) (b : Bytes) : (d.norStore n b).contracts = d.contracts := rfl
@[simp] theorem Dev.norStore_bibs (n : Nat) (b : Bytes) : (d.norStore n b).bibs = d.bibs := rfl
@[simp] theorem Dev.norStore_wins (n : Nat) (b : Bytes) : (d.norStore n b).wins = d.wins := rfl
@[simp] theorem Dev.norStore_rings (n : Nat) (b : Bytes) : (d.norStore n b).rings = d.rings := rfl
@[simp] theorem Dev.norStore_reqs (n : Nat) (b : Bytes) : (d.norStore n b).reqs = d.reqs := rfl
@[simp] theorem Dev.norStore_dmas (n : Nat) (b : Bytes) : (d.norStore n b).dmas = d.dmas := rfl
@[simp] theorem Dev.norStore_bufs (n : Nat) (b : Bytes) : (d.norStore n b).bufs = d.bufs := rfl
@[simp] theorem Dev.norStore_recs (n : Nat) (b : Bytes) : (d.norStore n b).recs = d.recs := rfl
@[simp] theorem Dev.norStore_fenced (n : Nat) (b : Bytes) : (d.norStore n b).fenced = d.fenced := rfl
@[simp] theorem Dev.norStore_notifiedAt (n : Nat) (b : Bytes) : (d.norStore n b).notifiedAt = d.notifiedAt := rfl
@[simp] theorem Dev.norStore_notifyHeld (n : Nat) (b : Bytes) : (d.norStore n b).notifyHeld = d.notifyHeld := rfl
@[simp] theorem Dev.norStore_outlets (n : Nat) (b : Bytes) : (d.norStore n b).outlets = d.outlets := rfl
@[simp] theorem Dev.norStore_queues (n : Nat) (b : Bytes) : (d.norStore n b).queues = d.queues := rfl
@[simp] theorem Dev.norStore_pacers (n : Nat) (b : Bytes) : (d.norStore n b).pacers = d.pacers := rfl
@[simp] theorem Dev.norStore_ptpCount (n : Nat) (b : Bytes) : (d.norStore n b).ptpCount = d.ptpCount := rfl
@[simp] theorem Dev.norStore_ptpSync (n : Nat) (b : Bytes) : (d.norStore n b).ptpSync = d.ptpSync := rfl
@[simp] theorem Dev.norStore_fl (n : Nat) (b : Bytes) : (d.norStore n b).fl = d.fl := rfl
@[simp] theorem Dev.norStore_parts (n : Nat) (b : Bytes) : (d.norStore n b).parts = d.parts := rfl
@[simp] theorem Dev.norStore_sliceMap (n : Nat) (b : Bytes) : (d.norStore n b).sliceMap = d.sliceMap := rfl
@[simp] theorem Dev.norStore_ix (n : Nat) (b : Bytes) : (d.norStore n b).ix = d.ix := rfl
@[simp] theorem Dev.norStore_em (n : Nat) (b : Bytes) : (d.norStore n b).em = d.em := rfl
@[simp] theorem Dev.norStore_inf (n : Nat) (b : Bytes) : (d.norStore n b).inf = d.inf := rfl
@[simp] theorem Dev.norStore_pl (n : Nat) (b : Bytes) : (d.norStore n b).pl = d.pl := rfl
@[simp] theorem Dev.norStore_ld (n : Nat) (b : Bytes) : (d.norStore n b).ld = d.ld := rfl
@[simp] theorem Dev.norStore_sl (n : Nat) (b : Bytes) : (d.norStore n b).sl = d.sl := rfl
@[simp] theorem Dev.norStore_rcv (n : Nat) (b : Bytes) : (d.norStore n b).rcv = d.rcv := rfl
@[simp] theorem Dev.norStore_panel (n : Nat) (b : Bytes) : (d.norStore n b).panel = d.panel := rfl
@[simp] theorem Dev.norStore_costs (n : Nat) (b : Bytes) : (d.norStore n b).costs = d.costs := rfl
@[simp] theorem Dev.norStore_mt (n : Nat) (b : Bytes) : (d.norStore n b).mt = d.mt := rfl
@[simp] theorem Dev.norStore_measRun (n : Nat) (b : Bytes) : (d.norStore n b).measRun = d.measRun := rfl
@[simp] theorem Dev.norStore_measLog (n : Nat) (b : Bytes) : (d.norStore n b).measLog = d.measLog := rfl
@[simp] theorem Dev.norStore_idKey (n : Nat) (b : Bytes) : (d.norStore n b).idKey = d.idKey := rfl
@[simp] theorem Dev.norStore_fwDigest (n : Nat) (b : Bytes) : (d.norStore n b).fwDigest = d.fwDigest := rfl
@[simp] theorem Dev.norStore_quotes (n : Nat) (b : Bytes) : (d.norStore n b).quotes = d.quotes := rfl
@[simp] theorem Dev.norStore_keyJobs (n : Nat) (b : Bytes) : (d.norStore n b).keyJobs = d.keyJobs := rfl
@[simp] theorem Dev.norStore_fuseBusy (n : Nat) (b : Bytes) : (d.norStore n b).fuseBusy = d.fuseBusy := rfl
@[simp] theorem Dev.norStore_jtagInstr (n : Nat) (b : Bytes) : (d.norStore n b).jtagInstr = d.jtagInstr := rfl
@[simp] theorem Dev.norStore_mctpEid (n : Nat) (b : Bytes) : (d.norStore n b).mctpEid = d.mctpEid := rfl
@[simp] theorem Dev.norStore_out (n : Nat) (b : Bytes) : (d.norStore n b).out = d.out := rfl
@[simp] theorem Dev.norStore_draws (n : Nat) (b : Bytes) : (d.norStore n b).draws = d.draws := rfl
@[simp] theorem Dev.norStore_ids (n : Nat) (b : Bytes) : (d.norStore n b).ids = d.ids := rfl

@[simp] theorem Dev.advance_now (t : Nat) : (d.advance t).now = max d.now t := rfl
@[simp] theorem Dev.emit_out (e : Emit) : (d.emit e).out = d.out ++ [e] := rfl
@[simp] theorem Dev.draw_fst : d.draw.1 = d.draws := rfl
@[simp] theorem Dev.newId_fst : d.newId.1 = d.ids := rfl
@[simp] theorem Dev.draw_now : d.draw.2.now = d.now := rfl
@[simp] theorem Dev.draw_regs : d.draw.2.regs = d.regs := rfl
@[simp] theorem Dev.draw_fuses : d.draw.2.fuses = d.fuses := rfl
@[simp] theorem Dev.draw_rom : d.draw.2.rom = d.rom := rfl
@[simp] theorem Dev.draw_nor : d.draw.2.nor = d.nor := rfl
@[simp] theorem Dev.draw_fresh : d.draw.2.fresh = d.fresh := rfl
@[simp] theorem Dev.draw_jtagHold : d.draw.2.jtagHold = d.jtagHold := rfl
@[simp] theorem Dev.draw_relAt : d.draw.2.relAt = d.relAt := rfl
@[simp] theorem Dev.draw_thermTrip : d.draw.2.thermTrip = d.thermTrip := rfl
@[simp] theorem Dev.draw_straps : d.draw.2.straps = d.straps := rfl
@[simp] theorem Dev.draw_ports : d.draw.2.ports = d.ports := rfl
@[simp] theorem Dev.draw_contracts : d.draw.2.contracts = d.contracts := rfl
@[simp] theorem Dev.draw_bibs : d.draw.2.bibs = d.bibs := rfl
@[simp] theorem Dev.draw_wins : d.draw.2.wins = d.wins := rfl
@[simp] theorem Dev.draw_rings : d.draw.2.rings = d.rings := rfl
@[simp] theorem Dev.draw_reqs : d.draw.2.reqs = d.reqs := rfl
@[simp] theorem Dev.draw_dmas : d.draw.2.dmas = d.dmas := rfl
@[simp] theorem Dev.draw_bufs : d.draw.2.bufs = d.bufs := rfl
@[simp] theorem Dev.draw_recs : d.draw.2.recs = d.recs := rfl
@[simp] theorem Dev.draw_fenced : d.draw.2.fenced = d.fenced := rfl
@[simp] theorem Dev.draw_notifiedAt : d.draw.2.notifiedAt = d.notifiedAt := rfl
@[simp] theorem Dev.draw_notifyHeld : d.draw.2.notifyHeld = d.notifyHeld := rfl
@[simp] theorem Dev.draw_outlets : d.draw.2.outlets = d.outlets := rfl
@[simp] theorem Dev.draw_queues : d.draw.2.queues = d.queues := rfl
@[simp] theorem Dev.draw_pacers : d.draw.2.pacers = d.pacers := rfl
@[simp] theorem Dev.draw_ptpCount : d.draw.2.ptpCount = d.ptpCount := rfl
@[simp] theorem Dev.draw_ptpSync : d.draw.2.ptpSync = d.ptpSync := rfl
@[simp] theorem Dev.draw_fl : d.draw.2.fl = d.fl := rfl
@[simp] theorem Dev.draw_parts : d.draw.2.parts = d.parts := rfl
@[simp] theorem Dev.draw_sliceMap : d.draw.2.sliceMap = d.sliceMap := rfl
@[simp] theorem Dev.draw_ix : d.draw.2.ix = d.ix := rfl
@[simp] theorem Dev.draw_em : d.draw.2.em = d.em := rfl
@[simp] theorem Dev.draw_inf : d.draw.2.inf = d.inf := rfl
@[simp] theorem Dev.draw_pl : d.draw.2.pl = d.pl := rfl
@[simp] theorem Dev.draw_ld : d.draw.2.ld = d.ld := rfl
@[simp] theorem Dev.draw_sl : d.draw.2.sl = d.sl := rfl
@[simp] theorem Dev.draw_rcv : d.draw.2.rcv = d.rcv := rfl
@[simp] theorem Dev.draw_panel : d.draw.2.panel = d.panel := rfl
@[simp] theorem Dev.draw_costs : d.draw.2.costs = d.costs := rfl
@[simp] theorem Dev.draw_mt : d.draw.2.mt = d.mt := rfl
@[simp] theorem Dev.draw_measRun : d.draw.2.measRun = d.measRun := rfl
@[simp] theorem Dev.draw_measLog : d.draw.2.measLog = d.measLog := rfl
@[simp] theorem Dev.draw_idKey : d.draw.2.idKey = d.idKey := rfl
@[simp] theorem Dev.draw_fwDigest : d.draw.2.fwDigest = d.fwDigest := rfl
@[simp] theorem Dev.draw_quotes : d.draw.2.quotes = d.quotes := rfl
@[simp] theorem Dev.draw_keyJobs : d.draw.2.keyJobs = d.keyJobs := rfl
@[simp] theorem Dev.draw_fuseBusy : d.draw.2.fuseBusy = d.fuseBusy := rfl
@[simp] theorem Dev.draw_jtagInstr : d.draw.2.jtagInstr = d.jtagInstr := rfl
@[simp] theorem Dev.draw_mctpEid : d.draw.2.mctpEid = d.mctpEid := rfl
@[simp] theorem Dev.draw_out : d.draw.2.out = d.out := rfl
@[simp] theorem Dev.draw_ids : d.draw.2.ids = d.ids := rfl
@[simp] theorem Dev.newId_now : d.newId.2.now = d.now := rfl
@[simp] theorem Dev.newId_regs : d.newId.2.regs = d.regs := rfl
@[simp] theorem Dev.newId_fuses : d.newId.2.fuses = d.fuses := rfl
@[simp] theorem Dev.newId_rom : d.newId.2.rom = d.rom := rfl
@[simp] theorem Dev.newId_nor : d.newId.2.nor = d.nor := rfl
@[simp] theorem Dev.newId_fresh : d.newId.2.fresh = d.fresh := rfl
@[simp] theorem Dev.newId_jtagHold : d.newId.2.jtagHold = d.jtagHold := rfl
@[simp] theorem Dev.newId_relAt : d.newId.2.relAt = d.relAt := rfl
@[simp] theorem Dev.newId_thermTrip : d.newId.2.thermTrip = d.thermTrip := rfl
@[simp] theorem Dev.newId_straps : d.newId.2.straps = d.straps := rfl
@[simp] theorem Dev.newId_ports : d.newId.2.ports = d.ports := rfl
@[simp] theorem Dev.newId_contracts : d.newId.2.contracts = d.contracts := rfl
@[simp] theorem Dev.newId_bibs : d.newId.2.bibs = d.bibs := rfl
@[simp] theorem Dev.newId_wins : d.newId.2.wins = d.wins := rfl
@[simp] theorem Dev.newId_rings : d.newId.2.rings = d.rings := rfl
@[simp] theorem Dev.newId_reqs : d.newId.2.reqs = d.reqs := rfl
@[simp] theorem Dev.newId_dmas : d.newId.2.dmas = d.dmas := rfl
@[simp] theorem Dev.newId_bufs : d.newId.2.bufs = d.bufs := rfl
@[simp] theorem Dev.newId_recs : d.newId.2.recs = d.recs := rfl
@[simp] theorem Dev.newId_fenced : d.newId.2.fenced = d.fenced := rfl
@[simp] theorem Dev.newId_notifiedAt : d.newId.2.notifiedAt = d.notifiedAt := rfl
@[simp] theorem Dev.newId_notifyHeld : d.newId.2.notifyHeld = d.notifyHeld := rfl
@[simp] theorem Dev.newId_outlets : d.newId.2.outlets = d.outlets := rfl
@[simp] theorem Dev.newId_queues : d.newId.2.queues = d.queues := rfl
@[simp] theorem Dev.newId_pacers : d.newId.2.pacers = d.pacers := rfl
@[simp] theorem Dev.newId_ptpCount : d.newId.2.ptpCount = d.ptpCount := rfl
@[simp] theorem Dev.newId_ptpSync : d.newId.2.ptpSync = d.ptpSync := rfl
@[simp] theorem Dev.newId_fl : d.newId.2.fl = d.fl := rfl
@[simp] theorem Dev.newId_parts : d.newId.2.parts = d.parts := rfl
@[simp] theorem Dev.newId_sliceMap : d.newId.2.sliceMap = d.sliceMap := rfl
@[simp] theorem Dev.newId_ix : d.newId.2.ix = d.ix := rfl
@[simp] theorem Dev.newId_em : d.newId.2.em = d.em := rfl
@[simp] theorem Dev.newId_inf : d.newId.2.inf = d.inf := rfl
@[simp] theorem Dev.newId_pl : d.newId.2.pl = d.pl := rfl
@[simp] theorem Dev.newId_ld : d.newId.2.ld = d.ld := rfl
@[simp] theorem Dev.newId_sl : d.newId.2.sl = d.sl := rfl
@[simp] theorem Dev.newId_rcv : d.newId.2.rcv = d.rcv := rfl
@[simp] theorem Dev.newId_panel : d.newId.2.panel = d.panel := rfl
@[simp] theorem Dev.newId_costs : d.newId.2.costs = d.costs := rfl
@[simp] theorem Dev.newId_mt : d.newId.2.mt = d.mt := rfl
@[simp] theorem Dev.newId_measRun : d.newId.2.measRun = d.measRun := rfl
@[simp] theorem Dev.newId_measLog : d.newId.2.measLog = d.measLog := rfl
@[simp] theorem Dev.newId_idKey : d.newId.2.idKey = d.idKey := rfl
@[simp] theorem Dev.newId_fwDigest : d.newId.2.fwDigest = d.fwDigest := rfl
@[simp] theorem Dev.newId_quotes : d.newId.2.quotes = d.quotes := rfl
@[simp] theorem Dev.newId_keyJobs : d.newId.2.keyJobs = d.keyJobs := rfl
@[simp] theorem Dev.newId_fuseBusy : d.newId.2.fuseBusy = d.fuseBusy := rfl
@[simp] theorem Dev.newId_jtagInstr : d.newId.2.jtagInstr = d.jtagInstr := rfl
@[simp] theorem Dev.newId_mctpEid : d.newId.2.mctpEid = d.mctpEid := rfl
@[simp] theorem Dev.newId_out : d.newId.2.out = d.out := rfl
@[simp] theorem Dev.newId_draws : d.newId.2.draws = d.draws := rfl

/-! ## The seal -/

variable (e : Dev)

@[simp] theorem Dev.sealed_now : (d.sealed e).now = e.now := rfl
@[simp] theorem Dev.sealed_regs : (d.sealed e).regs = e.regs := rfl
@[simp] theorem Dev.sealed_fuses : (d.sealed e).fuses = d.fuses := rfl
@[simp] theorem Dev.sealed_rom : (d.sealed e).rom = d.rom := rfl
@[simp] theorem Dev.sealed_nor : (d.sealed e).nor = e.nor := rfl
@[simp] theorem Dev.sealed_fresh : (d.sealed e).fresh = e.fresh := rfl
@[simp] theorem Dev.sealed_jtagHold : (d.sealed e).jtagHold = e.jtagHold := rfl
@[simp] theorem Dev.sealed_relAt : (d.sealed e).relAt = e.relAt := rfl
@[simp] theorem Dev.sealed_thermTrip : (d.sealed e).thermTrip = e.thermTrip := rfl
@[simp] theorem Dev.sealed_straps : (d.sealed e).straps = e.straps := rfl
@[simp] theorem Dev.sealed_ports : (d.sealed e).ports = e.ports := rfl
@[simp] theorem Dev.sealed_contracts : (d.sealed e).contracts = e.contracts := rfl
@[simp] theorem Dev.sealed_bibs : (d.sealed e).bibs = e.bibs := rfl
@[simp] theorem Dev.sealed_wins : (d.sealed e).wins = e.wins := rfl
@[simp] theorem Dev.sealed_rings : (d.sealed e).rings = e.rings := rfl
@[simp] theorem Dev.sealed_reqs : (d.sealed e).reqs = e.reqs := rfl
@[simp] theorem Dev.sealed_dmas : (d.sealed e).dmas = e.dmas := rfl
@[simp] theorem Dev.sealed_bufs : (d.sealed e).bufs = e.bufs := rfl
@[simp] theorem Dev.sealed_recs : (d.sealed e).recs = e.recs := rfl
@[simp] theorem Dev.sealed_fenced : (d.sealed e).fenced = e.fenced := rfl
@[simp] theorem Dev.sealed_notifiedAt : (d.sealed e).notifiedAt = e.notifiedAt := rfl
@[simp] theorem Dev.sealed_notifyHeld : (d.sealed e).notifyHeld = e.notifyHeld := rfl
@[simp] theorem Dev.sealed_outlets : (d.sealed e).outlets = e.outlets := rfl
@[simp] theorem Dev.sealed_queues : (d.sealed e).queues = e.queues := rfl
@[simp] theorem Dev.sealed_pacers : (d.sealed e).pacers = e.pacers := rfl
@[simp] theorem Dev.sealed_ptpCount : (d.sealed e).ptpCount = e.ptpCount := rfl
@[simp] theorem Dev.sealed_ptpSync : (d.sealed e).ptpSync = e.ptpSync := rfl
@[simp] theorem Dev.sealed_fl : (d.sealed e).fl = e.fl := rfl
@[simp] theorem Dev.sealed_parts : (d.sealed e).parts = e.parts := rfl
@[simp] theorem Dev.sealed_sliceMap : (d.sealed e).sliceMap = e.sliceMap := rfl
@[simp] theorem Dev.sealed_ix : (d.sealed e).ix = e.ix := rfl
@[simp] theorem Dev.sealed_em : (d.sealed e).em = e.em := rfl
@[simp] theorem Dev.sealed_inf : (d.sealed e).inf = e.inf := rfl
@[simp] theorem Dev.sealed_pl : (d.sealed e).pl = e.pl := rfl
@[simp] theorem Dev.sealed_ld : (d.sealed e).ld = e.ld := rfl
@[simp] theorem Dev.sealed_sl : (d.sealed e).sl = e.sl := rfl
@[simp] theorem Dev.sealed_rcv : (d.sealed e).rcv = e.rcv := rfl
@[simp] theorem Dev.sealed_panel : (d.sealed e).panel = e.panel := rfl
@[simp] theorem Dev.sealed_costs : (d.sealed e).costs = e.costs := rfl
@[simp] theorem Dev.sealed_mt : (d.sealed e).mt = e.mt := rfl
@[simp] theorem Dev.sealed_measRun : (d.sealed e).measRun = e.measRun := rfl
@[simp] theorem Dev.sealed_measLog : (d.sealed e).measLog = e.measLog := rfl
@[simp] theorem Dev.sealed_idKey : (d.sealed e).idKey = e.idKey := rfl
@[simp] theorem Dev.sealed_fwDigest : (d.sealed e).fwDigest = e.fwDigest := rfl
@[simp] theorem Dev.sealed_quotes : (d.sealed e).quotes = e.quotes := rfl
@[simp] theorem Dev.sealed_keyJobs : (d.sealed e).keyJobs = e.keyJobs := rfl
@[simp] theorem Dev.sealed_fuseBusy : (d.sealed e).fuseBusy = e.fuseBusy := rfl
@[simp] theorem Dev.sealed_jtagInstr : (d.sealed e).jtagInstr = d.jtagInstr := rfl
@[simp] theorem Dev.sealed_mctpEid : (d.sealed e).mctpEid = e.mctpEid := rfl
@[simp] theorem Dev.sealed_out : (d.sealed e).out = e.out := rfl
@[simp] theorem Dev.sealed_draws : (d.sealed e).draws = e.draws := rfl
@[simp] theorem Dev.sealed_ids : (d.sealed e).ids = e.ids := rfl

/-- A command that has left fuses, ROM and TAP alone loses nothing to the seal. -/
theorem Dev.sealed_eq (h₁ : e.fuses = d.fuses) (h₂ : e.rom = d.rom) (h₃ : e.jtagInstr = d.jtagInstr) : d.sealed e = e := by
  cases e; simp_all [Dev.sealed]

/-! ## A command's outcome -/

variable (s : State) (t : Nat) (c : Dev → Bool) (f : Dev → Dev)

/-- What a plain command answers: time moves, its effect stands, and fuses, ROM and TAP stay. -/
theorem State.run_eq : s.run t f = .next { s with dev := s.dev.sealed (f (s.dev.advance t)) } := rfl

/-- What a conditional command answers where its condition holds. -/
theorem State.runIf_pos (h : c (s.dev.advance t) = true) :
    s.runIf t c f = .next { s with dev := s.dev.sealed (f (s.dev.advance t)) } := by
  simp [State.runIf, h]

/-- What a conditional command answers where its condition fails: time alone moves. -/
theorem State.runIf_neg (h : c (s.dev.advance t) = false) : s.runIf t c f = .next { s with dev := s.dev.advance t } := by
  simp [State.runIf, h]; rfl

/-- What a command answers that sets other work going. -/
theorem State.act_pos (h : c (s.dev.advance t) = true) :
    s.act t c f = .next { s with dev := s.dev.sealed (f (s.dev.advance t)).pump } := by
  simp [State.act, State.runIf, h]

theorem State.act_neg (h : c (s.dev.advance t) = false) : s.act t c f = .next { s with dev := s.dev.advance t } := by
  simp [State.act, State.runIf, h]; rfl

/-! ## What every step does (Machine/Step.lean) -/

/-- A step answers a fault never, and a next state or a refusal only as `exec` of its front command does. -/
theorem step_cases (s : State) :
    (s.pending = [] ∧ step s = .next s) ∨ ∃ c r, s.pending = c :: r ∧ step s = exec c { s with pending := r } := by
  cases h : s.pending with
  | nil => exact .inl ⟨rfl, by simp [step, h]⟩
  | cons c r => exact .inr ⟨c, r, rfl, by simp [step, h]⟩

end Sys2Proof.Machine
end

