-- ==== Sys2Proof/Laws/Tab.lean ====
section
/-!
SUPPORT. The laws of tables: what a read after a write gives, and that every operation keeps the canonical form.
-/
namespace Sys2Proof

variable {α : Type}

theorem Tab.find_ins_self (t : Tab α) (n : Nat) (v : α) : Tab.find (Tab.ins t n v) n = some v := by
  induction t with
  | nil => simp [Tab.ins, Tab.find]
  | cons p r ih =>
    obtain ⟨k, w⟩ := p
    simp only [Tab.ins]
    split
    · simp [Tab.find]
    · split
      · simp [Tab.find]
      · simp [Tab.find, *]

theorem Tab.find_ins_other (t : Tab α) {n m : Nat} (v : α) (h : m ≠ n) :
    Tab.find (Tab.ins t n v) m = Tab.find t m := by
  induction t with
  | nil => simp [Tab.ins, Tab.find, h]
  | cons p r ih =>
    obtain ⟨k, w⟩ := p
    simp only [Tab.ins]
    split
    · simp [Tab.find, h]
    · split
      · subst_vars; simp [Tab.find, h]
      · simp [Tab.find, ih]

theorem Tab.find_del_other (t : Tab α) {n m : Nat} (h : m ≠ n) : Tab.find (Tab.del t n) m = Tab.find t m := by
  induction t with
  | nil => rfl
  | cons p r ih =>
    obtain ⟨k, w⟩ := p
    simp only [Tab.del]
    split
    · subst_vars; simp [Tab.find, h, ih]
    · simp [Tab.find, ih]

theorem Tab.find_above (t : Tab α) {l n : Nat} (h : Tab.sortedFrom (some l) t = true) (hn : n ≤ l) :
    Tab.find t n = none := by
  induction t generalizing l with
  | nil => rfl
  | cons p r ih =>
    obtain ⟨k, w⟩ := p
    simp [Tab.sortedFrom] at h
    have hk : n ≠ k := by omega
    simp [Tab.find, hk]
    exact ih h.2 (by omega)

theorem Tab.sortedFrom_weaken (t : Tab α) {a b : Nat} (h : Tab.sortedFrom (some b) t = true) (hab : a ≤ b) :
    Tab.sortedFrom (some a) t = true := by
  cases t with
  | nil => rfl
  | cons p r =>
    obtain ⟨k, w⟩ := p
    simp [Tab.sortedFrom] at h ⊢
    exact ⟨by omega, h.2⟩

theorem Tab.sortedFrom_none (t : Tab α) {b : Nat} (h : Tab.sortedFrom (some b) t = true) :
    Tab.sortedFrom none t = true := by
  cases t with
  | nil => rfl
  | cons p r =>
    obtain ⟨k, w⟩ := p
    simp [Tab.sortedFrom] at h ⊢
    exact h.2

theorem Tab.find_del_self (t : Tab α) (n : Nat) : Tab.find (Tab.del t n) n = none := by
  induction t with
  | nil => rfl
  | cons p r ih =>
    obtain ⟨k, w⟩ := p
    simp only [Tab.del]
    split
    · exact ih
    · simp [Tab.find, *]

theorem Tab.sortedFrom_ins (t : Tab α) {l : Option Nat} (n : Nat) (v : α) (h : Tab.sortedFrom l t = true)
    (hl : ∀ a, l = some a → a < n) : Tab.sortedFrom l (Tab.ins t n v) = true := by
  induction t generalizing l with
  | nil => cases l <;> simp [Tab.ins, Tab.sortedFrom] at *; exact hl
  | cons p r ih =>
    obtain ⟨k, w⟩ := p
    simp [Tab.sortedFrom] at h
    simp only [Tab.ins]
    split
    · rename_i hlt
      have : ∀ a, l = some a → a < n := hl
      cases l with
      | none => simp [Tab.sortedFrom, hlt, h.2]
      | some a => simp [Tab.sortedFrom, hlt, h.2, this a rfl]
    · split
      · subst_vars; simp [Tab.sortedFrom, h]
      · simp only [Tab.sortedFrom, Bool.and_eq_true]
        exact ⟨h.1, ih h.2 (by intro a ha; cases ha; omega)⟩

theorem Tab.sortedFrom_del (t : Tab α) {l : Option Nat} (n : Nat) (h : Tab.sortedFrom l t = true) :
    Tab.sortedFrom l (Tab.del t n) = true := by
  induction t generalizing l with
  | nil => exact h
  | cons p r ih =>
    obtain ⟨k, w⟩ := p
    simp [Tab.sortedFrom] at h
    simp only [Tab.del]
    split
    · refine ih ?_
      cases l with
      | none => exact Tab.sortedFrom_none r h.2
      | some a => exact Tab.sortedFrom_weaken r h.2 (by have := h.1; simp at this; omega)
    · simp only [Tab.sortedFrom, Bool.and_eq_true]
      exact ⟨h.1, ih h.2⟩

theorem Tab.ok_ins (t : Tab α) (n : Nat) (v : α) (h : Tab.ok t = true) : Tab.ok (Tab.ins t n v) = true :=
  Tab.sortedFrom_ins t n v h (by intro a ha; cases ha)

theorem Tab.ok_del (t : Tab α) (n : Nat) (h : Tab.ok t = true) : Tab.ok (Tab.del t n) = true :=
  Tab.sortedFrom_del t n h

theorem Tab.mem_ins (t : Tab α) (n : Nat) (v : α) (p : Nat × α) (h : p ∈ Tab.ins t n v) : p = (n, v) ∨ p ∈ t := by
  induction t with
  | nil => simp [Tab.ins] at h; exact .inl h
  | cons q r ih =>
    obtain ⟨k, w⟩ := q
    simp only [Tab.ins] at h
    split at h
    · simpa using h
    · split at h
      · simp at h; rcases h with h | h
        · exact .inl h
        · exact .inr (List.mem_cons_of_mem _ h)
      · simp at h; rcases h with h | h
        · exact .inr (by simp [h])
        · rcases ih h with h | h
          · exact .inl h
          · exact .inr (List.mem_cons_of_mem _ h)

theorem Tab.mem_del (t : Tab α) (n : Nat) (p : Nat × α) (h : p ∈ Tab.del t n) : p ∈ t := by
  induction t with
  | nil => exact h
  | cons q r ih =>
    obtain ⟨k, w⟩ := q
    simp only [Tab.del] at h
    split at h
    · exact List.mem_cons_of_mem _ (ih h)
    · simp at h; rcases h with h | h
      · simp [h]
      · exact List.mem_cons_of_mem _ (ih h)

variable [DecidableEq α]

/-- Reading back what was written. -/
theorem Tab.get_put_self (d : α) (t : Tab α) (n : Nat) (v : α) :
    Tab.get d (Tab.put d t n v) n = v := by
  simp only [Tab.put]
  split
  · simp [Tab.get, Tab.find_del_self t n, *]
  · simp [Tab.get, Tab.find_ins_self]

/-- A write leaves every other place alone. -/
theorem Tab.get_put_other (d : α) (t : Tab α) {n m : Nat} (v : α) (h : m ≠ n) :
    Tab.get d (Tab.put d t n v) m = Tab.get d t m := by
  simp only [Tab.put]
  split
  · simp [Tab.get, Tab.find_del_other t h]
  · simp [Tab.get, Tab.find_ins_other t v h]

/-- A write keeps the canonical form. -/
theorem Tab.wf_put (d : α) (t : Tab α) (n : Nat) (v : α) (h : Tab.wf d t = true) :
    Tab.wf d (Tab.put d t n v) = true := by
  simp only [Tab.wf, Bool.and_eq_true, List.all_eq_true, decide_eq_true_eq] at h ⊢
  simp only [Tab.put]
  split
  · exact ⟨Tab.sortedFrom_del t n h.1, fun p hp => h.2 p (Tab.mem_del t n p hp)⟩
  · refine ⟨Tab.sortedFrom_ins t n v h.1 (by intro a ha; cases ha), fun p hp => ?_⟩
    rcases Tab.mem_ins t n v p hp with rfl | hp
    · assumption
    · exact h.2 p hp

end Sys2Proof
end

