-- ==== Sys2Proof/Laws/Regs.lean ====
section
/-!
SUPPORT. The laws of the store of registers: a field reads back what was stored, and a store leaves every other field
alone.
-/
namespace Sys2Proof

theorem Fld.num_inj {f g : Fld} (h : f.num = g.num) : f = g := by
  have := congrArg Fld.ofNat h
  simpa [Fld.num, Fld.ofNat_ctorIdx] using this

/-- Two fields, instances and records have one place only where they agree, instances and records counted in 16 bits. -/
theorem Fld.key_inj {f g : Fld} {i j r q : Nat} (h : f.key i r = g.key j q) :
    f = g ∧ i % 65536 = j % 65536 ∧ r % 65536 = q % 65536 := by
  simp only [Fld.key] at h
  have h₁ := Nat.mod_lt i (show 65536 > 0 by decide)
  have h₂ := Nat.mod_lt j (show 65536 > 0 by decide)
  have h₃ := Nat.mod_lt r (show 65536 > 0 by decide)
  have h₄ := Nat.mod_lt q (show 65536 > 0 by decide)
  exact ⟨Fld.num_inj (by omega), by omega, by omega⟩

theorem Fld.key_ne_of_fld {f g : Fld} (h : f ≠ g) (i j r q : Nat) : f.key i r ≠ g.key j q :=
  fun e => h (Fld.key_inj e).1

theorem Fld.top_pos (f : Fld) : 0 < f.top := Nat.pow_pos (by decide)

variable {α : Type} [DecidableEq α]

/-- A write keeps the numbers strictly rising. -/
theorem Tab.ok_put (d : α) (t : Tab α) (n : Nat) (v : α) (h : Tab.ok t = true) : Tab.ok (Tab.put d t n v) = true := by
  simp only [Tab.put]
  split
  · exact Tab.ok_del t n h
  · exact Tab.ok_ins t n v h

/-- A run of bytes written keeps the canonical form. -/
theorem Tab.wf_putRun (d : α) (l : List α) (t : Tab α) (a : Nat) (h : Tab.wf d t = true) :
    Tab.wf d (Tab.putRun d t a l) = true := by
  induction l generalizing t a with
  | nil => exact h
  | cons v r ih => exact ih _ _ (Tab.wf_put d t a v h)

theorem Tab.sortedFrom_filter {β : Type} (f : Nat × β → Bool) (t : Tab β) (l : Option Nat)
    (h : Tab.sortedFrom l t = true) : Tab.sortedFrom l (t.filter f) = true := by
  induction t generalizing l with
  | nil => exact h
  | cons p r ih =>
    obtain ⟨k, w⟩ := p
    simp [Tab.sortedFrom] at h
    simp only [List.filter_cons]
    split
    · simp only [Tab.sortedFrom, Bool.and_eq_true]; exact ⟨h.1, ih _ h.2⟩
    · have := ih _ h.2
      cases l with
      | none => exact Tab.sortedFrom_none _ this
      | some a => exact Tab.sortedFrom_weaken _ this (by have := h.1; simp at this; omega)

/-- Clearing a range keeps the canonical form. -/
theorem Tab.wf_clearRange (d : α) (t : Tab α) (lo hi : Nat) (h : Tab.wf d t = true) :
    Tab.wf d (Tab.clearRange t lo hi) = true := by
  simp only [Tab.wf, Bool.and_eq_true, List.all_eq_true] at h ⊢
  exact ⟨Tab.sortedFrom_filter _ t none h.1, fun p hp => h.2 p (List.mem_filter.mp hp).1⟩

namespace Machine

variable (d : Dev)

/-- The store of registers is in its canonical order. -/
abbrev Dev.regsOk (d : Dev) : Prop := Tab.ok d.regs = true

theorem Dev.setRg_ok (f : Fld) (v i r : Nat) (h : d.regsOk) : (d.setRg f v i r).regsOk := Tab.ok_put _ _ _ _ h

theorem Dev.bump_ok (f : Fld) (n i r : Nat) (h : d.regsOk) : (d.bump f n i r).regsOk := Tab.ok_put _ _ _ _ h

/-- A field reads back what was stored, cut to its width. -/
theorem Dev.rg_setRg_self (f : Fld) (v i r : Nat) : (d.setRg f v i r).rg f i r = v % f.top :=
  Tab.get_put_self _ _ _ _

/-- A store leaves every other place alone. -/
theorem Dev.rg_setRg_other {f g : Fld} (v : Nat) {i j r q : Nat} (h : g.key j q ≠ f.key i r) :
    (d.setRg f v i r).rg g j q = d.rg g j q := by
  by_cases hr : g.info.rst = f.info.rst
  · simp only [Dev.rg, Dev.setRg, hr]; exact Tab.get_put_other _ _ _ h
  · simp only [Dev.rg, Dev.setRg, Tab.put, Tab.get]
    split
    · rw [Tab.find_del_other _ h]
    · rw [Tab.find_ins_other _ _ h]

/-- A store of a field leaves the other fields alone. -/
theorem Dev.rg_setRg_ne {f g : Fld} (hne : g ≠ f) (v i j r q : Nat) : (d.setRg f v i r).rg g j q = d.rg g j q :=
  d.rg_setRg_other v (Fld.key_ne_of_fld hne _ _ _ _)

theorem Dev.rg_bump_ne {f g : Fld} (hne : g ≠ f) (n i j r q : Nat) : (d.bump f n i r).rg g j q = d.rg g j q :=
  d.rg_setRg_ne hne _ _ _ _ _

/-- A counter's value after it has advanced. -/
theorem Dev.rg_bump_self (f : Fld) (n i r : Nat) :
    (d.bump f n i r).rg f i r = min (f.top - 1) (d.rg f i r + n) := by
  rw [Dev.bump, Dev.rg_setRg_self]
  exact Nat.mod_eq_of_lt (Nat.lt_of_le_of_lt (Nat.min_le_left _ _) (Nat.sub_lt f.top_pos (by decide)))

/-- Registers do not depend on anything but their store. -/
theorem Dev.rg_congr {d e : Dev} (h : d.regs = e.regs) (f : Fld) (i r : Nat) : d.rg f i r = e.rg f i r := by
  simp [Dev.rg, h]

@[simp] theorem Dev.rg_advance (f : Fld) (t i r : Nat) : (d.advance t).rg f i r = d.rg f i r := rfl
@[simp] theorem Dev.power_advance (t : Nat) : (d.advance t).power = d.power := rfl
@[simp] theorem Dev.coreOn_advance (t : Nat) : (d.advance t).coreOn = d.coreOn := rfl
@[simp] theorem Dev.mgmtOn_advance (t : Nat) : (d.advance t).mgmtOn = d.mgmtOn := rfl
@[simp] theorem Dev.flashOn_advance (t : Nat) : (d.advance t).flashOn = d.flashOn := rfl

/-- R64: the NOR keeps the canonical form of a memory under the one operation that writes it. -/
theorem Dev.norStore_wf (slot : Nat) (img : Bytes) (h : Tab.wf 0xFF#8 d.nor = true) :
    Tab.wf 0xFF#8 (d.norStore slot img).nor = true :=
  Tab.wf_putRun _ _ _ _ (Tab.wf_clearRange _ _ _ _ h)

end Machine

end Sys2Proof
end

