-- ==== Sys2Proof/Laws/Quiet.lean ====
section
/-!
SUPPORT. In a quiet node a command sets nothing else going.
-/
namespace Sys2Proof.Machine

variable {d : Dev}

theorem Dev.foldl_id {α β : Type} (f : β → α → β) (l : List α) (b : β) (h : ∀ a ∈ l, f b a = b) : l.foldl f b = b := by
  induction l with
  | nil => rfl
  | cons a r ih =>
    simp only [List.foldl_cons, h a (List.mem_cons_self ..)]
    exact ih fun x hx => h x (List.mem_cons_of_mem _ hx)

theorem Dev.setInf_id {f : Infield → Infield} (h : f d.inf = d.inf) : d.setInf f = d := by
  simp only [Dev.setInf, h]

theorem Dev.Settled.reapPasses (h : d.Settled) : d.reapPasses = d := by
  simp only [Dev.reapPasses, h.noPasses, List.foldl_nil]
  refine Dev.setInf_id ?_
  have h₁ := h.noRuns
  have h₂ := h.noJobs
  generalize d.inf = x at *
  cases x
  simp_all [Tab.mapV]

theorem Dev.Settled.settleSearch (h : d.Settled) : d.settleSearch = d := by
  have once : d.reapEnded = d := by
    simp [Dev.reapEnded, h.noSearches, h.noLists, h.reapPasses]
  simp [Dev.settleSearch, once, h.noFence, Dev.reapFailed, h.noQueries, Tab.keys, h.noSearches]

theorem Dev.Settled.panelStep (h : d.Settled) : d.panelStep = d := by
  have hs : ∀ n ∈ List.range 4, (d.seqOf n = 2 → False) ∧ (d.seqOf n = 3 → False) ∧ (d.seqOf n = 4 → False)
      ∧ ¬(1 ≤ d.seqOf n ∧ d.seqOf n ≤ 4) := by
    intro n hn
    have := h.noRemoval n (List.mem_range.mp hn)
    omega
  have stop : d.stopSlots none = d := by
    refine Dev.foldl_id _ _ _ fun n hn => ?_
    have := (hs n hn).2.2.2
    split
    · rename_i hc; simp at hc; omega
    · rfl
  have step : ∀ n ∈ List.range 4, d.slotStep n = d := by
    intro n hn
    have h₁ := hs n hn
    simp only [Dev.slotStep]
    split
    · rfl
    · have h₂ : ¬ d.seqOf n = 2 := h₁.1
      have h₃ : ¬ d.seqOf n = 3 := h₁.2.1
      have h₄ : ¬ d.seqOf n = 4 := h₁.2.2.1
      simp only [h₂, h₃, h₄, decide_false, Bool.false_and, Bool.false_eq_true, if_false]
  simp only [Dev.panelStep, stop, ite_self]
  exact Dev.foldl_id _ _ _ step

theorem Dev.Settled.bootOn (h : d.Settled) : d.bootOn = d := by
  simp [Dev.bootOn, h.booted]

theorem Dev.admitNext_none {k : Dev → Dev} (hn : d.nextHead = none) : d.admitNext k = d := by
  unfold Dev.admitNext
  rw [hn]
  cases d.admitting <;> rfl

theorem Dev.pumpN_succ (n : Nat) (e : Dev) :
    Dev.pumpN (n + 1) e = e.settleSearch.panelStep.bootOn.admitNext (Dev.pumpN n) := rfl

theorem Dev.pump_on (h : d.coreOn = true) :
    d.pump = Dev.pumpN ((Tab.count d.reqs fun q => q.waiting) + 1) d.startDue.poolGo := by
  unfold Dev.pump
  exact if_neg (by simp [h])

/-- Where no empty copy waits for its boundary, none starts. -/
theorem Dev.Settled.startDue (h : d.Settled) : d.startDue = d := by
  unfold Dev.startDue
  refine Dev.foldl_id _ _ _ fun i _ => ?_
  have e : d.startEmpty i = d := by
    unfold Dev.startEmpty
    cases hi : d.heat i with
    | none => rfl
    | some x => rcases h.noEmpty i x hi with hs | hs <;> simp [hs]
  simp [e]

/-- Where nothing of the pool waits, nothing of it goes on. -/
theorem Dev.Settled.poolGo (h : d.Settled) : d.poolGo = d := by
  unfold Dev.poolGo
  exact if_pos (by simp [h.noPoolOps, h.noPoolJobs])

theorem Dev.pump_off (h : d.coreOn = false) : d.pump = d := by
  unfold Dev.pump
  exact if_pos (by simp [h])

/-- One round of admission in a settled node. -/
theorem Dev.Settled.pumpN_succ (h : d.Settled) (n : Nat) : Dev.pumpN (n + 1) d = d.admitNext (Dev.pumpN n) := by
  rw [Dev.pumpN_succ, h.settleSearch, h.panelStep, h.bootOn]

theorem Dev.admitNext_some {k : Dev → Dev} {r ctx : Nat} {q : Req} (ha : d.admitting = true)
    (hn : d.nextHead = some ((r, q), ctx)) : d.admitNext k = k (d.admitReq r ctx) := by
  unfold Dev.admitNext
  rw [ha, hn]
  rfl

/-- A quiet node stays as it is. -/
theorem Dev.Quiet.pump (h : d.Quiet) : d.pump = d := by
  have none_ : d.nextHead = none := by
    have hw : d.waitingHeads = [] := by
      simp only [Dev.waitingHeads, h.noReqs, Tab.find, Option.map_none]
      induction d.wins with
      | nil => rfl
      | cons w r ih => simpa [List.filterMap_cons] using ih
    simp [Dev.nextHead, hw, earliest]
  cases hc : d.coreOn with
  | false => exact Dev.pump_off hc
  | true => rw [Dev.pump_on hc, h.toSettled.startDue, h.toSettled.poolGo, h.toSettled.pumpN_succ, Dev.admitNext_none none_]

/-- Time alone leaves a node settled, and quiet. -/
theorem Dev.Settled.advance (h : d.Settled) (t : Nat) : (d.advance t).Settled :=
  ⟨h.booted, h.noSearches, h.noQueries, h.noLists, h.noPasses, h.noRuns, h.noJobs, h.noFence, h.noRemoval, h.noEmpty, h.noPoolOps, h.noPoolJobs⟩

theorem Dev.Quiet.advance (h : d.Quiet) (t : Nat) : (d.advance t).Quiet := ⟨h.toSettled.advance t, h.noReqs⟩

end Sys2Proof.Machine
end

