-- ==== Sys2Proof/Tests/Slice0.lean ====
section
/-!
SUPPORT. Tests: which terms are ill-formed; single steps whose results stand in the spec; for every statement with
hypotheses, states and operands that meet those of each of its clauses together, at boundaries of their ranges.
-/
namespace Sys2Proof.Tests
open Sys2Proof.Machine Sys2Proof.Spec

/-! ## States for the tests -/

/-- A node past its boot steps, in a power state. -/
def inPower (p : Nat) : Dev := { ({} : Dev) with fuses := Fuses.initial, rom := Rom.initial, fresh := false }.setRg .PWR_STATE_STATE p

/-- A node in ACTIVE with an image loaded. -/
def active : Dev := ((inPower 4).setRg .CI_LOADS_COUNT 1).setRg .CI_STATE_STATE 5

/-- A state with nothing waiting. -/
def st (d : Dev) : State := { dev := d, pending := [] }

/-- A descriptor of an opcode; everything else in it is 0. -/
def desc (op : Nat) : Bytes := le 64 op

/-- A VF's window. -/
def vf (w : Nat) : Src := .vf 0 1 w

/-- Bib 0, ACTIVE on VF 1 of port A, with rings 0 and 1. -/
def bound : Dev :=
  { active with
    bibs := [(0, { state := 2, bind := Binding.mk 1 0 1 0 0 })]
    rings := [(0, { en := true }), (1, { en := true })]
    parts := [{ num := 0, kind := 0, ctx := 4, share := 0, tiles := 0, walk := 1, podium := 1 }]
    ports := [{ vfEnable := true, numVfs := 512 }, {}] }

/-- A request of bib 0 that runs. -/
def running (op : Nat) : Req := { desc := desc op, win := 0, bib := some 0, gen := 0, landed := 0, waiting := false }

/-! ## Well-formed operands -/

/-- A source that does not exist is refused by every row that writes a window. -/
theorem test_wf_source : Src.ok (.pf0 2) = false ∧ Src.ok (.pf0 1) = true ∧ Src.ok (.vf 2 1 0) = false ∧ Src.ok (.vf 0 0 0) = false
    ∧ Src.ok (.vf 0 513 0) = false ∧ Src.ok (.vf 1 512 7) = true ∧ Src.ok (.vf 0 1 8) = false ∧ Src.ok (.fab 1024 0) = false
    ∧ Src.ok (.fab 0 8) = false ∧ Src.ok (.fab 1023 7) = true := by decide

/-- Each row that writes a descriptor or a record takes 64 bytes of an existing source, and nothing else. -/
theorem test_wf_descriptors :
    (([Instr.search, .searchCode, .insert, .delete, .cancel, .progLoad, .progFree, .run, .runCancel, .lookup, .update, .rowSet, .stepEnd, .segRead,
      .segStat, .segCreate, .segWrite, .segFlush, .segPublish, .segRenew, .segHandoff, .segDrop, .alloc, .free, .tileWrite, .tileRead, .setHint,
      .prefetch, .discard, .scrub, .loadImage, .contractSet, .bibEnable, .bibDisable, .bibReset, .bibBind, .ringSet, .faultAck, .quote, .keyAdmin,
      .logRead, .nop, .meetStat, .heatRole, .meetRestart, .batonMove, .unknownOpcode, .ringRelease].all fun c =>
        !(c 0 (.pf0 2) (desc 0)).wellFormed && !(c 0 (.pf0 0) (le 63 0)).wellFormed && (c 0 (.pf0 0) (desc 0)).wellFormed) = true) := by decide

def hdr : RHdr := { src := 1, dst := 0, restart := 0, baton := 0, seq := 0, ack := 0, retx := false, more := false }

/-- Each field of a Relay header has its width. -/
theorem test_wf_relay :
    ([{ hdr with src := 256 }, { hdr with dst := 256 }, { hdr with restart := 2 ^ 32 }, { hdr with baton := 2 ^ 32 }, { hdr with seq := 2 ^ 32 },
      { hdr with ack := 2 ^ 32 }].all fun h =>
      !h.ok && !(Instr.relayAck 0 h).wellFormed && ([Instr.heartbeat, .beacon, .members, .roles, .lost, .takeover, .baton, .restart, .join, .refill,
        .shardQuery, .partialList, .shardFail, .shardCancel, .updateFrame, .outcome, .group, .groupAck, .commit, .embedFrame, .poolFrame].all fun c =>
          !(c 0 h []).wellFormed && (c 0 hdr []).wellFormed)) = true := by decide

/-- A port is 0 or 1, a VF 1 to 512, an access has a length. -/
theorem test_wf_ports :
    [Instr.strayWindowWrite 0 2 1, .strayWindowWrite 0 0 0, .strayWindowWrite 0 0 513, .tlpDropped 0 (.pf0 2) .ecrc 0, .bar0StrayAccess 0 2 0 4 (some 0),
      .bar0StrayAccess 0 0 0 0 (some 0), .rcRegisterRead 0 2 0 0 ⟨0, 4⟩ 0, .registerWrite 0 2 0 0 ⟨0, 4⟩ 0, .softReset 0 2 0, .adminRingConfig 0 2 0,
      .apertureSlotSet 0 64 true 0, .apertureRead 0 2 0 1, .apertureRead 0 0 0 0, .apertureWrite 0 2 0 1, .apertureWrite 0 0 0 0, .recoveryLoad 0 2 0,
      .vfFlr 0 2 1, .vfFlr 0 0 0, .vfFlr 0 0 513, .pf0Flr 0 2, .portBindingLoss 0 2 .linkDown, .perstAssert 0 2, .linkDegraded 0 2 1 1,
      .pauseReceived 0 2, .neighborFrame 0 2 .arp, .ptpMessage 0 2 0 0, .perstDeassert 0 2 true, .ethLinkChange 0 2 0 0, .ethLinkChange 0 0 4 0,
      .ethLinkChange 0 0 0 256, .linkDegraded 0 0 17 32, .clockLoss 0 (.pcieRef 2), .clockLoss 0 (.stk 8), .clockLoss 0 (.stride 8), .outletCommit 0 0 2, .cnpReceived 0 2, .pcieConfigRequest 0 2 (.read .totalVfs), .msixUnmask 0 2 0 0].all (fun i => !i.wellFormed) = true := by decide

/-- Bibs, slots, heats, engines, outlets and the rest have their numbers. -/
theorem test_wf_numbers :
    [Instr.roceSubmission 0 1024 0 [], .roceKeyRecord 0 1024 (desc 0), .roceKeyRecord 0 0 [], .roceCeReceived 0 1024, .roceRetryExhausted 0 1024,
      .roceAckTimeout 0 1024, .roceInvalidRequest 0 1024 .send, .relayRetransmit 0 256 0, .slotLossDeadline 0 256, .plannedHandoffBoundary 0 1024,
      .commitGroupClose 0 1024, .commitGroupPublish 0 1024, .walkSlotFree 0 64, .missNotice 0 0 128 0, .strWdog 0 128,
      .strideBatchReturn 0 0 128 0 (EccOutcome.mk 0 0 0 false none false 0), .podSlotsFree 0 64, .passGrant 0 64, .tileWdog 0 96, .buildWalkStart 0 1024,
      .loadWindowEnd 0 1000001, .gateChange 0 4, .outletCommit 0 4 0, .promotionAge 0 4 0 0, .promotionAge 0 0 1025 0, .promotionAge 0 0 0 8,
      .graceExpiry 0 10240, .teardownGraceEnd 0 1024, .teardownEnd 0 1024, .teardownStuck 0 1024,
      .sledDiscoveryEnd 0 4 (SledInfo.mk []), .attnButtonPress 0 4, .attnLongPress 0 4, .sledInsertion 0 4, .sledRemoval 0 4,
      .abortWindowEnd 0 4, .sledPowerOffDone 0 4, .mctpSetEndpointId 0 256, .readLog 0 1 4 0, .nodeReset 0 256 0, .nodeReset 0 0 256,
      .flashTempSample 0 4 0].all (fun i => !i.wellFormed) = true := by decide

/-- A sense conversion is at most 150% of nominal; a flush has one of two causes, BOOT_MODE two bits, a target its number. -/
theorem test_wf_supply :
    [Instr.nvBarEntry 0 1501, .nvBarExit 0 1501, .flushEntry 0 2 0, .flushEntry 0 0 1501, .holdFloorReached 0 1501, .resumeReset 0 1501,
      .getPower 0 ⟨0, 1501, 0⟩, .getPower 0 ⟨0, 0, 1501⟩, .holdFloorRecovered 0 1501, .resetRelease 0 (Straps.mk 4 false false false),
      .reclaimStart 0 512, .patrolRead 0 512 (PatrolFinds.mk [] [] 0)].all (fun i => !i.wellFormed) = true := by decide

/-! ## Single steps -/

/-- R11's worked example: generation 0x0002 is newer than 0xFFFE, which is stale against it. -/
theorem test_epoch_example : newer 16 2 0xFFFE = true ∧ stale 16 0xFFFE 2 = true ∧ stale 16 2 2 = false := by decide

/-- R20: ST_STALE_GEN is reported before ST_FENCED; ST_INTERNAL and ST_BUDGET_EXHAUSTED last. -/
theorem test_lowest_failure : pickStatus [ST_FENCED, ST_INTERNAL, ST_STALE_GEN] ST_OK = ST_STALE_GEN
    ∧ pickStatus [ST_BUDGET_EXHAUSTED, ST_INTERNAL] ST_OK = ST_INTERNAL ∧ pickStatus [] ST_OK = ST_OK := by decide

/-- R163: 0x0F and 0x00 differ in four positions of eight. -/
theorem test_distance : hamming 1 [0x0F#8] [0x00#8] = 4 := by decide

set_option maxRecDepth 20000 in
/-- R80, check value of the standard: the CRC-32 of the ASCII string 123456789 is 0xCBF43926. -/
theorem test_crc32 : crc32 [0x31#8, 0x32#8, 0x33#8, 0x34#8, 0x35#8, 0x36#8, 0x37#8, 0x38#8, 0x39#8] = 0xCBF43926 := by decide

/-- R499's worked example: bib 40, CW_DMA: record 8 × 40 + 4. -/
theorem test_record_number : bibRec 40 SRC_CW_DMA = 324 := by decide

/-- R550: the identification code of stepping A0. -/
theorem test_idcode : (match exec (.jtagIdcode 0) (st active) with
    | .next s => s.dev.out
    | _ => []) = [.tdo 0x09600A93] := by decide

/-- An empty queue idles (log 3). -/
theorem test_empty_queue : step (st active) = .next (st active) := rfl

/-- R545, Table 22.9: a register of the boot block is stored through port A and left alone through port B. -/
theorem test_boot_register :
    ((active.writeReg 0 0x102 0 Fld.RCV_LEN_BYTES.info.off 4 4096).rg .RCV_LEN_BYTES = 4096)
    ∧ ((active.writeReg 1 0x102 0 Fld.RCV_LEN_BYTES.info.off 4 4096).rg .RCV_LEN_BYTES = 0) := by decide

/-- R116: a descriptor written to a VF without a bib is only counted. -/
theorem test_stray_write : (match exec (.strayWindowWrite 5 0 2) (st active) with
    | .next s => (s.dev.rg .BIBTAB_STRAY_COUNT, s.dev.now, s.dev.out)
    | _ => (0, 0, [])) = (1, 5, []) := by decide

/-! ## Witnesses: states and operands that meet the hypotheses of the statements, clause by clause -/

theorem wit_EveryCommandAnswersANextState : (∀ t, Instr.getStatus 0 ≠ .fuseWriteDone t)
    ∧ (∀ t, Instr.getStatus 0 ≠ .jtagBypass t ∧ Instr.getStatus 0 ≠ .jtagIdcode t ∧ Instr.getStatus 0 ≠ .jtagSamplePreload t
      ∧ Instr.getStatus 0 ≠ .jtagExtest t ∧ Instr.getStatus 0 ≠ .jtagClamp t ∧ Instr.getStatus 0 ≠ .jtagHighz t
      ∧ Instr.getStatus 0 ≠ .tapReset t) := by
  refine ⟨fun _ => ?_, fun _ => ⟨?_, ?_, ?_, ?_, ?_, ?_, ?_⟩⟩ <;> exact Instr.noConfusion

theorem Later.refl (f : Fuses) : Later f f :=
  ⟨Nat.le_refl _, Nat.le_refl _, Nat.le_refl _, Nat.le_refl _, fun _ h => h, rfl,
    fun i x y hx hy h => by rw [hx] at hy; cases hy; exact ⟨rfl, .inl h⟩,
    fun i x y hx hy h => by rw [hx] at hy; cases hy; exact ⟨rfl, h⟩, rfl, rfl, rfl, rfl, rfl, rfl⟩

/-- A fuse write under way, and its end at the front of the queue. -/
def burning : State :=
  { dev := { inPower 1 with keyJobs := [(0, le 128 (0x414B4A59 + 2 * 2 ^ 32 + 7 * 2 ^ 128))], fuseBusy := true }, pending := [.fuseWriteDone 0] }

theorem wit_FusesAreOneWay : ∃ f s', Later f burning.dev.fuses ∧ step burning = .next s' ∧ s'.dev.fuses.ciFloor = 7 :=
  ⟨burning.dev.fuses, _, Later.refl _, rfl, by decide⟩

theorem wit_FieldReadAfterWrite : Fld.REF_PEND_PEND.key 0 0 ≠ Fld.REF_CFG_NOTIFY.key 0 0
    ∧ Fld.SLED_STAT_STATE.key 1 0 ≠ Fld.SLED_STAT_STATE.key 0 0 := by decide

theorem wit_FieldReadAfterWrite_counters : Fld.REF_ERRORS_COUNT.key 0 0 ≠ Fld.REF_ESCAL_COUNT.key 0 0 := by decide

theorem wit_FieldWriteFollowsAccessType : Fld.REF_CFG_NOTIFY.info.acc = .rw ∧ Fld.REF_CFG_GRACE_US.info.acc = .rwl
    ∧ (inPower 3).imageLoaded = false ∧ active.imageLoaded = true ∧ Fld.REF_PEND_PEND.info.acc = .w1c
    ∧ Fld.PWR_STATE_STATE.info.acc = .ro ∧ Fld.ID_STRAY_COUNT.info.acc = .rc ∧ Fld.PANEL_CMD_REMOVE.info.acc = .wo := by decide

/-- A node whose Start List shows blocks REF, ADMIN, PANEL and PWR. -/
def listed : Dev :=
  let e (ty base : Nat) : SlEnt := SlEnt.mk ty 0 0 false false base 0x1000 0 0 0 0
  { active with sl := { ents := [e 3 0x10000, e 7 0x11000, e 0x65 0x12000, e 5 0x13000] } }

/-- The same while an image is being applied. -/
def listing : Dev := listed.setRg .CI_STATE_STATE 4

theorem wit_RegisterAccessesComplete : (node (st listed) 0).portsOn = true ∧ outsideBlocks 3 = false
    ∧ (node (st listed) 0).blockOpen 3 0 = true ∧ fieldsAt 3 Fld.REF_CFG_NOTIFY.info.off ≠ []
    ∧ reg64 (fieldsAt 3 Fld.REF_CFG_NOTIFY.info.off) = false ∧ Fld.REF_CFG_NOTIFY.info.off % 4 = 0
    ∧ reg64 (fieldsAt 7 0x2000) = true ∧ fieldsAt 7 0x2004 = [] ∧ 0x2000 % 8 = 0
    ∧ (node (st listing) 0).portsOn = true ∧ (node (st listing) 0).blockOpen 3 0 = false ∧ 6 % 4 ≠ 0 ∧ ¬(2 = 4 ∨ 2 = 8)
    ∧ ({ inPower 2 with sl := listed.sl } : Dev).blockOpen 3 0 = true ∧ ({ inPower 2 with sl := listed.sl } : Dev).imageLoaded = false
    ∧ (node (st listed) 0).imageLoaded = true := by decide

theorem wit_SpecialRegistersComplete : (node (st listed) 0).portsOn = true ∧ (node (st listed) 0).coreOn = true
    ∧ (node (st listed) 0).blockOpen 7 0 = true ∧ (node (st listed) 0).blockOpen 0x65 0 = true ∧ (node (st listed) 0).blockOpen 5 0 = true
    ∧ 0xFFFF5AA5 % 65536 = 0x5AA5 ∧ Fld.RCV_LEN_BYTES.info.off ≠ 0x1814 ∧ 0x1800 ≤ Fld.RCV_LEN_BYTES.info.off
    ∧ fieldsAt 0x102 Fld.RCV_LEN_BYTES.info.off ≠ [] ∧ reg64 (fieldsAt 0x102 Fld.RCV_LEN_BYTES.info.off) = false
    ∧ Fld.RCV_LEN_BYTES.info.off % 4 = 0 ∧ (node (st listed) 0).blockOpen 3 0 = true ∧ bit 1 0 = true ∧ bit 2 0 = false
    ∧ (node (st listing) 0).portsOn = true ∧ (node (st listing) 0).blockOpen 0x65 0 = false ∧ (node (st listing) 0).blockOpen 3 0 = false := by decide

theorem wit_Bar0AccessesComplete : (node (st listed) 0).portsOn = true ∧ (node (st listed) 0).loader ≠ 4 ∧ 0xFFF8 < 0x10000 ∧ 0xFFF8 % 64 + 8 ≤ 64
    ∧ ((node (st listed) 0).blockAt 0x10FF8).map (·.2) = some 0xFF8 ∧ (node (st listed) 0).blockAt 0x14000 = none := by decide

theorem no_heats {d : Dev} (h : d.ix.heats = []) (i : Nat) (x : Heat) (hx : d.heat i = some x) : x.started = true ∨ x.empty = false := by
  simp [Dev.heat, h, Tab.find] at hx

theorem quiet_bound : bound.Quiet := by
  refine ⟨⟨?_, ?_, ?_, ?_, ?_, ?_, ?_, ?_, ?_, no_heats rfl, ?_, ?_⟩, ?_⟩ <;> decide

theorem wit_DescriptorsRunAtOnceInAQuietNode : descriptor (.search 0 (vf 0) (desc 0)) = some (0, 0x10, vf 0, desc 0)
    ∧ (node (st bound) 0).srcWin (vf 0) = some 0 ∧ (node (st bound) 0).discards 0 = false
    ∧ Takes (node (st bound) 0) 0 (fit 64 (withOp 0x10 (desc 0))) ∧ contextOf (node (st bound) 0) 0 (desc 0x10) = 1 := by
  refine ⟨rfl, by decide, by decide, ⟨quiet_bound.advance 0, ?_, ?_, ?_, ?_, ?_, ?_⟩, by decide⟩ <;> decide

/-- The PF0 window of port B. -/
def admin : Dev := { inPower 3 with rings := [(16385, { en := true })] }

theorem wit_DescriptorsRunAtOnceInAdmin : descriptor (.nop 9 (.pf0 1) (desc 0)) = some (9, 0x6B, .pf0 1, desc 0)
    ∧ (node (st admin) 9).srcWin (.pf0 1) = some 16385 ∧ (node (st admin) 9).discards 16385 = false
    ∧ Takes (node (st admin) 9) 16385 (fit 64 (withOp 0x6B (desc 0))) := by
  refine ⟨rfl, by decide, by decide, ⟨Dev.Quiet.advance ⟨⟨?_, ?_, ?_, ?_, ?_, ?_, ?_, ?_, ?_, no_heats rfl, ?_, ?_⟩, ?_⟩ 9, ?_, ?_, ?_, ?_, ?_, ?_⟩⟩ <;> decide

theorem wit_DescriptorsAreSubmitted : descriptor (.logRead 0 (.pf0 0) (desc 0)) = some (0, 0x6A, .pf0 0, desc 0)
    ∧ (node (st (inPower 2)) 0).coreOn = true := by decide

theorem wit_CancelsCompleteAtLanding :
    (node (st bound) 0).coreOn = true ∧ (node (st bound) 0).srcWin (vf 0) = some 0 ∧ (node (st bound) 0).srcWin (vf 1) = some 1
    ∧ (node (st bound) 0).discards 0 = false ∧ (node (st bound) 0).discards 1 = false
    ∧ ((node (st bound) 0).landIn 0 (fit 64 (withOp 0x1F (desc 0)))).2 = some 1
    ∧ (Tab.find ((node (st bound) 0).landIn 0 (fit 64 (withOp 0x1F (desc 0)))).1.reqs 1).map (·.desc) = some (fit 64 (withOp 0x1F (desc 0)))
    ∧ payloadOk [(0x10, 4)] (fit 64 (withOp 0x1F (desc 0))) = true
    ∧ ((node (st bound) 0).landIn 1 (fit 64 (withOp 0x2F (desc 0)))).2 = some 1
    ∧ (Tab.find ((node (st bound) 0).landIn 1 (fit 64 (withOp 0x2F (desc 0)))).1.reqs 1).map (·.desc) = some (fit 64 (withOp 0x2F (desc 0)))
    ∧ payloadOk [(0x10, 4)] (fit 64 (withOp 0x2F (desc 0))) = true := by decide

theorem wit_UndefinedOpcodesAreBadDescriptors : (node (st bound) 0).coreOn = true ∧ (node (st bound) 0).srcWin (vf 7) = some 7
    ∧ (node (st bound) 0).discards 7 = false ∧ ((node (st bound) 0).ring (ringKey 7 (u8 (fit 64 (desc 0x170)) 1 % 8))).en = true
    ∧ definedOps.contains (u8 (fit 64 (desc 0x170)) 0) = false ∧ ((node (st bound) 0).win 7).fifo.length < 256 := by decide

theorem wit_StrayWindowWritesAreCounted : (node (st bound) 0).coreOn = true ∧ (node (st bound) 0).vfBib 0 2 = none
    ∧ (∃ op, descriptor (.search 0 (.vf 0 2 0) []) = some (0, op, .vf 0 2 0, [])) ∧ (node (st bound) 0).Quiet :=
  ⟨by decide, by decide, ⟨0x10, rfl⟩, quiet_bound.advance 0⟩

theorem wit_ReleaseReturnsRingSpace :
    (({ active with rings := [(16371, { en := true, written := 3, head := 4294967295 })] } : Dev).ring (bibWin 1023 0 3)).used = 4
    ∧ (4294967295 + 4294967296 - 4294967295) % 4294967296 = 0 ∧ (3 + 4294967296 - 4294967295) % 4294967296 = 4
    ∧ (4 + 4294967296 - 4294967295) % 4294967296 = 5 ∧ (active.ring (bibWin 1023 1 7)).en = false := by decide

/-- A completion that waits in ring 0. -/
def waitingCpl : Cpl := Cpl.mk 0 (some 0) 0 0 0 0x10 false 0 0 0 0 none none false 0 1 false none

theorem wit_WindowEventsComplete :
    (node (st bound) 0).coreOn = true ∧ (node (st bound) 0).srcWin (vf 7) = some 7 ∧ (node (st bound) 0).discards 7 = false
    ∧ bit (2 ^ 31) 31 = true ∧ bit 0 31 = false ∧ bits (2 ^ 31 + 256 * 4096 + 16) 4 0 = 16 ∧ bits (2 ^ 31 + 256 * 4096 + 16) 20 12 = 256
    ∧ bits (2 ^ 31 + 4096 + 6) 4 0 = 6 ∧ bits (2 ^ 31 + 4096 + 6) 20 12 = 1 ∧ ((node (st bound) 0).ring 16384).en = false
    ∧ ((node (st bound) 0).port 0).ecrcCheck = false ∧ ((node (st { bound with ports := [{ ecrcCheck := true, vfEnable := true, numVfs := 512 }, {}] }) 0).port 0).ecrcCheck = true
    ∧ bits (2 ^ 31 + 5) 4 0 < 6 ∧ ((node (st admin) 0).ring 16385).en = true := by decide

def moderated : Dev := node (st 
    { admin with rings := [(16385, { en := true, unsig := 1, modTime := 2, firstAt := 5, lastDest := .pcie 1 0, past := [(0, RingMod.mk 0 1 2 0 0 0 (.pcie 1 0))] })] }) 2005

/-- Entries of an earlier configuration of the ring have left unsignalled. -/
def earlier : Dev := node (st
    { admin with rings := [(16385, { en := true, setup := 1, past := [(0, RingMod.mk 0 1 2 1 5 0 (.pcie 1 0))] })] }) 2005

def ringFull : Dev := node (st 
    { active with rings := [(0, { en := true, wait := [(0, waitingCpl)] })] }) 1000000

def masked : Dev := node (st 
    { active with ports := [{ msix := [(1, { enabled := true, pendingVecs := [3] })] }, {}] }) 0

theorem wit_WindowEventsComplete_times :
    (∀ m ∈ (moderated.ring 16385).past, m.2.unsig = 0) ∧ (moderated.ring 16385).lastDest = .pcie 1 0
    ∧ (earlier.ring 16385).past = [(0, RingMod.mk 0 1 2 1 5 0 (.pcie 1 0))] ∧ (earlier.ring 16385).unsig = 0
    ∧ 5 + 2 * 1000 ≤ earlier.now ∧ 0 < (moderated.ring 16385).unsig ∧ (moderated.ring 16385).firstAt + (moderated.ring 16385).modTime * 1000 ≤ moderated.now
    ∧ (ringFull.ring 0).wait = [(0, waitingCpl)] ∧ 0 + 1000000 ≤ ringFull.now ∧ waitingCpl.rerouted = false
    ∧ Tab.find (masked.port 0).msix 1 = some { enabled := true, pendingVecs := [3] } ∧ (node (st (inPower 2)) 0).mgmtOn = true
    ∧ (node (st (inPower 1)) 0).power = 1 ∧ (node (st (inPower 1)) 0).thermTrip = false := by and_intros <;> decide

def trained : Dev := node (st 
    { active with ports := [{ loadRate := 32, loadWidth := 16 }, {}] }) 0

theorem wit_PortEventsComplete : (node (st bound) 0).coreOn = true ∧ (node (st bound) 0).vfBib 0 1 = some (0, 0)
    ∧ 0 = ((node (st bound) 0).bib 0).path ∧ (node (st bound) 0).vfBib 0 512 = none ∧ (node (st bound) 0).mgmtOn = true
    ∧ ((node (st bound) 0).port 0).answersAt ≤ (node (st bound) 0).now ∧ ((node (st bound) 0).port 0).cfgField .totalVfs = some 512
    ∧ trained.imageLoaded = true
      ∧ (trained.port 0).loadRate * (trained.port 0).loadWidth ≤ 32 * 16 ∧ 32 * 8 < (trained.port 0).loadRate * (trained.port 0).loadWidth := by and_intros <;> decide

/-- Bib 7 on a queue pair of Ethernet port 1. -/
def fabBound : Dev := { active with bibs := [(7, { state := 2, bind := Binding.mk 2 1 0 5 0, qpReady := true })] }

set_option maxRecDepth 20000 in
theorem wit_FabricEventsComplete : (node (st fabBound) 0).coreOn = true ∧ (node (st fabBound) 0).fabReady 7 = true
    ∧ subOk 0 (le 4096 0) = true ∧ subOk 7 (desc 0) = true ∧ ((node (st fabBound) 0).bib 7).cnpAt = none := by decide

def ptpNode : Dev := node (st 
    { (active.setRg .ETH_LINK_UP 1 1) with ptpSync := some 0 }) 2000000000

theorem wit_EthernetAndPtpComplete :
    ptpNode.coreOn = true ∧ 1 = ptpNode.ptpPort ∧ ptpNode.ptpSync ≠ none ∧ 1000 < Int.natAbs (-1001) ∧ 0 ≠ ptpNode.ptpPort ∧ ptpNode.ptpSync = some 0
        ∧ 0 + 2000000000 ≤ ptpNode.now ∧ ptpNode.rg .PTP_CFG_MASTER = 0 ∧ ptpNode.rg .ETH_LINK_UP ptpNode.ptpPort ≠ 0 := by and_intros <;> decide

def pacer : Pacer := { rate := 1, depth := 1, interval := 1 }

/-- A frame of 64 bytes. -/
def frame : Frame := { len := 64, charge := 64 }

def trafficNode : Dev := node (st 
    { active with
        pacers := [(9219, pacer)]
        outlets := [{}, { gates := [Gate.mk 1000 255, Gate.mk 1000 1] }, { ctl := [frame] }, { promoAge := [0, 0, 0, 0, 0, 1, 0, 0] }]
        ports := [{ up := true }, { up := true }] }) 65000000

theorem wit_TrafficEventsComplete :
    trafficNode.coreOn = true ∧ Tab.find trafficNode.pacers 9219 = some pacer ∧ pacer.period ≠ 0 ∧ trafficNode.now % pacer.period = 0
      ∧ pacer.refilled < trafficNode.now ∧ pacer.next = none
      ∧ trafficNode.now % 1000 = 0 ∧ (trafficNode.outlet 3).ctlAt < trafficNode.now ∧ (trafficNode.outlet 1).gates ≠ [] ∧ gateCycle (trafficNode.outlet 1).gates ≠ 0 ∧ (trafficNode.outlet 1).base ≤ trafficNode.now
      ∧ (∀ d, d = trafficNode.refillsDue 2 → (d.port (2 - 2)).up = true ∧ (d.outlet 2).busy0 ≤ d.now ∧ (d.outlet 2).ctl = [frame]
        ∧ frame.lane = 0 ∧ frame.charge * 65536 ≤ (d.outlet 2).ctlTokens ∧ 2 < d.outlets.length)
      ∧ (∀ d, d = trafficNode.refillsDue 3 → (d.outlet 3).busy0 ≤ d.now ∧ d.linkUp 3 0 = true ∧ (d.outlet 3).ctl = []
        ∧ (d.outlet 3).apt = [] ∧ d.queues = [] ∧ 3 < d.outlets.length) := by
  and_intros <;> try decide
  all_goals (intro d h; subst h; and_intros <;> decide)

def promoted : Dev := node (st 
    { active with
        outlets := [{}, {}, {}, { promoAge := [0, 0, 0, 0, 0, 1, 0, 0] }]
        queues := [(queueKey 3 0 5, [frame])] }) 1001

theorem wit_TrafficEventsComplete_promotion :
    (promoted.outlet 3).promoAge.getD 5 0 ≠ 0 ∧ promoted.contracted 0 5 = false ∧ Tab.find promoted.queues (queueKey 3 0 5) = some [frame]
        ∧ (promoted.outlet 3).promoAge.getD 5 0 * 1000 < promoted.now - frame.since := by and_intros <;> decide

/-- A node of a meet of three: slot 0; slot 1 live, the holder; slot 2 DOWN. -/
def inMeet : Dev :=
  { active with mt := { on := true, slot := 0, member := true, holder := some 1, restart := 4, standby := [0]
                        members := [(0, { state := 0 }), (1, { state := 0, hbInst := some 0 }), (2, {})] } }

def hdr1 : RHdr := { hdr with restart := 4 }

theorem wit_RelayFramesAreTaken : relayFrame (.heartbeat 0 hdr1 []) = some (0, K_HEARTBEAT, hdr1, []) ∧ FrameOk (node (st inMeet) 0) hdr1 := by
  refine ⟨rfl, ?_, ?_, ?_, ?_, ?_, ?_⟩ <;> decide

theorem wit_RelayFramesAreChecked : (node (st inMeet) 0).coreOn = true ∧ (node (st inMeet) 0).mt.on = true
    ∧ relayFrame (.beacon 0 { hdr with src := 255 } []) = some (0, K_BEACON, { hdr with src := 255 }, [])
    ∧ Tab.has (node (st inMeet) 0).mt.members 255 = false ∧ Tab.has (node (st inMeet) 0).mt.members 1 = true
    ∧ 1 ≠ (node (st inMeet) 0).mt.slot ∧ stale 32 3 (node (st inMeet) 0).mt.restart = true ∧ K_BEACON ≠ K_JOIN ∧ K_BEACON ≠ K_RESTART := by decide

def unacked : Dev := node (st 
    { inMeet with mt := { inMeet.mt with
        peers := [(1, { unacked := [Unacked.mk 9 K_ROLES false [] 0 2] })] } }) 100000

theorem wit_UnacknowledgedFramesAreSentAgain :
    unacked.coreOn = true ∧ (unacked.peer 1).unacked.find? (fun u => u.seq == 9) = some (Unacked.mk 9 K_ROLES false [] 0 2) ∧ 0 + unacked.mt.retx * 1000 ≤ unacked.now := by and_intros <;> decide

/-- The holder of a meet of two, in a restart. -/
def holder : Dev :=
  { active with mt := { on := true, slot := 0, member := true, holder := some 0, run := some { epoch := 5, nonce := [], began := 0 }
                        members := [(0, { state := 0 }), (1, { state := 0, hbInst := some 0 })] } }

/-- A primary copy of heat 1023. -/
def heat : Heat :=
  { number := 1023, role := 0, code := 0, degree := 32, cap := 8, sideCap := 4, copies := [0], scanFrac := 0, pinned := 0, started := true }

def memberNode : Dev := node (st inMeet) 250000

theorem wit_MeetTimersComplete_member :
    memberNode.coreOn = true ∧ memberNode.now % 50000 = 0 ∧ memberNode.mt.on = true ∧ memberNode.mt.member = true ∧ memberNode.isHolder = false
      ∧ memberNode.mt.beaconAt + 225000 ≤ memberNode.now ∧ memberNode.mt.silentDone = false ∧ memberNode.ix.heats = [] ∧ memberNode.inMeet = true ∧ memberNode.mt.standby.head? = some memberNode.mt.slot
      ∧ 50000 * (memberNode.mt.beaconInst + 4) + 25000 ≤ memberNode.now := by and_intros <;> decide

def holderNode : Dev := node (st holder) 3600000000000

theorem wit_MeetTimersComplete_holder :
    holderNode.now % 1000000 = 0 ∧ holderNode.isHolder = true ∧ holderNode.inMeet = true ∧ 1 ≠ holderNode.mt.slot
      ∧ holderNode.memberLive 1 = true ∧ (holderNode.member 1).hbInst = some 0 ∧ 50000 * (0 + 4) + 25000 ≤ holderNode.now ∧ (holderNode.mt.run).map (·.began) = some 0
      ∧ 0 + holderNode.mt.joinMs * 1000000 ≤ holderNode.now ∧ holderNode.now % 3600000000000 = 0 := by and_intros <;> decide

def coldNode : Dev := node (st 
    { active with mt := { on := true, anchor := 0, slot := 0 } }) 10000000

def handedOver : Dev := node (st 
    { inMeet with ix := { heats := [(0, { heat with role := 1, handoff := some (4294967297, 0) })] } }) 100000

/-- A node a second into its holdover. -/
def drifting : Dev := node (st ({ active with mt := { holdover := some 5 } }.setRg .PTP_STAT_HOLDOVER 1)) 1000000005

theorem wit_MeetTimersComplete_others :
    coldNode.mt.anchor = coldNode.mt.slot ∧ coldNode.mt.on = true
      ∧ coldNode.mt.member = false ∧ coldNode.isHolder = false ∧ coldNode.mt.run = none ∧ max coldNode.mt.coldAt coldNode.mt.heardAt + 2 * coldNode.mt.joinMs * 1000000 ≤ coldNode.now
    ∧ handedOver.heatIdx 1023 = some 0 ∧ (handedOver.heat 0).map (fun h => (h.handoff, h.role)) = some (some (4294967297, handedOver.mt.slot), 1)
        ∧ 4294967297 ≤ handedOver.now / handedOver.ivl + 4294967296
    ∧ drifting.rg .PTP_STAT_HOLDOVER = 1 ∧ drifting.mt.holdover = some 5 ∧ 5 + 1000000000 ≤ drifting.now := by and_intros <;> decide

/-- A search at its shards, its one source not answered. -/
def searching : Srch := { step := 2, sources := [{ heat := 1023, sent := [1], first := 0 }] }

def searchNode : Dev := node (st 
    { inMeet with ix := { srch := [(1, searching)] } }) 4000000

theorem wit_SourcesAreHedgedAndGivenUp :
    searchNode.coreOn = true ∧ searchNode.mt.on = true
      ∧ searchNode.srch 1 = some searching ∧ searching.sources[0]?.map (fun y => (y.sent, y.settled)) = some ([1], false) ∧ searching.step = 2
      ∧ 0 + 4 * searchNode.threshold 1023 ≤ searchNode.now ∧ 0 + searchNode.threshold 1023 ≤ searchNode.now := by and_intros <;> decide

def closing : Dev := node (st 
    { active with ix := { heats := [(0, heat)] } }) 100000

def publishing : Dev := node (st 
    { active with ix := { heats := [(0, heat)] } }) 80000

theorem wit_CommitGroupsCloseAndPublish :
    closing.coreOn = true ∧ closing.heatIdx 1023 = some 0
      ∧ closing.heat 0 = some heat ∧ closing.writables false = []
      ∧ (node (st { active.setRg .SLED_STAT_STATE 2 with fl := { targets := [(0, { qlc := false, blocks := 1, perBlock := 1 })] } }) 100000).writables false ≠ [] ∧ closing.now % closing.ivl = 0 ∧ heat.orders closing.mt.slot (closing.now / closing.ivl + 4294967296) = true ∧ closing.mt.on = false
      ∧ heat.started = true ∧ closing.rg .FTL_SUPPLY_NVLOW = 0
      ∧ (heat.opens.filter fun g => decide (g.epoch ≤ closing.now / closing.ivl + 4294967296)).flatMap (·.upds) = []
      ∧ (node (st { (active.setRg .FTL_SUPPLY_NVLOW 1) with ix := { heats := [(0, heat)] } }) 100000).rg .FTL_SUPPLY_NVLOW = 1
    ∧ publishing.pub ≤ publishing.now ∧ (publishing.now - publishing.pub) % publishing.ivl = 0
      ∧ heat.role = 0 ∧ heat.handoff = none ∧ (heat.closed.filter fun g => decide (g.epoch ≤ (publishing.now - publishing.pub) / publishing.ivl + 4294967296)) = [] := by and_intros <;> decide

/-- A shard query of partition 0 that waits for a walk slot, as of time 0. -/
def query (stage : Nat) : SQ :=
  { origin := .here 1 0, heat := 0, part := 0, epoch := 0, filter := [], code := [], localK := 1, beam := 1, maxHops := 1, maxMiss := 0, maxEvals := 1
    est := 0, seeds := 1, mode := 0, stage := stage }

def group0 : PackGroup := { part := 0, heat := 0, lid := 0, reqs := [], opened := 0 }
def scanBatch : Batch := { side := false, heat := 0, part := 0, qs := [], opened := 0, sent := [unitKey 127 15] }
def sideBatch : Batch := { side := true, heat := 0, part := 0, qs := [], opened := 0, tail := 1, cur := [(0, 0)] }
def missBatch : Batch := { scanBatch with qs := [3] }

def walking : Dev := node (st { active with ix := {
    heats := [(0, heat)], sqs := [(3, query 1)]
    groups := [(4, group0), (5, { group0 with closed := true, engine := some 0, running := true })]
    batches := [(6, scanBatch), (7, sideBatch)] } }) 65536000

theorem wit_IndexEventsComplete_dispatch : walking.coreOn = true ∧ walking.ix.sqs = [(3, query 1)] ∧ (query 1).stage = 1 ∧ (query 1).part = 0
    ∧ Tab.find walking.ix.groups 4 = some group0 ∧ group0.closed = false ∧ group0.opened + walking.rg .PACK_CFG_WINDOW ≤ walking.now
    ∧ Tab.find walking.ix.groups 5 = some { group0 with closed := true, engine := some 0, running := true } ∧ walking.heat group0.heat = some heat
    ∧ (EccOutcome.mk 0 0 0 false none false 0).sectorBad = false ∧ (EccOutcome.mk 0 0 0 false none false 0).badEntry = none
    ∧ walking.now % 2000 = 0 ∧ walking.batch 6 = some scanBatch ∧ scanBatch.side = false ∧ scanBatch.closed = false
    ∧ scanBatch.opened + walking.rg .STK_CFG_SCANWIN 0 * 1000 ≤ walking.now ∧ walking.batch 7 = some sideBatch ∧ sideBatch.side = true
    ∧ sideBatch.closed = false ∧ sideBatch.opened + walking.rg .SIDE_CFG2_WIN sideBatch.heat * 1000 ≤ walking.now := by and_intros <;> decide

def engines (n : Nat) : Dev := node (st { active with
    fl := { map := [(heatTile 1023 7 15, { st := 1 })] }
    ix := {
      heats := [(0, { heat with cap := 1000000 })]
      sqs := [(3, query 0)]
      batches := [(6, scanBatch), (7, sideBatch)]
      engines := [(0, { owner := 0, live := some 7 }), (127, { owner := 0, live := some 6 })]
      lists := [(8, { owner := .shard 3, part := 0, k := 1, mode := 0, merge := false, closed := true })] } }) n

theorem wit_IndexEventsComplete_engines : 1840 ≤ (engines 1001840).now % 2000 ∧ (engines 1001840).batch 7 = some sideBatch
    ∧ (engines 1001840).heat sideBatch.heat = some { heat with cap := 1000000 } ∧ ((engines 1001840).engine 0).live = some 7
    ∧ ((engines 1001840).engine 0).owner = sideBatch.part ∧ (engines 1001840).engFenced 0 = false
    ∧ Tab.find sideBatch.cur 0 = some 0 ∧ heat.pausing = false ∧ 0 < 128
    ∧ (engines 1001840).batch 6 = some scanBatch ∧ scanBatch.sent.contains (unitKey 127 15) = true
    ∧ ((engines 1001840).grantTile 6 scanBatch.qs).1 = [] := by and_intros <;> decide

/-- A scan batch whose query may pay for a tile of the flash. -/
def missing : Dev := node (st { active.setRg .SLED_STAT_STATE 2 with
    fl := { map := [(heatTile 1023 7 15, { st := 1 })] }
    ix := { heats := [(0, { heat with cap := 1000000 })], sqs := [(3, { query 3 with maxMiss := 1 })], batches := [(6, missBatch)] } }) 0

theorem wit_IndexEventsComplete_miss : missing.batch 6 = some missBatch ∧ missing.heat 0 = some { heat with cap := 1000000 }
    ∧ missBatch.sent.contains (unitKey 127 15) = true
    ∧ (missing.grantTile 6 (missBatch.qs.filter fun q => match missing.sq q with | some y => y.stage == 3 && !y.missOut | none => false)).1 = [3]
    ∧ (((missing.grantTile 6 [3]).2.updBatch 6 fun b => { b with noticed := Tab.ins b.noticed (unitKey 127 15) [3], sent := b.sent.filter (· != unitKey 127 15) }).look
        (heatTile 1023 (127 / 16) 15)) = .miss := by and_intros <;> decide

theorem wit_IndexEventsComplete_times : (engines 1000000000).engFenced 0 = false ∧ (engines 1000000000).busyAt 0 = true
    ∧ (engines 1000000000).rg .STK_CFG_WDOG (0 / 16) * 1000
      ≤ ((engines 1000000000).engine 0).acc + ((engines 1000000000).now - ((engines 1000000000).engine 0).since)
    ∧ (((engines 0).plist 8).map fun l => (decide (l.closed = true), decide (l.owner = .shard 3))) = some (true, true)
    ∧ (engines 200000).sq 3 = some (query 0) ∧ (query 0).stage = 0
    ∧ (query 0).held + (engines 200000).ix.pre.hold * 1000 ≤ (engines 200000).now := by and_intros <;> decide

/-- A heat whose staging is complete. -/
def staged : Heat := { heat with tail := 1, stage := { next := 1, ended := true, made := true, lists := [(0, [1])] } }

def consolidating : Dev := node (st { active with ix := { heats := [(1, staged)] } }) 1000000

theorem wit_ConsolidationEventsComplete : consolidating.coreOn = true ∧ consolidating.loader ≠ 3 ∧ consolidating.loader ≠ 4
    ∧ consolidating.heatIdx 1023 = some 1 ∧ consolidating.heat 1 = some staged ∧ staged.pausing = false ∧ consolidating.now % 1000000 = 0
    ∧ consolidating.ix.pausedAt ≠ some (consolidating.now / 1000000) ∧ (∀ d : Dev,
      d = (Tab.keys consolidating.ix.heats).foldl (fun d i => (d.restage i).stageGo i) consolidating →
      ((Tab.keys d.ix.heats).filter fun j => d.staged j && d.pauseFits j) = [1] ∧ d.ix.turn < 1)
    ∧ (∀ d : Dev, d = (Tab.keys (node (st active) 1000000).ix.heats).foldl (fun d i => (d.restage i).stageGo i) (node (st active) 1000000) →
      ((Tab.keys d.ix.heats).filter fun j => d.staged j && d.pauseFits j) = []) := by
  refine ⟨by decide, by decide, by decide, by decide, by decide, by decide, by decide, by decide, ?_, ?_⟩
  · rintro _ rfl; decide
  · rintro _ rfl; decide

/-! ### Infield, embedding tables, the pool, the tiers -/

def layer : Layer :=
  { alloc := 1, first := 0, ntiles := 1, wfmt := 0, afmt := 0, gcode := 0, wsfmt := 0, asfmt := 0, amode := 0, mgran := 0, qflags := 0, ofmt := 0
    entries := [] }

def prog (tiles : Nat) (l : List Layer) : Prog :=
  { bib := 0, shared := false, cost := 0, digest := 0, role := 0, topk := false, tiles := tiles, window := 1, pages := 1, rowmax := 1, infmt := 0
    outfmt := 0, inelems := 1, outelems := 1, k := 0, mode := 0, ftable := 0, tp := 0, layers := l, pkgTiles := 1 }

/-- A node whose request 1 waits for a pass of slot 0, and whose request 2 runs in pass 9 of slot 1 with tile 95. -/
def infield (tiles at_ : Nat) (l : List Layer) : Dev := node (st { active with
    bibs := [(0, { state := 2 })]
    parts := [{ num := 0, kind := 0, ctx := 4, share := 0, tiles := 2 ^ 95 + 1, walk := 1, podium := 1 }]
    reqs := [(1, running 0x22), (2, running 0x22), (3, { running 0x20 with admitted := 0 })]
    inf := {
      progs := [(progKey 0 0, prog tiles [layer]), (progKey 0 1, prog 1 l)]
      queue := [(0, [{ r := 1, kind := 0, bib := 0, slot := 0, left := 1 }])]
      jobs := [(1, { kind := 0, slot := 0, rows := 1, held := true }), (2, { kind := 0, slot := 1, rows := 1, held := true })]
      passes := [(9, { part := 0, slot := 1, bib := 0, tiles := [95], pages := [⟨15, 0, 1⟩], started := true, since := 0, granted := 0
                       reqs := [{ r := 2, kind := 0, first := 0, rows := 1, seed := 0 }]
                       weights := [{ layer := 0, tile := 0, state := 0 }] })] } }) at_

theorem wit_InfieldEventsComplete : ∀ d, d = (infield 1 100000000 [layer]).reapPasses → (infield 1 100000000 [layer]).coreOn = true
    ∧ Tab.get [] d.inf.queue 0 = [{ r := 1, kind := 0, bib := 0, slot := 0, left := 1 }] ∧ d.prog 0 0 = some (prog 1 [layer])
    ∧ ((Tab.vals d.inf.passes).any fun x => x.reqs.any fun q => q.r == 1) = false
    ∧ (prog 1 [layer]).tiles ≤ (d.unfenced 0).length ∧ d.passReady { r := 1, kind := 0, bib := 0, slot := 0, left := 1 } = true
    ∧ (prog 1 [layer]).tiles ≤ ((d.unfenced 0).filter fun k => !d.tileBusy k).length ∧ d.pagesHeld 0 + (prog 1 [layer]).pages ≤ d.pageShare 0
    ∧ (d.pass 9).map (fun p => (p.weights, p.started, p.layer, p.since, p.slot, p.part))
        = some ([{ layer := 0, tile := 0, state := 0 }], true, 0, 0, 1, 0)
    ∧ d.prog 0 1 = some (prog 1 [layer]) ∧ (prog 1 [layer]).layers[0]? = some layer ∧ (prog 1 [layer]).layers.length ≤ 0 + 1
    ∧ (d.inf.passes.find? (fun p => p.2.tiles.contains 95)).map (·.1) = some 9 ∧ 0 + d.rg .IGRP_CFG_WDOG (95 / 8) * 1000 ≤ d.now
    ∧ ((Tab.find (infield 1 100000000 [layer]).reqs 3).map fun q => (q.live, u8 q.desc 0, q.admitted)) = some (true, 0x20, 0)
    ∧ 0 + 20000000 ≤ (infield 1 100000000 [layer]).now := by
  rintro _ rfl; and_intros <;> decide

theorem wit_InfieldEventsComplete_others : (∀ d, d = (infield 3 0 [layer, layer]).reapPasses →
    (d.unfenced 0).length < (prog 3 [layer]).tiles ∧ d.prog 0 0 = some (prog 3 [layer]) ∧ d.prog 0 1 = some (prog 1 [layer, layer])
      ∧ 0 + 1 < (prog 1 [layer, layer]).layers.length) := by
  rintro _ rfl; and_intros <;> decide

/-- A node whose request 1 waits for a pass of a slot that holds no program. -/
def slotless : Dev := node (st { active with
    reqs := [(1, running 0x22)], inf := { queue := [(0, [{ r := 1, kind := 0, bib := 0, slot := 2, left := 1 }])] } }) 0

theorem wit_InfieldEventsComplete_freed : ∀ d, d = slotless.reapPasses → slotless.coreOn = true
    ∧ Tab.get [] d.inf.queue 0 = [{ r := 1, kind := 0, bib := 0, slot := 2, left := 1 }] ∧ d.prog 0 2 = none := by
  rintro _ rfl; and_intros <;> decide

def table0 : Table :=
  { num := 63, fmt := 0, sfmt := 0, elems := 1, hint := 0, migrate := true, rows := 1, home := 0, writers := 1, repl := false
    applied := 3, steps := [{ step := 4, firstAt := 0 }] }
def table1 : Table := { table0 with steps := [] }

def embedding : Dev := node (st { active with em := {
    tables := [(0, table0)]
    migs := [(1, { table := 0, row := 0, dst := 1, state := 1, started := 0 })] } }) 5000000
/-- The same while the step is being journalled. -/
def journalling : Dev := node (st { active with em := { tables := [(0, { table0 with steps := [{ step := 4, firstAt := 0, state := 1 }] })] } }) 5000000

def moving : Dev := node (st { active with em := { tables := [(0, table1)], migs := [(1, { table := 0, row := 0, dst := 1, state := 2, started := 0, k := 0 })] } }) 0

theorem wit_EmbeddingEventsComplete : embedding.coreOn = true ∧ embedding.tableIdx 63 = some 0 ∧ embedding.table 0 = some table0
    ∧ table0.buf 4 = some { step := 4, firstAt := 0 } ∧ 4 = (table0.applied + 1) % 2 ^ 32
    ∧ ((embedding.closeStep 0 4).table 0).map (·.applied) = some 4 ∧ ((journalling.closeStep 0 4).table 0).map (·.applied) = some 3 ∧ 0 + embedding.em.stepTo * 1000 ≤ embedding.now ∧ embedding.now % 1000000 = 0
    ∧ (node (st active) 1000000).em.tables = [] ∧ embedding.em.tables = [(0, table0)] ∧ embedding.mt.on = false
    ∧ (Tab.find embedding.em.migs 1).map (fun m => (m.state, m.started)) = some (1, 0) ∧ 0 + 1000000 ≤ embedding.now
    ∧ Tab.find moving.em.migs 1 = some { table := 0, row := 0, dst := 1, state := 2, started := 0, k := 0 } ∧ moving.table 0 = some table1
    ∧ 0 ≤ moving.curEpoch ∧ moving.settleComing = moving ∧ ((moving.bump .EMB_MIGOUT_COUNT 1 0 0).takeOpen 0 0).1 = [] := by and_intros <;> decide

def change0 : Change := { from_ := 0, row := 0, set := true, fmt := 0, data := [] }

/-- The same, with a change held back for the row's new home. -/
def movingHeld : Dev := node (st { active with em := { tables := [(0, table1)], migs := [(1, { table := 0, row := 0, dst := 1, state := 2, started := 0, k := 0, held := [(4, change0)] })] } }) 0

theorem wit_EmbeddingEventsComplete_held : ∀ d, d = movingHeld.settleComing →
    ((Tab.find d.em.migs 1).map fun m => (m.state, m.k, m.held)) = some (2, 0, [(4, change0)]) ∧ d.table 0 = some table1 ∧ 0 ≤ d.curEpoch
    ∧ [(4, change0)] ++ ((d.bump .EMB_MIGOUT_COUNT 1 0 0).takeOpen 0 0).1 ≠ [] := by
  rintro _ rfl; and_intros <;> decide

def seg0 : Seg := { blocks := 1, pinned := false, version := 1, lease := some 0, offer := some (1, 0, 1, 0), slot := 0, bib := 0, idle := 0, used := 0 }

def pooled : Dev := node (st { (((active.setRg .POOL_APTCTL_EN 1 0 63).setRg .POOL_APTKEY_KEY 5 0 63)) with
    ports := [{ apt := true }, {}], pl := { on := true, segs := [(5, seg0)] } }) 50000000

theorem wit_PoolEventsComplete : pooled.coreOn = true ∧ pooled.seg 5 = some seg0 ∧ seg0.lease = some 0 ∧ 0 ≤ pooled.now
    ∧ seg0.offer = some (1, 0, 1, 0) ∧ 0 + pooled.pl.handoffMs * 1000000 ≤ pooled.now ∧ (pooled.port 0).apt = true
    ∧ (63 * 2 ^ 30 + 65535) / 2 ^ 30 < 64 ∧ pooled.rg .POOL_APTCTL_EN 0 63 = 1 ∧ keyHome (pooled.rg .POOL_APTKEY_KEY 0 63) = pooled.mt.slot
    ∧ pooled.seg (pooled.rg .POOL_APTKEY_KEY 0 63) = some seg0 ∧ seg0.version ≠ 0 ∧ (63 * 2 ^ 30 + 65535) % 2 ^ 30 + 1 ≤ seg0.blocks * 65536
    ∧ pooled.pl.on = true ∧ (node (st { listed with sl := { ents := [SlEnt.mk 0x63 0 0 false false 0x10000 0x1000 0 0 0 0] } }) 0).blockOpen 0x63 0 = true
    ∧ pooled.blockOpen 0x63 0 = false ∧ pooled.rg .POOL_APTCTL_EN 0 1 = 0
    ∧ (pooled.port 1).apt = false ∧ 64 ≤ 2 ^ 36 / 2 ^ 30 ∧ 2 ^ 36 - 1 < 2 ^ 36 := by and_intros <;> decide

def target : Target := { qlc := false, blocks := 100, perBlock := 1, blks := [(0, { mode := 2, pages := 1 })] }

def tiers (now : Nat) : Dev := node (st { (((active.setRg .SLED_STAT_STATE 2).setRg .FTL_SLC_CAP_TILES 1).setRg .FTL_JOURNAL_BOUND_MIB 0) with
    fl := {
      targets := [(0, target)]
      map := [(1, { st := 1 }), (2, { st := 1 }), (3, { dirty := some 0 })]
      dirtySegs := [0]
      stalled := [{ kind := 0 }]
      ops := [(1, { kind := 0, target := 1 }), (2, { kind := 1, native := !false }), (3, { kind := 2 })] } }) now

set_option maxRecDepth 20000 in
theorem wit_TierEventsComplete : (tiers 10000000).coreOn = true ∧ (tiers 10000000).now % 10000000 = 0 ∧ (tiers 0).oldestDirty = some 3
    ∧ (tiers 0).mayProgram = true ∧ (tiers 0).badOn 0 = [] ∧ (tiers 0).rg .FTL_SLC_CAP_TILES * (tiers 0).rg .FTL_CFG_FOLD_PCT / 100 < (tiers 0).bufUsed
    ∧ Tab.find (tiers 0).fl.targets 0 = some target ∧ (tiers 0).fl.dirtySegs ≠ [] ∧ 3 * (tiers 0).segBound ≤ 4 * (tiers 0).dirtyCount
    ∧ (tiers 0).fl.stalled = [{ kind := 0 }] ∧ (tiers 0).trackerFull = false ∧ (tiers 0).flashOn = true
    ∧ Tab.find (tiers 0).fl.ops 1 = some { kind := 0, target := 1 } ∧ (tiers 0).sledReads (sledOf 0) = true
    ∧ (tiers 0).readFirst 1 { kind := 0, target := 1 } = true ∧ (tiers 0).suspended { kind := 1, native := !false } = false
    ∧ (tiers 0).suspended { kind := 2 } = false ∧ Tab.find (tiers 0).fl.ops 2 = some { kind := 1, native := !false }
    ∧ Tab.find (tiers 0).fl.ops 3 = some { kind := 2 } ∧ ((tiers 0).eraseEnd 3 { kind := 2 } true).coreOn = true := by and_intros <;> decide

/-- A target with one free block of 100, the rest full of nothing valid. -/
def full : Target := { qlc := false, blocks := 100, perBlock := 1, blks := (List.range 99).map fun n => (n, { mode := 2, pages := 1 }) }

def reclaiming : Dev := node (st { active.setRg .SLED_STAT_STATE 2 with fl := { targets := [(0, full)] } }) 0

set_option maxRecDepth 20000 in
theorem wit_TierEventsComplete_reclaim : Tab.find reclaiming.fl.targets 0 = some full ∧ reclaiming.writable 0 false = true
    ∧ reclaiming.rg .FTL_SUPPLY_NVLOW = 0 ∧ 100 * full.freeCount < 2 * full.usable ∧ reclaiming.reclaimBlk 0 full = some 0 ∧ reclaiming.validIn 0 0 = [] := by and_intros <;> decide

/-- The same target with a valid tile in every block. -/
def moved : Dev := node (st { active.setRg .SLED_STAT_STATE 2 with fl := { targets := [(0, full)], map := (List.range 99).map fun n => (n, { st := 1, blk := n }) } }) 0

set_option maxRecDepth 20000 in
theorem wit_TierEventsComplete_moves : Tab.find moved.fl.targets 0 = some full ∧ moved.validIn 0 0 ≠ []
    ∧ (moved.reclaimBlk 0 full).isSome = true ∧ moved.validIn 0 ((moved.reclaimBlk 0 full).getD 0) ≠ [] := by
  and_intros <;> decide +kernel

/-! ### The Referee, teardown, contexts, DMA, the loader -/

def rec0 : RefRec := RefRec.mk 0 0 1 0 none 0 1 SRC_CW_DMA 0 1 1 0 0 false

/-- Records of every kind whose grace has run out, and a vector held back. -/
def refereed : Dev := node (st { bound with
    notifiedAt := some 0, notifyHeld := true
    recs := [(4, { rec0 with bib := some 0 }), (5, { rec0 with bib := some 0, cls := 2 }), (9000, rec0), (9001, { rec0 with cls := 3 })] })
  200000000

theorem wit_RefereeEventsComplete : refereed.mgmtOn = true ∧ SRC_CW_DMA ≠ SRC_DATA_UNCORR ∧ refereed.notifiedAt = some 0
    ∧ 0 + 10000 ≤ refereed.now ∧ refereed.notifyHeld = true ∧ Tab.find refereed.recs 4 = some { rec0 with bib := some 0 }
    ∧ Tab.find refereed.recs 5 = some { rec0 with bib := some 0, cls := 2 } ∧ Tab.find refereed.recs 9000 = some rec0
    ∧ Tab.find refereed.recs 9001 = some { rec0 with cls := 3 } ∧ rec0.state = 1
    ∧ rec0.since + refereed.rg .REF_CFG_GRACE_US * 1000 ≤ refereed.now ∧ (refereed.bib 0).state ≠ 4 ∧ rec0.resetDone = false := by
  and_intros <;> decide

def tearing (now : Nat) (grace : Bool) : Dev := node (st 
    { active with bibs := [(1023, { state := 4, bind := Binding.mk 1 0 1 0 0, tdGrace := grace })] }) now

theorem wit_TeardownEventsComplete : (tearing 2000000 true).coreOn = true ∧ ((tearing 2000000 true).bib 1023).state = 4
    ∧ ((tearing 2000000 true).bib 1023).tdGrace = true ∧ ((tearing 2000000 true).bib 1023).tdStart + 2000000 ≤ (tearing 2000000 true).now
    ∧ ((tearing 0 false).bib 1023).tdGrace = false ∧ (tearing 0 false).retired 1023 = true
    ∧ ((tearing 12000000 false).bib 1023).tdStart + 12000000 ≤ (tearing 12000000 false).now := by and_intros <;> decide

def dma0 (r b : Nat) : Dma := { req := r, slot := 0, addr := 0, len := 64, bib := some 0, port := 0, buf := b, sent := true }

/-- Request 1 runs and reads two buffers of host memory, the second of two pieces; request 2 has ended; request 3 is gone. -/
def reading : Dev := node (st { bound with
    reqs := [(1, { running 0x10 with dmas := 2 }), (2, { running 0x10 with ended := true })]
    dmas := [(7, dma0 1 20), (8, dma0 2 21), (9, dma0 3 22), (10, dma0 1 23), (11, { dma0 1 23 with off := 64 })]
    bufs := [(20, []), (21, []), (22, []), (23, [])] }) 0

theorem wit_ContextsAndReadsComplete : reading.coreOn = true ∧ reading.mgmtOn = true
    ∧ Tab.find reading.reqs 2 = some { running 0x10 with ended := true } ∧ reading.outstanding 2 = false
    ∧ Tab.find reading.dmas 7 = some (dma0 1 20) ∧ (dma0 1 20).sent = true ∧ Tab.find reading.reqs 1 = some { running 0x10 with dmas := 2 }
    ∧ ({ running 0x10 with dmas := 2 } : Req).live = true ∧ Tab.find reading.dmas 8 = some (dma0 2 21) ∧ Tab.find reading.dmas 9 = some (dma0 3 22)
    ∧ ((Tab.del reading.dmas 7).any fun p => p.2.buf == 20) = false ∧ ((Tab.del reading.dmas 10).any fun p => p.2.buf == 23) = true
    ∧ dmaStatus .timeout = some ST_TIMEOUT ∧ dmaStatus .aborted = some ST_BAD_DESC ∧ dmaStatus .unsupported = some ST_BAD_DESC := by
  and_intros <;> decide

/-- What is left of the request of a read that failed, the last of its buffer. -/
def afterRead (n r b : Nat) : Dev :=
  ({ (({ reading with dmas := Tab.del reading.dmas n } : Dev).reportDma (dma0 r b)).addFail r ST_TIMEOUT with
      bufs := Tab.del reading.bufs b } : Dev).updReq r (fun q => { q with dmas := q.dmas - 1 })

theorem wit_ContextsAndReadsComplete_failed : Tab.find (afterRead 9 3 22).reqs 3 = none
    ∧ (Tab.find (afterRead 8 2 21).reqs 2).map (·.live) = some false ∧ (Tab.find (afterRead 7 1 20).reqs 1).map (·.live) = some true := by
  and_intros <;> decide

/-- A node at work on an image. -/
def loading (state now : Nat) (x : Loader) : Dev := node (st { active.setRg .CI_STATE_STATE state with ld := x }) now

theorem wit_LoaderEventsComplete : (loading 1 200000000 { ready := true }).coreOn = true ∧ (loading 1 200000000 { ready := true }).loader = 1
    ∧ (loading 1 200000000 { ready := true }).ld.ready = true
    ∧ (loading 1 200000000 { ready := true }).ld.since + 200000000 ≤ (loading 1 200000000 { ready := true }).now
    ∧ (loading 2 0 { nor := some [0#8] }).coreOn = true ∧ (loading 2 0 { nor := some [0#8] }).mgmtOn = true
    ∧ (loading 2 0 { nor := some [0#8] }).loader = 2 ∧ (loading 2 0 { nor := some [0#8] }).ld.nor = some [0#8]
    ∧ (loading 3 2000000 {}).coreOn = true ∧ (loading 3 2000000 {}).loader = 3
    ∧ (loading 3 0 {}).draining = false ∧ (loading 3 2000000 {}).ld.since + 2000000 ≤ (loading 3 2000000 {}).now
    ∧ (loading 4 0 {}).coreOn = true ∧ (loading 4 0 {}).loader = 4 := by and_intros <;> decide

theorem wit_LoaderEventsComplete_applied :
    ((loading 4 0 {}).applyImage (loading 4 0 {}).ld.image (loading 4 0 {}).ld.bounds).ld.req = none
    ∧ ((loading 4 0 { req := some 1 }).applyImage (loading 4 0 { req := some 1 }).ld.image (loading 4 0 { req := some 1 }).ld.bounds).ld.req = some 1 := by
  decide +kernel

def contract0 : Contract := { readContract (le 2 0 ++ le 1 0 ++ le 1 0 ++ le 4 1000 ++ le 56 0) with burst := 1 }

/-- An entry that removes bib 0's contract of service 0, and its Pacer record. -/
def removal : Bytes := le 64 0 ++ le 160 0

/-- A node with a change of bib 0's contracts under check. -/
def changing (r : Nat) (buf : Bytes) : Dev := node (st { bound with
    contracts := [(3, contract0)]
    reqs := [(1, { running 0x61 with desc := le 64 (0x61 + 2 ^ 144) })]
    ld := { changes := [(r, some buf)] } }) 20000000

/-- The changed contracts' failures. -/
def failuresOf (d : Dev) (buf : Bytes) : List AdmFail :=
  (d.changed 1 buf).liveEnv.changeFails 0 ((changeEntries 1 buf).map fun x => u8 x 2)

/-- A subscriber Pacer of 1 B/s, slower than the contract. -/
def slowPacer : Bytes := le 2 0 ++ le 1 0 ++ le 1 0 ++ le 4 1000 ++ le 4 1 ++ le 20 0 ++ le 4 64 ++ le 28 0 ++ le 16 0 ++ le 8 1 ++ le 4 1 ++ le 4 1 ++ le 128 0

set_option maxRecDepth 20000 in
theorem wit_ContractChangesComplete : (changing 1 removal).coreOn = true ∧ (changing 1 removal).ld.changes = [(1, some removal)]
    ∧ (changing 1 removal).ld.changeAt + 20000000 ≤ (changing 1 removal).now
    ∧ (Tab.find (changing 1 removal).reqs 1).map (fun q => (q.ended, u8 q.desc 0x12, u16 q.desc 0x10)) = some (false, 1, 0)
    ∧ failuresOf (changing 1 removal) removal = [] ∧ Tab.find (changing 2 removal).reqs 2 = none := by and_intros <;> decide +kernel

theorem wit_ContractChangesComplete_fails : failuresOf (changing 1 slowPacer) slowPacer ≠ [] := by
  decide +kernel

/-! ### Power, reset, boot -/

theorem wit_ResetSourcesComplete : (node (st active) 0).mgmtOn = true ∧ (node (st listed) 0).portsOn = true
    ∧ (node (st listed) 0).blockOpen 5 0 = true ∧ (node (st listing) 0).portsOn = true ∧ (node (st listing) 0).blockOpen 5 0 = false ∧ 0xAB5AA5 % 65536 = 0x5AA5 ∧ 0x5AA4 % 65536 ≠ 0x5AA5
    ∧ ¬(0x5B = 0x5A ∧ 0xA5 = 0xA5) ∧ (node (st active) 0).power ≠ 0 ∧ (node (st (inPower 6)) 0).power = 6
    ∧ ((node (st (inPower 6)) 0).rg .FTL_VTHR_NVBAR + 2) * 10 ≤ 1000 := by and_intros <;> decide

theorem wit_EventsHaveTheirOwnEffect_registers : (node (st listed) 0).portsOn = true ∧ (node (st listed) 0).blockOpen 3 0 = true
    ∧ bit 1 0 = true ∧ (node (st listed) 0).blockOpen 0x65 0 = true ∧ (node (st listed) 0).blockOpen 5 0 = true ∧ 0xAB5AA5 % 65536 = 0x5AA5
    ∧ (node (st listed) 0).thermTrip = false ∧ (node (st listed) 0).power ≠ 0 ∧ (node (st listed) 0).mgmtOn = true
    ∧ (node (st (inPower 6)) 0).power = 6 ∧ (node (st (inPower 6)) 0).thermTrip = false
    ∧ ((node (st (inPower 6)) 0).rg .FTL_VTHR_NVBAR + 2) * 10 ≤ 1000 := by and_intros <;> decide

theorem wit_EventsHaveTheirOwnEffect_passes : (infield 1 100000000 [layer]).reapPasses = infield 1 100000000 [layer]
    ∧ (infield 1 0 [layer, layer]).reapPasses = infield 1 0 [layer, layer] ∧ (prog 1 [layer, layer]).layers.length = 2
    ∧ (infield 1 100000000 [layer]).prog 0 0 = some (prog 1 [layer]) ∧ (prog 1 [layer]).layers.length = 0 + 1
    ∧ (infield 1 100000000 [layer]).passReady { r := 1, kind := 0, bib := 0, slot := 0, left := 1 } = true
    ∧ ((Tab.vals (infield 1 100000000 [layer]).inf.passes).any fun x => x.reqs.any fun q => q.r == 1) = false
    ∧ (prog 1 [layer]).tiles ≤ (((infield 1 100000000 [layer]).unfenced 0).filter fun k => !(infield 1 100000000 [layer]).tileBusy k).length
    ∧ (infield 1 100000000 [layer]).pagesHeld 0 + (prog 1 [layer]).pages ≤ (infield 1 100000000 [layer]).pageShare 0 := by and_intros <;> decide

theorem wit_EventsHaveTheirOwnEffect_steps : embedding.coreOn = true ∧ embedding.tableIdx 63 = some 0
    ∧ (embedding.table 0).map (fun x => (x.steps, x.applied)) = some ([{ step := 4, firstAt := 0 }], 3)
    ∧ 0 + embedding.em.stepTo * 1000 ≤ embedding.now ∧ (Tab.find embedding.em.migs 1).map (fun m => (m.state, m.started)) = some (1, 0)
    ∧ 0 + 1000000 ≤ embedding.now ∧ moving.settleComing = moving
    ∧ (Tab.find moving.em.migs 1).map (fun m => (m.state, m.k, m.held)) = some (2, 0, []) ∧ 0 ≤ moving.curEpoch ∧ table1.steps = []
    ∧ (node (st active) 1000000).now % 1000000 = 0 ∧ (node (st active) 1000000).em.tables = [] := by and_intros <;> decide

theorem wit_NodeResetEffect : active.thermTrip = false ∧ active.power ≠ 0 ∧ CAUSE_POWER < 16 ∧ CAUSE_SOFT ≠ CAUSE_POWER ∧ CAUSE_SOFT < 16
    ∧ active.ld.nor = none ∧ active.rcv = none ∧ (inPower 1).power = 1 ∧ (inPower 1).now < 2 := by and_intros <;> decide

/-- R537: two sources in one MGMT cycle leave the lower cause; a later one leaves its own. -/
theorem test_lower_cause_of_one_cycle :
    ((active.nodeReset CAUSE_CLOCK).nodeReset CAUSE_PIN).rg .PWR_RSTCAUSE_CAUSE = 1
    ∧ ((active.nodeReset CAUSE_PIN).nodeReset CAUSE_CLOCK).rg .PWR_RSTCAUSE_CAUSE = 1
    ∧ ((active.nodeReset CAUSE_THERM).nodeReset CAUSE_PIN).rg .PWR_RSTCAUSE_CAUSE = 1
    ∧ (({ active.nodeReset CAUSE_PIN with now := 1000 } : Dev).nodeReset CAUSE_CLOCK).rg .BOOT_STAT_CAUSE = 5 := by
  and_intros <;> decide

/-- R545: PERST_N of port B rises in recovery, and its link stays down. -/
theorem test_port_b_stays_down_in_recovery :
    let d := { inPower 7 with straps := Straps.mk 2 false false false }
    d.mgmtOn = true ∧ ((d.trainPort 1).port 1).up = false ∧ ((d.trainPort 0).port 0).up = true
      ∧ (d.trainPort 0).rg .PWR_CLK_PCIE = 1 := by and_intros <;> decide

/-- A firmware image of 384 bytes: version 9, ROM key 0, the signature under that key. -/
def firmware : Bytes :=
  (le 4 magicYJFW ++ le 2 1 ++ le 2 256 ++ le 4 384 ++ le 4 0x9600 ++ le 4 9 ++ fill 236 0) ++ (le 32 1 ++ fill 32 0) ++ (le 4 magicYJSG ++ fill 60 0)

/-- A node in RESET with that image in NOR; key 0 of its ROM is a point of order 4. -/
def inReset : Dev := node (st { inPower 1 with nor := List.zip (List.range 384) firmware }) 0

/-- The node's first two boot steps. -/
def booted (m : Nat) : Dev × Bool := (inReset.bootStep1 (Straps.mk m false false false) (decide (2 ≤ m))).bootStep2

theorem wit_BootEventsComplete_release : inReset.inReset = true ∧ inReset.jtagHold = false ∧ inReset.thermTrip = false
    ∧ (booted 0).2 = true ∧ (booted 2).2 = true ∧ ((booted 0).1.setRg .BOOT_STAT_PHASE 2).fwError ((booted 0).1.setRg .BOOT_STAT_PHASE 2).norFirmware = 0
    ∧ ((booted 0).1.setRg .BOOT_STAT_PHASE 2).rg .BOOT_STAT_WDOGS < 3 := by and_intros <;> decide +kernel

def sled0 : SledInfo := SledInfo.mk []

def booting (phase : Nat) : Dev := node (st 
    (((((inPower 2).setRg .BOOT_STAT_PHASE phase).setRg .SLED_STAT_STATE 1 3).setRg .SLED_STAT_STATE 1 2).setSeq 2 7)) 0

def recovering : Dev := node (st ((inPower 7).setRg .BOOT_STAT_PHASE 8 |>.setRg .RCV_LEN_BYTES 384)) 0

def storing : Dev := node (st { inPower 2 with rcv := some { dma := 0, addr := 0, len := 384, store := true, writing := true } }) 0

theorem wit_BootEventsComplete : (node (st (inPower 0)) 0).power = 0 ∧ (booting 4).coreOn = true ∧ (booting 4).sledState 3 = 1
    ∧ ((booting 4).discovered 3 sled0).seqOf 3 ≠ 7 ∧ (booting 4).sledState 2 = 1 ∧ ((booting 4).discovered 2 sled0).seqOf 2 = 7
    ∧ (booting 4).power = 2 ∧ (booting 4).rg .BOOT_STAT_PHASE = 4 ∧ (booting 5).rg .BOOT_STAT_PHASE = 5 ∧ (booting 6).rg .BOOT_STAT_PHASE = 6
    ∧ ({ booting 6 with ld := { busy := true } } : Dev).ld.busy = true ∧ recovering.power = 7 ∧ recovering.rg .BOOT_STAT_PHASE = 8
    ∧ bit 3 0 = true ∧ recovering.rg .RCV_LEN_BYTES ≠ 0 ∧ storing.mgmtOn = true
    ∧ storing.rcv = some { dma := 0, addr := 0, len := 384, store := true, writing := true } ∧ storing.power ≠ 7 := by
  and_intros <;> decide +kernel

def low : Dev := node (st ((active.setRg .FTL_SUPPLY_NVLOW 1).setRg .FTL_SUPPLY_HOLDLOW 1)) 0

def flushing : Dev := node (st { inPower 5 with fl := { flushes := some { seq := 1, te := 0, cause := 1, step := 6, endWhole := true } } }) 0

theorem wit_SupplyEventsComplete : (node (st active) 0).mgmtOn = true
    ∧ (node (st active) 0).rg .FTL_VTHR_NVBAR * 10 - 1 < (node (st active) 0).rg .FTL_VTHR_NVBAR * 10 ∧ (node (st active) 0).rg .FTL_SUPPLY_NVLOW = 0
    ∧ low.mgmtOn = true ∧ (low.rg .FTL_VTHR_NVBAR + 2) * 10 ≤ 1000 ∧ low.rg .FTL_SUPPLY_NVLOW = 1 ∧ low.rg .FTL_VTHR_FLOOR * 10 ≤ 1000
    ∧ 0 < low.rg .FTL_VTHR_FLOOR * 10 ∧ low.fl.flushes = none ∧ (node (st active) 0).power = 4 ∧ (node (st (inPower 7)) 0).power = 7
    ∧ (node (st (inPower 7)) 0).mgmtOn = true ∧ flushing.mgmtOn = true ∧ flushing.power = 5
    ∧ flushing.fl.flushes = some { seq := 1, te := 0, cause := 1, step := 6, endWhole := true }
    ∧ (flushing.fl.ops.filter fun p => p.2.why == some .endRecord) = [] ∧ flushing.flushBusy = false
    ∧ (node (st { inPower 5 with fl := { flushes := some { seq := 1, te := 0, cause := 1, floor := true } } }) 0).fl.ops = []
    ∧ (((node (st active) 0).setRg .FTL_SUPPLY_NVLOW 1).bump .FTL_NVENTRY_COUNT).coreOn = true
    ∧ (((node (st (inPower 5)) 0).setRg .FTL_SUPPLY_NVLOW 1).bump .FTL_NVENTRY_COUNT).coreOn = false := by and_intros <;> decide

/-! ### The panel, the management port, JTAG, measurement -/

/-- Slot 3 in its abort window, slot 2 empty, slot 1 powered, slot 0 locked and off for 100 ms. -/
def paneled (now : Nat) : Dev := node (st 
    { (((((active.setSeq 3 1).setRg .PANEL_CFG_LOCK 1).setRg .PANEL_SLED_PRSNT 1 0 1).setRg .PANEL_SLED_PWREN 1 0 1).setRg .PANEL_SLED_PRSNT 1 0 0)
      with panel := [(0, { offAt := some 0 })] }) now

theorem wit_PanelEventsComplete : (node (st listed) 0).portsOn = true ∧ (node (st listed) 0).blockOpen 0x65 0 = true
    ∧ (paneled 0).portsOn = true ∧ (paneled 0).blockOpen 0x65 0 = false ∧ (paneled 0).coreOn = true ∧ (∀ n ∈ maskSlots 7, (paneled 0).inWindow n = false) ∧ maskSlots 8 = [3]
    ∧ (paneled 0).inWindow 3 = true ∧ bit (((paneled 0).setRg .PANEL_PRESS_TIME (paneled 0).now 0 0).rg .PANEL_CFG_LOCK) 0 = true
    ∧ bit (((paneled 0).setRg .PANEL_PRESS_TIME (paneled 0).now 0 3).rg .PANEL_CFG_LOCK) 3 = false ∧ (paneled 0).mgmtOn = true
    ∧ (paneled 0).powered 2 = false ∧ (paneled 0).mayPower 2 = true ∧ (paneled 0).sledPresent 1 = true ∧ (paneled 0).seqOf 1 ≠ 5
    ∧ ((paneled 0).setSeq 1 5).sledPresent 1 = true ∧ ((paneled 0).setSeq 1 5).seqOf 1 = 5
    ∧ (paneled abortWindow).seqOf 3 = 1 ∧ ((paneled abortWindow).slot 3).stopped = false
    ∧ ((paneled abortWindow).slot 3).tp + abortWindow ≤ (paneled abortWindow).now ∧ ((paneled powerOffTime).slot 0).offAt = some 0
    ∧ 0 + powerOffTime ≤ (paneled powerOffTime).now ∧ (paneled powerOffTime).sledPresent 0 = true := by and_intros <;> decide

theorem wit_PanelEventsComplete_cancel : (node (st ((listed.setSeq 3 1).setSeq 0 1)) 0).blockOpen 0x65 0 = true
    ∧ (node (st (listed.setSeq 3 1)) 0).inWindow 3 = true ∧ (∀ n ∈ maskSlots 7, (node (st (listed.setSeq 3 1)) 0).inWindow n = false)
    ∧ (node (st (listed.setSeq 3 1)) 0).portsOn = true := by and_intros <;> decide

theorem wit_ManagementPortAnswers : (node (st (inPower 2)) 0).mgmtOn = true ∧ 1 ≤ 254 := by decide

theorem wit_JtagCommandsComplete : (node (st active) 0).thermTrip = false ∧ (node (st active) 0).power ≠ 0 := by decide

def quoting : Dev := node (st { bound with reqs := [(4, running 0x68)], quotes := [4, 5] }) 0

theorem wit_QuotesAndFuseWritesComplete : quoting.coreOn = true ∧ quoting.quotes = [4, 5] ∧ Tab.find quoting.reqs 4 = some (running 0x68)
    ∧ (running 0x68).ended = false ∧ (node { burning with pending := [] } 0).fuseBusy = true ∧ (node { burning with pending := [] } 0).coreOn = false
    ∧ ((node { burning with pending := [] } 0).keyJobs.map (·.1)) = [0] ∧ (node { burning with pending := [] } 0).keyJobs.length = 1 := by
  and_intros <;> decide

/-! ### The shared operations -/

theorem wit_EpochsCompareModuloTheirWidth : 1 ≤ 1 ∧ ((5 : Int) - 5) % 2 ^ 16 = 0 ∧ ((0x8000 : Int) - 0) % 2 ^ 16 = 2 ^ (16 - 1) := by decide

theorem wit_TheLowestFailureIsReported : ST_FENCED ∈ [ST_FENCED, ST_BUDGET_EXHAUSTED] ∧ ST_FENCED ≠ ST_OK ∧ ST_FENCED ≠ ST_DEFERRED
    ∧ ST_FENCED ≠ ST_BUDGET_EXHAUSTED ∧ ST_FENCED ≠ ST_INTERNAL ∧ ST_INTERNAL ∈ [ST_OK, ST_INTERNAL]
    ∧ (∀ c, c ∈ [ST_OK, ST_INTERNAL] → c = ST_OK ∨ c = ST_DEFERRED ∨ c = ST_BUDGET_EXHAUSTED ∨ c = ST_INTERNAL)
    ∧ ST_INTERNAL ∉ [ST_BUDGET_EXHAUSTED] ∧ ST_BUDGET_EXHAUSTED ∈ [ST_BUDGET_EXHAUSTED] ∧ ST_INTERNAL ∉ ([] : List Nat) := by decide

/-- A VF's window whose FIFO is full. -/
def crowded : Dev := { bound with wins := [(0, { fifo := List.range 256 })] }

theorem wit_LandingTakesOrRefuses : (!(active.ring (ringKey 0 0)).en && !(active.ring (ringKey 0 0)).en) = true
    ∧ crowded.landFails 0 (desc 0x10) = [ST_NO_CREDIT] ∧ decide (256 ≤ (crowded.win 0).fifo.length) = true
    ∧ bound.landFails 0 (desc 0x10) = [] ∧ (!(bound.ring (ringKey 0 (u8 (desc 0x10) 1 % 8))).en && !(bound.ring (ringKey 0 0)).en) = false := by
  and_intros <;> decide +kernel

theorem wit_CompletionEntriesFollowTheirTable : waitingCpl.result < 2 ^ 128 ∧ waitingCpl.tag < 2 ^ 32 ∧ waitingCpl.status < 256 ∧ 255 < 256
    ∧ 65535 < 65536 ∧ waitingCpl.credits ≤ 256 ∧ waitingCpl.gen < 65536 ∧ waitingCpl.opcode < 256 ∧ 1 < 2 ∧ 1 ≠ 0 := by and_intros <;> decide

theorem wit_BibErrorsHaveTheirRecords : srcClass SRC_CW_DMA = 1 ∧ SRC_CW_DMA ≤ 8 ∧ (bound.setRg .REF_CFG_NOTIFY 2).rg .REF_CFG_NOTIFY > 1
    ∧ Tab.find bound.recs (8 * 1023 + 4) = none ∧ Tab.find refereed.recs (8 * 0 + (SRC_CW_DMA - 1)) = some { rec0 with bib := some 0 }
    ∧ 1 ≤ rec0.cls ∧ 5 ≠ 8 * 0 + (SRC_CW_DMA - 1) := by and_intros <;> decide

theorem wit_RecordsAcrossResets : active.thermTrip = false ∧ active.power ≠ 0 ∧ 8192 ≤ 8192 ∧ 8191 / 8 ≠ 1022 := by decide

theorem wit_LandsShowTheirRegisters : 2 ≤ active.power ∧ 5 ≤ (active.setRg .REF_CFG_ERRCLASS 5).rg .REF_CFG_ERRCLASS ∧ (inPower 1).power = 1
    ∧ active.power = 4 ∧ (inPower 6).power = 6 := by decide

theorem wit_BibStatesFollowTheirTable : ([0, 1, 2, 3, 4].map fun n => (({ active with bibs := [(1023, { state := n })] } : Dev).bib 1023).state)
    = [0, 1, 2, 3, 4] := by decide

/-- A list of two with one entry. -/
def plist0 : PList := { owner := .merge 0, part := 0, k := 2, mode := 0, merge := false, ents := [PEnt.mk 5 1 0 0] }

theorem wit_OffersKeepListsInForm : ListOk plist0 ∧ (({ plist0 with k := 1 } : PList).offer (PEnt.mk 6 2 0 0)).2 = .cut
    ∧ plist0.ents.length < plist0.k ∧ (∀ x ∈ plist0.ents, x.idx ≠ 2) := by
  refine ⟨⟨?_, ?_, ?_⟩, ?_, ?_, ?_⟩ <;> decide

theorem wit_NorSlotsHoldWhatIsStored : [0#8].length ≤ 0x1000000 ∧ Tab.wf 0xFF#8 active.nor = true ∧ 0 < [0#8].length ∧ [0#8].length ≤ 1
    ∧ 0xFFFFFF < 0x1000000 ∧ (0xFFFFFF < norCi ∨ norCi + 0x1000000 ≤ 0xFFFFFF) := by decide

end Sys2Proof.Tests
end

/-!
PROOFS. What the chapter on scope says of bits, epochs, status codes and register fields (R10, R11, R15 to R17, R20).
-/
namespace Sys2Proof

/-! ## Bits and bytes -/

theorem bit_eq_testBit (v n : Nat) : bit v n = v.testBit n := by
  simp [bit, bits, Nat.testBit_eq_decide_div_mod_eq]

theorem length_fit (n : Nat) (b : Bytes) : (fit n b).length = n := by
  simp only [fit, fill, List.length_append, List.length_take, List.length_replicate]
  omega

theorem fit_of_length {n : Nat} {b : Bytes} (h : b.length = n) : fit n b = b := by
  simp [fit, fill, ← h]

/-- A string that has been cut or filled to a length is not cut or filled again. -/
@[simp] theorem fit_fit (n : Nat) (b : Bytes) : fit n (fit n b) = fit n b := fit_of_length (length_fit n b)

/-- The n low bytes of a number do not depend on what stands above them. -/
theorem le_mod (n v : Nat) : le n (v % 2 ^ (8 * n)) = le n v := by
  induction n generalizing v with
  | zero => rfl
  | succ n ih =>
    have hpow : 2 ^ (8 * (n + 1)) = 256 * 2 ^ (8 * n) := by rw [Nat.mul_succ, Nat.pow_add]; omega
    have hlow : BitVec.ofNat 8 (v % 2 ^ (8 * (n + 1))) = BitVec.ofNat 8 v :=
      BitVec.eq_of_toNat_eq (by simp [hpow])
    have hhigh : v % 2 ^ (8 * (n + 1)) / 256 = v / 256 % 2 ^ (8 * n) := by rw [hpow, Nat.mod_mul_right_div_self]
    simp only [le, hlow, hhigh, ih]

/-! ## Epochs and generations (R11) -/

/-- The distance that `newer` takes between two n-bit values is their difference modulo 2^n. -/
theorem epochGap_eq_sub_emod (n a b : Nat) :
    (((a + 2 ^ n - b % 2 ^ n) % 2 ^ n : Nat) : Int) = ((a : Int) - b) % 2 ^ n := by
  have hb : b % 2 ^ n ≤ a + 2 ^ n := 
    Nat.le_trans (Nat.le_of_lt (Nat.mod_lt b (Nat.two_pow_pos n))) (Nat.le_add_left _ _)
  have hswap (x y z : Int) : x + y - z = x - z + y := by omega
  rw [Int.natCast_emod, Int.natCast_sub hb, Int.natCast_add, Int.natCast_emod, hswap, Int.natCast_pow]
  exact (Int.add_emod_right _ _).trans (Int.sub_emod_emod _ _ _)

theorem newer_iff (n a b : Nat) :
    newer n a b = true ↔ 1 ≤ ((a : Int) - b) % 2 ^ n ∧ ((a : Int) - b) % 2 ^ n < 2 ^ (n - 1) := by
  rw [← epochGap_eq_sub_emod, newer, Bool.and_eq_true, decide_eq_true_iff, decide_eq_true_iff]
  norm_cast

theorem mod_eq_iff_sub_emod_eq_zero (n a b : Nat) : a % 2 ^ n = b % 2 ^ n ↔ ((a : Int) - b) % 2 ^ n = 0 := by
  rw [← Int.emod_eq_emod_iff_emod_sub_eq_zero]
  norm_cast

/-- Of values half the range apart each is as far from the other. -/
theorem half_range_apart_symm {n a b : Nat} (hn : 1 ≤ n) (h : ((a : Int) - b) % 2 ^ n = 2 ^ (n - 1)) :
    ((b : Int) - a) % 2 ^ n = 2 ^ (n - 1) := by
  have hhalf : (0 : Int) < 2 ^ (n - 1) := Int.pow_pos (by decide)
  have hrange : (2 : Int) ^ n = 2 ^ (n - 1) * 2 := by rw [← Int.pow_succ, Nat.succ_eq_add_one, Nat.sub_add_cancel hn]
  have hdvd : ¬ (2 : Int) ^ n ∣ (a : Int) - b := fun hd => by
    rw [Int.emod_eq_zero_of_dvd hd] at h
    omega
  rw [← Int.neg_sub, Int.neg_emod, if_neg hdvd, h, Int.natAbs_of_nonneg (Int.pow_nonneg (by decide))]
  omega

theorem newer_eq_false_of_half_range {n a b : Nat} (h : ((a : Int) - b) % 2 ^ n = 2 ^ (n - 1)) :
    newer n a b = false := by
  rw [Bool.eq_false_iff, Ne, newer_iff, h]
  exact fun hlt => Int.lt_irrefl _ hlt.2

theorem newer_eq_false_of_equal {n a b : Nat} (h : ((a : Int) - b) % 2 ^ n = 0) : newer n a b = false := by
  rw [Bool.eq_false_iff, Ne, newer_iff, h]
  omega

/-- Settles O50: every clause reads the difference modulo 2^n off `newer_iff`. -/
theorem epochsCompareModuloTheirWidth : Obligations.EpochsCompareModuloTheirWidth := by
  unfold Obligations.EpochsCompareModuloTheirWidth
  intro n a b hn
  refine ⟨?_, mod_eq_iff_sub_emod_eq_zero n a b, fun hequal => ?_, fun hhalf => ?_⟩
  · rw [newer_iff]
    exact and_congr_right fun _ => Int.le_sub_one_iff.symm
  · have hmod := (mod_eq_iff_sub_emod_eq_zero n a b).mpr hequal
    exact ⟨newer_eq_false_of_equal hequal, by simp [stale, hmod]⟩
  · have hnew := newer_eq_false_of_half_range hhalf
    have hne : a % 2 ^ n ≠ b % 2 ^ n := fun hmod => by
      rw [(mod_eq_iff_sub_emod_eq_zero n a b).mp hmod] at hhalf
      exact absurd hhalf (Int.ne_of_lt (Int.pow_pos (by decide)))
    exact ⟨hnew, newer_eq_false_of_half_range (half_range_apart_symm hn hhalf), by simp [stale, hne, hnew]⟩

namespace Machine

/-! ## Status codes (R20) -/

/-- A failure code other than the two that R20 reports last. -/
def plainFailure (c : Nat) : Bool := c != ST_OK && c != ST_DEFERRED && c != ST_BUDGET_EXHAUSTED && c != ST_INTERNAL

theorem plainFailure_iff (c : Nat) :
    plainFailure c = true ↔ c ≠ ST_OK ∧ c ≠ ST_DEFERRED ∧ c ≠ ST_BUDGET_EXHAUSTED ∧ c ≠ ST_INTERNAL := by
  simp [plainFailure, and_assoc]

theorem plainFailure_eq_false_iff (c : Nat) :
    plainFailure c = false ↔ c = ST_OK ∨ c = ST_DEFERRED ∨ c = ST_BUDGET_EXHAUSTED ∨ c = ST_INTERNAL := by
  rw [Bool.eq_false_iff, Ne, plainFailure_iff]
  omega

/-- Where a plain failure was met, the least of them is reported. -/
theorem pickStatus_of_plainFailure {met : List Nat} {c : Nat} (ok : Nat) (hc : c ∈ met) (hf : plainFailure c = true) :
    pickStatus met ok ∈ met ∧ plainFailure (pickStatus met ok) = true ∧ pickStatus met ok ≤ c := by
  have hmem : c ∈ met.filter plainFailure := List.mem_filter.mpr ⟨hc, hf⟩
  have hmin : (met.filter plainFailure).min? = some (pickStatus met ok) := by
    cases hl : met.filter plainFailure with
    | nil => simp [hl] at hmem
    | cons a r =>
      have hpick : pickStatus met ok = r.foldl min a := by
        unfold plainFailure at hl
        simp only [pickStatus, hl]
      rw [hpick, List.min?_cons']
  obtain ⟨hin, hle⟩ := List.min?_eq_some_iff.mp hmin
  obtain ⟨hmet, hplain⟩ := List.mem_filter.mp hin
  exact ⟨hmet, hplain, hle c hmem⟩

/-- Where none was met, the two last failures are looked for, and then the status of success stands. -/
theorem pickStatus_of_no_plainFailure {met : List Nat} (ok : Nat) (h : ∀ c ∈ met, plainFailure c = false) :
    pickStatus met ok = if ST_INTERNAL ∈ met then ST_INTERNAL
      else if ST_BUDGET_EXHAUSTED ∈ met then ST_BUDGET_EXHAUSTED else ok := by
  have hl : met.filter plainFailure = [] := List.filter_eq_nil_iff.mpr fun c hc => by simp [h c hc]
  unfold plainFailure at hl
  simp only [pickStatus, hl, List.contains_iff_mem]

/-- Settles O52: with a plain failure the least is reported, without one the cases of `pickStatus_of_no_plainFailure`. -/
theorem theLowestFailureIsReported : Obligations.TheLowestFailureIsReported := by
  unfold Obligations.TheLowestFailureIsReported
  intro met ok
  refine ⟨fun c hc hok hdef hbud hint => ?_, fun hnone => ?_⟩
  · obtain ⟨hmet, hplain, hle⟩ :=
      pickStatus_of_plainFailure ok hc ((plainFailure_iff c).mpr ⟨hok, hdef, hbud, hint⟩)
    exact ⟨hmet, hle, (plainFailure_iff _).mp hplain⟩
  · rw [pickStatus_of_no_plainFailure ok fun c hc => (plainFailure_eq_false_iff c).mpr (hnone c hc)]
    exact ⟨fun hint => if_pos hint, fun hint hbud => by rw [if_neg hint, if_pos hbud],
      fun hint hbud => by rw [if_neg hint, if_neg hbud]⟩

/-! ## Register fields (R15 to R17) -/

section Fields
variable (d : Dev)

theorem Dev.rg_bump_other {f g : Fld} (n : Nat) {i j r q : Nat} (h : g.key j q ≠ f.key i r) :
    (d.bump f n i r).rg g j q = d.rg g j q := d.rg_setRg_other _ h

theorem Dev.setRg_frame (f : Fld) (v i r : Nat) : d.setRg f v i r = { d with regs := (d.setRg f v i r).regs } := rfl

theorem Dev.bump_frame (f : Fld) (n i r : Nat) : d.bump f n i r = { d with regs := (d.bump f n i r).regs } := rfl

/-- A field of a store with nothing listed reads its reset value. -/
theorem Dev.rg_of_regs_nil (h : d.regs = []) (f : Fld) (i r : Nat) : d.rg f i r = f.info.rst := by
  rw [Dev.rg, h, Tab.get, Tab.find, Option.getD_none]

variable (f : Fld) (i r v : Nat)

theorem Dev.writeField_rw (h : f.info.acc = .rw) :
    d.writeField f i r v = d.setRg f (bits v f.info.hi f.info.lo) i r := by
  simp only [Dev.writeField, h]

theorem Dev.writeField_rwl (h : f.info.acc = .rwl) :
    d.writeField f i r v = if d.imageLoaded then d else d.setRg f (bits v f.info.hi f.info.lo) i r := by
  simp only [Dev.writeField, h]

theorem Dev.writeField_w1c (h : f.info.acc = .w1c) :
    d.writeField f i r v = d.setRg f (d.rg f i r &&& ((f.top - 1) ^^^ bits v f.info.hi f.info.lo)) i r := by
  simp only [Dev.writeField, h]

theorem Dev.writeField_unwritable (h : f.info.acc = .ro ∨ f.info.acc = .rc ∨ f.info.acc = .wo) :
    d.writeField f i r v = d := by
  rcases h with h | h | h <;> simp only [Dev.writeField, h]

/-- Clearing by ones, bit by bit: within the field a bit stays where it was set and no 1 is written. -/
theorem bit_clearOnes_mod_top (held ones n : Nat) :
    bit ((held &&& ((f.top - 1) ^^^ ones)) % f.top) n = (bit held n && !bit ones n && decide (2 ^ n < f.top)) := by
  have hwidth : (2 ^ n < f.top) = (n < f.info.hi + 1 - f.info.lo) :=
    propext (Nat.pow_lt_pow_iff_right (by decide))
  simp only [bit_eq_testBit, hwidth]
  simp only [Fld.top, Nat.testBit_mod_two_pow, Nat.testBit_and, Nat.testBit_xor, Nat.testBit_two_pow_sub_one]
  by_cases hn : n < f.info.hi + 1 - f.info.lo <;> simp [hn]

end Fields

/-- Settles O7: at reset nothing is listed in any store. -/
theorem resetLeavesResetValues : Obligations.ResetLeavesResetValues := by
  unfold Obligations.ResetLeavesResetValues
  exact ⟨fun f i r => State.reset.dev.rg_of_regs_nil rfl f i r, rfl, rfl, rfl, rfl, rfl, fun _ => rfl, fun _ => rfl,
    fun _ => rfl, rfl, rfl, rfl⟩

/-- Settles O8, by the laws of the store of registers. -/
theorem fieldReadAfterWrite : Obligations.FieldReadAfterWrite := by
  unfold Obligations.FieldReadAfterWrite
  exact ⟨fun d f v i r => ⟨d.rg_setRg_self f v i r, fun _ _ _ h => d.rg_setRg_other v h, d.setRg_frame f v i r⟩,
    fun d f n i r => ⟨d.rg_bump_self f n i r, fun _ _ _ h => d.rg_bump_other n h, d.bump_frame f n i r⟩⟩

/-- Settles O9: one law per access type; a W1C field is then read bit by bit. -/
theorem fieldWriteFollowsAccessType : Obligations.FieldWriteFollowsAccessType := by
  unfold Obligations.FieldWriteFollowsAccessType
  intro d f i r v
  refine ⟨d.writeField_rw f i r v, fun h hload => ?_, fun h hload => ?_, fun h n => ?_, d.writeField_unwritable f i r v⟩
  · simp [d.writeField_rwl f i r v h, hload]
  · simp [d.writeField_rwl f i r v h, hload]
  · rw [d.writeField_w1c f i r v h, d.rg_setRg_self, bit_clearOnes_mod_top]

end Machine

end Sys2Proof

/-!
PROOFS. Register accesses through a port, and descriptors of undefined opcodes (R15, R25, R72, R76, R84, R91, R136, R145).
-/
namespace Sys2Proof.Machine

/-! ## A command's next state -/

/-- The RW fields of REF_CFG stored, as ERRCLASS_WRITE does in an open Referee block (R511). -/
def Dev.storeRefCfg (d : Dev) (v : Nat) : Dev :=
  ((d.setRg .REF_CFG_ERRCLASS (bits v 29 27)).setRg .REF_CFG_NOTIFY (bits v 26 24)).setRg .REF_CFG_VEC (bits v 23 22)

/-- The whole of ERRCLASS_WRITE: GRACE_US is stored too while no image is loaded (RWL). -/
def Dev.writeRefCfg (d : Dev) (v : Nat) : Dev :=
  if (d.storeRefCfg v).imageLoaded then d.storeRefCfg v else (d.storeRefCfg v).setRg .REF_CFG_GRACE_US (bits v 16 0)

section Commands
variable (s : State) (t : Nat)

theorem goes_registerWrite (port blk inst off size v : Nat) (h : (Spec.node s t).portsOn = true) :
    Spec.Goes (.registerWrite t port blk inst ⟨off, size⟩ v) s ((Spec.node s t).writeReg port blk inst off size v).pump :=
  State.act_pos s t Dev.portsOn (fun d => d.writeReg port blk inst off size v) h

theorem goes_rcRegisterRead (port blk inst off size hw : Nat) (h : (Spec.node s t).portsOn = true) :
    Spec.Goes (.rcRegisterRead t port blk inst ⟨off, size⟩ hw) s ((Spec.node s t).readReg port blk inst off size hw) :=
  State.runIf_pos s t Dev.portsOn (fun d => d.readReg port blk inst off size hw) h

/-- ERRCLASS_WRITE acts where the Referee's block answers. -/
theorem goes_errclassWrite (v : Nat) (h : (Spec.node s t).portsOn = true) :
    Spec.Goes (.errclassWrite t v) s ((Spec.node s t).onBlock 3 0 fun d => d.writeRefCfg v) :=
  State.runIf_pos s t Dev.portsOn (fun d => d.onBlock 3 0 fun d => d.writeRefCfg v) h

/-- An undefined opcode's descriptor is submitted as it is carried. -/
theorem goes_unknownOpcode (src : Src) (x : Bytes) (h : (Spec.node s t).coreOn = true) :
    Spec.Goes (.unknownOpcode t src x) s ((Spec.node s t).submit src (fit 64 x)) :=
  State.runIf_pos s t Dev.coreOn (fun d => d.submit src (fit 64 x)) h

end Commands

section Registers
variable {d : Dev} {port blk inst off size v hw : Nat}

/-! ## Writes (R15, R76, R91) -/

/-- A register without a behaviour of its own stores what is written. -/
theorem Dev.putReg1_ordinary (hout : outsideBlocks blk = false) (hadm : blk = 7 → 0x2010 ≤ off)
    (hrst : ¬(blk = 5 ∧ off = 0xC)) (hpanel : ¬(blk = 0x65 ∧ off = 4)) :
    d.putReg1 port blk inst off v = d.storeReg blk inst off v := by
  have hboot : blk ≠ 0x102 := by rintro rfl; simp [outsideBlocks] at hout
  have hbase : ¬(blk = 7 ∧ off = 0x2000) := fun h => by have := hadm h.1; omega
  have hcfg : ¬(blk = 7 ∧ off = 0x2008) := fun h => by have := hadm h.1; omega
  simp only [Dev.putReg1, Bool.and_eq_true, decide_eq_true_eq, if_neg hbase, if_neg hcfg, if_neg hrst, if_neg hpanel,
    if_neg hboot]

/-- A write of a register's own width writes it whole. -/
theorem Dev.putWord_whole (hfields : fieldsAt blk off ≠ []) (hsize : size = if reg64 (fieldsAt blk off) then 8 else 4) :
    d.putWord port blk inst off size v = d.putReg1 port blk inst off (v % 2 ^ (8 * size)) := by
  cases hwide : reg64 (fieldsAt blk off) <;> simp [Dev.putWord, Dev.putHalf, hsize, hwide, hfields]

/-- An aligned write of four or eight bytes to an open block reaches its registers. -/
theorem Dev.writeReg_open (hout : outsideBlocks blk = false) (hopen : d.blockOpen blk inst = true)
    (hadm : blk = 7 → 0x2000 ≤ off) (hsize : size = 4 ∨ size = 8) (halign : off % size = 0) :
    d.writeReg port blk inst off size v = d.putWord port blk inst off size v := by
  have hwin : ¬(blk = 7 ∧ off < 0x2000) := fun h => by have := hadm h.1; omega
  rcases hsize with rfl | rfl <;> simp [Dev.writeReg, hout, hopen, hwin, halign]

/-- R76, R91: a closed block, another size or an offset out of step makes an access a stray one. -/
theorem Dev.stray_condition (hstray : d.blockOpen blk inst = false ∨ ¬(size = 4 ∨ size = 8) ∨ off % size ≠ 0) :
    (!((decide (size = 4) || decide (size = 8)) && decide (off % size = 0)) || !d.blockOpen blk inst) = true := by
  simp only [Bool.or_eq_true, Bool.not_eq_true', Bool.and_eq_false_iff, Bool.or_eq_false_iff, decide_eq_false_iff_not]
  rcases hstray with hclosed | hsize | halign
  · exact .inr hclosed
  · exact .inl (.inl (not_or.mp hsize))
  · exact .inl (.inr halign)

theorem Dev.writeReg_stray (hout : outsideBlocks blk = false) (hadm : blk = 7 → 0x2000 ≤ off)
    (hstray : d.blockOpen blk inst = false ∨ ¬(size = 4 ∨ size = 8) ∨ off % size ≠ 0) :
    d.writeReg port blk inst off size v = d.bump .ID_STRAY_COUNT := by
  have hwin : ¬(blk = 7 ∧ off < 0x2000) := fun h => by have := hadm h.1; omega
  have hnowin : (decide (blk = 7) && decide (off < 0x2000) && d.blockOpen blk inst) = false := by
    rw [← Bool.decide_and, decide_eq_false hwin, Bool.false_and]
  simp only [Dev.writeReg, hout, hnowin, Dev.stray_condition hstray, Dev.strayAccess, Bool.false_eq_true, if_true, if_false]

/-! ## Reads (R15, R76, R91) -/

theorem Dev.readReg_stray (hout : outsideBlocks blk = false)
    (hstray : d.blockOpen blk inst = false ∨ ¬(size = 4 ∨ size = 8) ∨ off % size ≠ 0) :
    d.readReg port blk inst off size hw = (d.bump .ID_STRAY_COUNT).answerRead port (fill size 0) := by
  simp only [Dev.readReg, hout, Dev.stray_condition hstray, Dev.strayAccess, Bool.false_eq_true, if_true, if_false]

/-- Four bytes of the block space behind the windows are a register's. -/
theorem Dev.word4_register (hout : outsideBlocks blk = false) (hadm : blk = 7 → 0x2000 ≤ off) :
    d.word4 port blk inst off = d.regHalf port blk inst off := by
  have hwin : ¬(blk = 7 ∧ off < 0x2000) := fun h => by have := hadm h.1; omega
  simp only [outsideBlocks, Bool.or_eq_false_iff, decide_eq_false_iff_not] at hout
  obtain ⟨⟨hvf, hboot⟩, hmsix⟩ := hout
  simp only [Dev.word4, if_neg hvf, if_neg hmsix, if_neg hboot, Bool.and_eq_true, decide_eq_true_eq, if_neg hwin]

theorem Dev.regHalf_low (hmap : blk = 0x31 → off < 0x40 ∨ 0x80 ≤ off) (hfields : fieldsAt blk off ≠ []) :
    d.regHalf port blk inst off = d.regValue port (fieldsAt blk off) inst % 2 ^ 32 := by
  have hbytes : ¬((blk = 0x31 ∧ 0x40 ≤ off) ∧ off < 0x80) := fun h => by have := hmap h.1.1; omega
  simp only [Dev.regHalf, Bool.and_eq_true, decide_eq_true_eq, if_neg hbytes, bne_iff_ne, if_pos hfields]

theorem Dev.regHalf_high (hmap : blk = 0x31 → off + 4 < 0x40 ∨ 0x80 ≤ off + 4) (hnone : fieldsAt blk (off + 4) = [])
    (hwide : reg64 (fieldsAt blk off) = true) :
    d.regHalf port blk inst (off + 4) = d.regValue port (fieldsAt blk off) inst / 2 ^ 32 := by
  have hbytes : ¬((blk = 0x31 ∧ 0x40 ≤ off + 4) ∧ off + 4 < 0x80) := fun h => by have := hmap h.1.1; omega
  simp only [Dev.regHalf, Bool.and_eq_true, decide_eq_true_eq, if_neg hbytes]
  simp [hnone, hwide]

/-- A 32-bit register of an open block is read whole by four bytes. -/
theorem Dev.readReg_four (hout : outsideBlocks blk = false) (hopen : d.blockOpen blk inst = true)
    (hadm : blk = 7 → 0x2000 ≤ off) (hmap : blk = 0x31 → off < 0x40 ∨ 0x80 ≤ off) (hfields : fieldsAt blk off ≠ [])
    (halign : off % 4 = 0) :
    d.readReg port blk inst off 4 hw
      = (d.clearRc (fieldsAt blk off) inst hw).answerRead port (le 4 (d.regValue port (fieldsAt blk off) inst)) := by
  have hword := (Dev.word4_register (d := d) (port := port) (inst := inst) hout hadm).trans (Dev.regHalf_low hmap hfields)
  rw [← le_mod 4 (d.regValue port (fieldsAt blk off) inst)]
  simp [Dev.readReg, hout, hopen, halign, hword]

/-- A 64-bit register of an open block is read whole by eight bytes. -/
theorem Dev.readReg_eight (hout : outsideBlocks blk = false) (hopen : d.blockOpen blk inst = true)
    (hadm : blk = 7 → 0x2000 ≤ off) (hmap : blk = 0x31 → off < 0x40 ∨ 0x80 ≤ off) (hfields : fieldsAt blk off ≠ [])
    (halign : off % 8 = 0) (hwide : reg64 (fieldsAt blk off) = true) (hnone : fieldsAt blk (off + 4) = []) :
    d.readReg port blk inst off 8 hw
      = (d.clearRc (fieldsAt blk off) inst hw).answerRead port (le 8 (d.regValue port (fieldsAt blk off) inst)) := by
  have hvalue : d.word4 port blk inst off + d.word4 port blk inst (off + 4) * 2 ^ 32
      = d.regValue port (fieldsAt blk off) inst := by
    rw [Dev.word4_register hout hadm, Dev.word4_register hout (by omega), Dev.regHalf_low hmap hfields,
      Dev.regHalf_high (by omega) hnone hwide, Nat.mod_add_div']
  have hrest (e : Dev) : e.clearRc [] inst 0 = e := rfl
  simp only [Dev.readReg, hout, hopen, halign, hvalue, hnone, hrest, decide_true, Bool.or_true, Bool.and_true,
    Bool.not_true, Bool.or_false, Bool.false_eq_true, if_true, if_false]

/-! ## ERRCLASS_WRITE -/

theorem Dev.imageLoaded_setRg {f : Fld} (hne : .CI_LOADS_COUNT ≠ f) (v i r : Nat) :
    (d.setRg f v i r).imageLoaded = d.imageLoaded := by
  simp only [Dev.imageLoaded, d.rg_setRg_ne hne]

/-- The RW fields of REF_CFG do not say whether an image is loaded. -/
theorem Dev.imageLoaded_storeRefCfg : (d.storeRefCfg v).imageLoaded = d.imageLoaded := by
  rw [Dev.storeRefCfg, Dev.imageLoaded_setRg (by decide), Dev.imageLoaded_setRg (by decide),
    Dev.imageLoaded_setRg (by decide)]

end Registers

open Sys2Proof.Spec

/-- Settles O10: an access of a register's own width reaches it whole, any other is stray. -/
theorem registerAccessesComplete : Obligations.RegisterAccessesComplete := by
  unfold Obligations.RegisterAccessesComplete
  refine ⟨?_, ?_, ?_, ?_⟩
  · intro s t port blk inst off v size hports hout hopen hadm hrst hpanel hfields hsize halign
    have hwrite : (node s t).writeReg port blk inst off size v
        = (node s t).storeReg blk inst off (v % 2 ^ (8 * size)) := by
      rw [Dev.writeReg_open hout hopen (by omega) (by split at hsize <;> simp [hsize]) halign,
        Dev.putWord_whole hfields hsize, Dev.putReg1_ordinary hout hadm hrst hpanel]
    change Goes _ s ((node s t).storeReg blk inst off (v % 2 ^ (8 * size))).pump
    rw [← hwrite]
    exact goes_registerWrite s t port blk inst off size v hports
  · intro s t port blk inst off size hw hports hout hopen hadm hmap hfields hsize halign hnext
    have hgoes := goes_rcRegisterRead s t port blk inst off size hw hports
    cases hwide : reg64 (fieldsAt blk off) with
    | false =>
      obtain rfl : size = 4 := by simpa [hwide] using hsize
      rwa [Dev.readReg_four hout hopen hadm hmap hfields halign] at hgoes
    | true =>
      obtain rfl : size = 8 := by simpa [hwide] using hsize
      rwa [Dev.readReg_eight hout hopen hadm hmap hfields halign hwide (hnext rfl)] at hgoes
  · intro s t port blk inst off size v hports hout hadm hstray
    refine ⟨?_, fun hw => ?_⟩
    · rw [← Dev.writeReg_stray (port := port) (v := v) hout hadm hstray]
      exact goes_registerWrite s t port blk inst off size v hports
    · rw [← Dev.readReg_stray (port := port) (hw := hw) hout hstray]
      exact goes_rcRegisterRead s t port blk inst off size hw hports
  · intro s t v hports hopen
    have hgoes := goes_errclassWrite s t v hports
    rw [Dev.onBlock, if_pos hopen, Dev.writeRefCfg, Dev.imageLoaded_storeRefCfg] at hgoes
    exact ⟨fun hload => by rwa [if_pos hload] at hgoes, fun hload => by rwa [hload, if_neg Bool.false_ne_true] at hgoes⟩

/-! ## Descriptors of undefined opcodes (R25, R136, R145) -/

section Landing
variable {d : Dev} {k : Nat} {x : Bytes}

/-- The codes of landing are plain failures, and none is lower than ST_BAD_DESC. -/
theorem Dev.landFails_code {c : Nat} (hc : c ∈ d.landFails k x) : plainFailure c = true ∧ ST_BAD_DESC ≤ c := by
  simp only [Dev.landFails, List.mem_append, List.mem_ite_nil_right, List.mem_singleton] at hc
  rcases hc with ((⟨-, rfl⟩ | ⟨-, rfl⟩) | ⟨-, rfl⟩) | ⟨-, rfl⟩ <;> decide

theorem Dev.badDesc_mem_landFails (hop : definedOps.contains (u8 x 0) = false) : ST_BAD_DESC ∈ d.landFails k x := by
  simp only [Dev.landFails, hop]
  simp

/-- R20: of what an undefined opcode meets at landing, ST_BAD_DESC is reported. -/
theorem Dev.pickStatus_landFails_undefined (hop : definedOps.contains (u8 x 0) = false) :
    pickStatus (d.landFails k x) ST_OK = ST_BAD_DESC := by
  have hbad := d.badDesc_mem_landFails (k := k) hop
  obtain ⟨hmet, -, hle⟩ := pickStatus_of_plainFailure ST_OK hbad (Dev.landFails_code hbad).1
  exact Nat.le_antisymm hle (Dev.landFails_code hmet).2

/-- Only LOAD_IMAGE, CONTRACT_SET and BIB_BIND leave their outcome in a register. -/
theorem Dev.noteOutcome_undefined (hop : definedOps.contains (u8 x 0) = false) (st : Nat) : d.noteOutcome x st = d := by
  have hne (op : Nat) (hdef : definedOps.contains op = true) : u8 x 0 ≠ op := fun hcode => by
    rw [← hcode, hop] at hdef
    exact Bool.false_ne_true hdef
  unfold Dev.noteOutcome
  split <;> rename_i hcode
  · exact absurd hcode (hne 0x60 rfl)
  · exact absurd hcode (hne 0x61 rfl)
  · exact absurd hcode (hne 0x65 rfl)
  · rfl

/-- The completion of a descriptor whose opcode is undefined: its own TAG and OPCODE, RESULT 0 (R147). -/
def Dev.badOpcodeCpl (d : Dev) (k : Nat) (x : Bytes) : Cpl :=
  { win := k, bib := if winIsPf0 k then none else some (winBib k), ring := u8 x 1 % 8, tag := u32 x 4
    gen := if winIsPf0 k then 0 else (d.bib (winBib k)).gen, opcode := u8 x 0, irq := bit (u8 x 2) 0
    landed := d.now, status := ST_BAD_DESC, flags := 0, result := 0 }

/-- R145: a descriptor of an undefined opcode takes no slot; its credit returns and its completion is posted. -/
theorem Dev.landIn_undefined (hring : (d.ring (ringKey k (u8 x 1 % 8))).en = true)
    (hop : definedOps.contains (u8 x 0) = false) (hroom : (d.win k).fifo.length < 256) :
    d.landIn k x = ((d.setWin k ((d.win k).credit 1)).post (d.badOpcodeCpl k x), none) := by
  have hpick := d.pickStatus_landFails_undefined (k := k) hop
  cases hfails : d.landFails k x with
  | nil => exact absurd (d.badDesc_mem_landFails (k := k) hop) (by simp [hfails])
  | cons c cs =>
    rw [hfails] at hpick
    have hcode : ST_BAD_DESC ≠ ST_NO_CREDIT := by decide
    simp only [Dev.landIn, hfails, hpick, hring, hcode, Nat.not_le.mpr hroom, Dev.noteOutcome_undefined hop,
      Bool.not_true, Bool.false_and, Bool.false_eq_true, if_false]
    rfl

/-- R136: what lands in a window that takes it, and what follows. -/
theorem Dev.submit_of_landIn {e : Dev} {src : Src} (hcore : d.coreOn = true) (hwin : d.srcWin src = some k)
    (htakes : d.discards k = false) (hland : d.landIn k (fit 64 x) = (e, none)) : d.submit src x = e.pump := by
  simp [Dev.submit, Dev.land, hcore, hwin, htakes, hland, Dev.landed]

end Landing

/-- Settles O16: the descriptor is refused at landing, and of what it meets there ST_BAD_DESC is the lowest. -/
theorem undefinedOpcodesAreBadDescriptors : Obligations.UndefinedOpcodesAreBadDescriptors := by
  unfold Obligations.UndefinedOpcodesAreBadDescriptors
  intro s t k src x hcore hwin htakes hring hop hroom
  have hland := Dev.landIn_undefined hring hop hroom
  have hgoes := goes_unknownOpcode s t src x hcore
  rwa [Dev.submit_of_landIn hcore hwin htakes (by rw [fit_fit]; exact hland)] at hgoes

end Sys2Proof.Machine

/-!
PROOFS. Contexts that are freed and DMA reads that end (R33, R160).
-/
namespace Sys2Proof

theorem Tab.find_upd_self {α : Type} (t : Tab α) (n : Nat) (f : α → α) :
    Tab.find (Tab.upd t n f) n = (Tab.find t n).map f := by
  induction t with
  | nil => rfl
  | cons p r ih =>
    obtain ⟨k, w⟩ := p
    by_cases h : n = k <;> simp [Tab.upd, Tab.find, h, ih]

namespace Machine

variable {d : Dev} {m : Dma}

/-- A request that has been changed is what the change makes of it; one that is not there does not come to be. -/
theorem Dev.find_updReq_self (d : Dev) (r : Nat) (f : Req → Req) :
    Tab.find (d.updReq r f).reqs r = (Tab.find d.reqs r).map f := Tab.find_upd_self d.reqs r f

/-! ## Which read ends (R160, R545) -/

/-- R545: a read is the recovery load's in RECOVERY alone, where the other domains do not run. -/
theorem Dev.isRcvDma_of_coreOn (hcore : d.coreOn = true) (n : Nat) : d.isRcvDma n = false := by
  have hpower : d.power ≠ 7 := fun h => by simp [Dev.coreOn, h] at hcore
  unfold Dev.isRcvDma
  split
  · simp [hpower]
  · rfl

theorem Dev.dmaAny_of_sent {n : Nat} (hcore : d.coreOn = true) (hfind : Tab.find d.dmas n = some m) (hsent : m.sent = true)
    (res : DmaResult) : d.dmaAny n res = d.dmaDone n m res := by
  simp only [Dev.dmaAny, Dev.isRcvDma_of_coreOn hcore, hcore, hfind, hsent, Bool.false_eq_true, if_true, if_false]

/-! ## One read request of a buffer, and the last (R160) -/

theorem Dev.pieceDone_data (d : Dev) (n : Nat) (m : Dma) (b : Bytes) :
    d.pieceDone n m (.data b) = { d with
      dmas := Tab.del d.dmas n
      bufs := Tab.upd d.bufs m.buf fun y => Tab.ins y m.off (fit m.len b) } := rfl

theorem Dev.pieceDone_failed {res : DmaResult} {st : Nat} (hst : dmaStatus res = some st) (d : Dev) (n : Nat) (m : Dma) :
    d.pieceDone n m res = (({ d with dmas := Tab.del d.dmas n } : Dev).reportDma m).addFail m.req st := by
  simp only [Dev.pieceDone, hst]

/-- While another read request of the buffer runs, the buffer waits. -/
theorem Dev.dmaDone_more {n : Nat} {res : DmaResult}
    (hmore : ((d.pieceDone n m res).dmas.any fun p => p.2.buf == m.buf) = true) :
    d.dmaDone n m res = d.pieceDone n m res := if_pos hmore

theorem Dev.dmaDone_last {n : Nat} {res : DmaResult}
    (hlast : ((d.pieceDone n m res).dmas.any fun p => p.2.buf == m.buf) = false) :
    d.dmaDone n m res = (d.pieceDone n m res).bufDone m := if_neg (Bool.eq_false_iff.mp hlast)

/-! ## The request takes the buffer (R160) -/

/-- A node without the buffer of a read, its request waiting for one buffer less. -/
def Dev.dropBuf (d : Dev) (m : Dma) : Dev :=
  ({ d with bufs := Tab.del d.bufs m.buf } : Dev).updReq m.req fun q => { q with dmas := q.dmas - 1 }

theorem Dev.find_dropBuf (d : Dev) (m : Dma) :
    Tab.find (d.dropBuf m).reqs m.req = (Tab.find d.reqs m.req).map fun q => { q with dmas := q.dmas - 1 } :=
  Dev.find_updReq_self _ _ _

theorem Dev.bufDone_gone (hgone : Tab.find (d.dropBuf m).reqs m.req = none) : d.bufDone m = d.dropBuf m := by
  rw [Dev.dropBuf] at hgone ⊢
  simp only [Dev.bufDone, hgone]

theorem Dev.bufDone_idle {q : Req} (hfind : Tab.find (d.dropBuf m).reqs m.req = some q) (hidle : q.live = false) :
    d.bufDone m = d.dropBuf m := by
  rw [Dev.dropBuf] at hfind ⊢
  simp only [Dev.bufDone, hfind, hidle, Bool.false_eq_true, if_false]

theorem Dev.bufDone_live {q : Req} (hfind : Tab.find (d.dropBuf m).reqs m.req = some q) (hlive : q.live = true) :
    d.bufDone m = (d.dropBuf m).reqData m.req q m.slot (Tab.vals ((Tab.find d.bufs m.buf).getD [])).flatten := by
  rw [Dev.dropBuf] at hfind ⊢
  simp only [Dev.bufDone, hfind, hlive, if_true]

/-! ## The two commands -/

section Commands
variable {s : State} {t : Nat}

theorem goes_contextFree {r : Nat} {q : Req} (hcore : (Spec.node s t).coreOn = true)
    (hfind : Tab.find (Spec.node s t).reqs r = some q) (hended : q.ended = true)
    (hout : (Spec.node s t).outstanding r = false) :
    Spec.Goes (.contextFree t r) s ({ Spec.node s t with reqs := Tab.del (Spec.node s t).reqs r } : Dev).pump := by
  have hfree : (q.ended && !(Spec.node s t).outstanding r) = true := by rw [hended, hout]; rfl
  change execContextFree t r s = _
  rw [execContextFree, State.act_pos _ _ _ _ hcore]
  simp only [hfind, hfree, if_true]

theorem goes_dmaReadDone {n : Nat} (hcore : (Spec.node s t).coreOn = true) (hmgmt : (Spec.node s t).mgmtOn = true)
    (hfind : Tab.find (Spec.node s t).dmas n = some m) (hsent : m.sent = true) (res : DmaResult) :
    Spec.Goes (.dmaReadDone t n res) s ((Spec.node s t).dmaDone n m res).pump := by
  rw [← Dev.dmaAny_of_sent hcore hfind hsent]
  exact State.act_pos s t Dev.mgmtOn (fun d => d.dmaAny n res) hmgmt

end Commands

open Sys2Proof.Spec

/-- Settles O38: a read request leaves its piece or its failure, and with the last of its buffer comes what the request does. -/
theorem contextsAndReadsComplete : Obligations.ContextsAndReadsComplete := by
  unfold Obligations.ContextsAndReadsComplete
  intro s t hcore hmgmt
  refine ⟨fun r q => goes_contextFree hcore, fun n m b hfind hsent e he => ?_, fun n m res st hfind hsent hst e he => ?_⟩
  · have hgoes := goes_dmaReadDone hcore hmgmt hfind hsent (.data b)
    rw [← Dev.pieceDone_data] at he
    subst he
    refine ⟨fun hmore => ?_, fun q hlast hq hlive => ?_⟩
    · rwa [Dev.dmaDone_more hmore] at hgoes
    · have hq' := (Dev.find_dropBuf _ m).trans (congrArg (Option.map _) hq)
      rwa [Dev.dmaDone_last hlast, Dev.bufDone_live hq' hlive] at hgoes
  · have hgoes := goes_dmaReadDone hcore hmgmt hfind hsent res
    rw [← Dev.pieceDone_failed hst] at he
    subst he
    refine ⟨fun hmore => ?_, fun hlast f hf => ?_⟩
    · rwa [Dev.dmaDone_more hmore] at hgoes
    · change f = Dev.dropBuf _ m at hf
      subst hf
      rw [Dev.dmaDone_last hlast] at hgoes
      refine ⟨fun hgone => ?_, fun q hq hidle => ?_, fun q hq hlive => ?_⟩
      · rwa [Dev.bufDone_gone hgone] at hgoes
      · rwa [Dev.bufDone_idle hq hidle] at hgoes
      · rwa [Dev.bufDone_live hq hlive] at hgoes

end Machine

end Sys2Proof

/-!
PROOFS. The NOR slots and the loader (R62 to R67, R540).
-/
namespace Sys2Proof

/-! ## Ranges of a store -/

section Ranges
variable {α : Type}

/-- A number that a test on numbers rejects is not found among the entries that pass it. -/
theorem Tab.find_filter_rejected (t : Tab α) {p : Nat → Bool} {n : Nat} (h : p n = false) :
    Tab.find (t.filter fun e => p e.1) n = none := by
  induction t with
  | nil => rfl
  | cons e r ih =>
    obtain ⟨k, v⟩ := e
    rw [List.filter_cons]
    split
    case isTrue hk =>
      have hne : n ≠ k := by rintro rfl; exact Bool.false_ne_true (h.symm.trans hk)
      rw [Tab.find, if_neg hne, ih]
    case isFalse => exact ih

/-- A number that the test passes is found as before. -/
theorem Tab.find_filter_passed (t : Tab α) {p : Nat → Bool} {n : Nat} (h : p n = true) :
    Tab.find (t.filter fun e => p e.1) n = Tab.find t n := by
  induction t with
  | nil => rfl
  | cons e r ih =>
    obtain ⟨k, v⟩ := e
    rw [List.filter_cons]
    split
    case isTrue => rw [Tab.find, Tab.find, ih]
    case isFalse hk =>
      have hne : n ≠ k := by rintro rfl; exact hk h
      rw [Tab.find, if_neg hne, ih]

theorem Tab.get_clearRange_inside (d : α) (t : Tab α) {lo hi n : Nat} (hlo : lo ≤ n) (hhi : n < hi) :
    Tab.get d (Tab.clearRange t lo hi) n = d := by
  have hnone : Tab.find (Tab.clearRange t lo hi) n = none :=
    Tab.find_filter_rejected t (p := fun k => !(lo ≤ k && k < hi)) (by simp [hlo, hhi])
  rw [Tab.get, hnone, Option.getD_none]

theorem Tab.get_clearRange_outside (d : α) (t : Tab α) {lo hi n : Nat} (h : n < lo ∨ hi ≤ n) :
    Tab.get d (Tab.clearRange t lo hi) n = Tab.get d t n := by
  have hsame : Tab.find (Tab.clearRange t lo hi) n = Tab.find t n :=
    Tab.find_filter_passed t (p := fun k => !(lo ≤ k && k < hi)) (by simp; omega)
  rw [Tab.get, hsame, Tab.get]

variable [DecidableEq α]

theorem Tab.get_putRun_outside (d : α) (l : List α) (t : Tab α) {a n : Nat} (h : n < a ∨ a + l.length ≤ n) :
    Tab.get d (Tab.putRun d t a l) n = Tab.get d t n := by
  induction l generalizing t a with
  | nil => rfl
  | cons v r ih =>
    rw [List.length_cons] at h
    rw [Tab.putRun, ih _ (by omega), Tab.get_put_other d t v (by omega)]

theorem Tab.get_putRun_inside (d : α) (l : List α) (t : Tab α) (a i : Nat) (h : i < l.length) :
    Tab.get d (Tab.putRun d t a l) (a + i) = l[i] := by
  induction l generalizing t a i with
  | nil => exact absurd h (Nat.not_lt_zero i)
  | cons v r ih =>
    cases i with
    | zero =>
      rw [Tab.putRun, Tab.get_putRun_outside d r _ (by omega)]
      exact Tab.get_put_self d t a v
    | succ i =>
      have hnext : a + (i + 1) = a + 1 + i := by omega
      rw [Tab.putRun, hnext]
      exact ih _ _ i (Nat.lt_of_succ_lt_succ h)

end Ranges

namespace Machine

/-! ## A NOR slot (R64, R540) -/

section Slots
variable (d : Dev) (slot : Nat) (img : Bytes)

theorem Dev.norStore_frame : d.norStore slot img = { d with nor := (d.norStore slot img).nor } := rfl

theorem Dev.norStore_reads_image {a : Nat} (h : a < img.length) :
    Tab.get 0xFF#8 (d.norStore slot img).nor (slot + a) = img[a] :=
  Tab.get_putRun_inside _ img _ slot a h

/-- Behind the image its slot is erased. -/
theorem Dev.norStore_reads_erased {a : Nat} (himg : img.length ≤ a) (ha : a < 0x1000000) :
    Tab.get 0xFF#8 (d.norStore slot img).nor (slot + a) = 0xFF#8 := by
  rw [Dev.norStore, Tab.get_putRun_outside _ _ _ (by omega), Tab.get_clearRange_inside _ _ (by omega) (by omega)]

theorem Dev.norStore_keeps_other_slot {a : Nat} (hfits : img.length ≤ 0x1000000)
    (ha : a < slot ∨ slot + 0x1000000 ≤ a) :
    Tab.get 0xFF#8 (d.norStore slot img).nor a = Tab.get 0xFF#8 d.nor a := by
  rw [Dev.norStore, Tab.get_putRun_outside _ _ _ (by omega), Tab.get_clearRange_outside _ _ ha]

end Slots

/-- Settles O60: the slot is cleared and the image is written over its beginning. -/
theorem norSlotsHoldWhatIsStored : Obligations.NorSlotsHoldWhatIsStored := by
  unfold Obligations.NorSlotsHoldWhatIsStored
  intro d slot a img hfits hwf
  exact ⟨d.norStore_wf slot img hwf, d.norStore_reads_image slot img, d.norStore_reads_erased slot img,
    d.norStore_keeps_other_slot slot img hfits, d.norStore_frame slot img⟩

/-! ## The ends of a load's phases (R62 to R67, Table 02.8) -/

section Loader
variable {d : Dev}

theorem Dev.checksDone_image_fails {f : Fail} (hstate : d.loader = 1) (hready : d.ld.ready = true)
    (hpick : pickImageFail (d.imageFails d.ld.image) = some f) :
    d.checksDone = d.loadFails f.status 0 (some (d.failPosition f)) := by
  simp [Dev.checksDone, hstate, hready, hpick]

theorem Dev.checksDone_passes (hstate : d.loader = 1) (hready : d.ld.ready = true)
    (hpick : pickImageFail (d.imageFails d.ld.image) = none) (hadm : (d.imageEnv d.ld.image).fails = []) :
    d.checksDone = d.loadPasses (d.imageEnv d.ld.image).bounds999 (d.imageEnv d.ld.image).tf := by
  simp [Dev.checksDone, hstate, hready, hpick, hadm]

theorem Dev.checksDone_admission_fails {f : AdmFail} {r : List AdmFail} (hstate : d.loader = 1)
    (hready : d.ld.ready = true) (hpick : pickImageFail (d.imageFails d.ld.image) = none)
    (hadm : (d.imageEnv d.ld.image).fails = f :: r) :
    d.checksDone = (d.sendReport d.ld.req (refusalReport f (r.length + 1))).loadFails ST_REFUSED_DEADLINE 0
      (some (admPosition d.ld.image f)) := by
  simp [Dev.checksDone, hstate, hready, hpick, hadm]

/-- Where an admission check that takes too long is named (Table 02.11). -/
def Dev.latePosition (d : Dev) : Nat × Nat := (((imageSection d.ld.image 6).map (·.1)).getD 0xFF, noEntry)

theorem Dev.admissionLate_due (hstate : d.loader = 1) (hready : d.ld.ready = true)
    (hdue : d.ld.since + 200000000 ≤ d.now) :
    d.admissionLate = if d.imageFails d.ld.image = [] then d.loadFails ST_TIMEOUT 0 (some d.latePosition) else d := by
  by_cases himg : d.imageFails d.ld.image = [] <;>
    simp [Dev.admissionLate, Dev.latePosition, hstate, hready, Nat.not_lt.mpr hdue, himg]

theorem Dev.storeEnd_storing {img : Bytes} (hstate : d.loader = 2) (hnor : d.ld.nor = some img) :
    d.storeEnd = ((d.norStore norCi img).setLd fun x => { x with nor := none }).drainOrApply := by
  have hkeeps : ((d.norStore norCi img).setLd fun x => { x with nor := none }).loader = 2 := hstate
  simp only [Dev.storeEnd, hnor, hkeeps, if_true]

theorem Dev.drainEnd_due (hstate : d.loader = 3) (hdue : d.draining = false ∨ d.ld.since + 2000000 ≤ d.now) :
    d.drainEnd = (((((d.reqs.filter fun p => !p.2.ended && d.ld.req != some p.1).foldl
      (fun d p => d.endReq p.1 ST_FENCED) d).stopWork.expireBib none).setLd fun x => { x with changes := [] }).setRg
        .CI_STATE_STATE 4) := by
  have hgo : (d.loader != 3 || (d.draining && d.now < d.ld.since + 2000000)) = false := by
    rcases hdue with hidle | hlate
    · simp [hstate, hidle]
    · simp [hstate, Nat.not_lt.mpr hlate]
  simp only [Dev.drainEnd, hgo, Bool.false_eq_true, if_false]

/-- The new image is in force (R67). -/
def Dev.imageApplied (d : Dev) : Dev := d.applyImage d.ld.image d.ld.bounds

/-- How the load of an image in force ends: a node fence may have come meanwhile. -/
def Dev.applyStatus (d : Dev) : Nat := if d.nodeFenced then ST_FENCED else ST_OK

/-- The loader is ACTIVE, and a node in READY goes to ACTIVE with it. -/
def Dev.loaderActive (d : Dev) : Dev :=
  let e := (d.setRg .CI_STATE_STATE 5).setRg .CI_STATE_LAST_STATUS d.applyStatus
  if e.power = 3 then e.setRg .PWR_STATE_STATE 4 else e

/-- The loader has no load in progress. -/
def Dev.loadOver (d : Dev) : Dev :=
  d.setLd fun x => { x with busy := false, req := none, image := [], ready := false, tf := x.boundTf }

@[simp] theorem Dev.loaderActive_ld : d.loaderActive.ld = d.ld := by
  simp only [Dev.loaderActive]
  split <;> rfl

theorem Dev.applyingEnd_unasked (hstate : d.loader = 4) (hreq : d.imageApplied.ld.req = none) :
    d.applyingEnd = d.imageApplied.loaderActive.loadOver := by
  rw [← Dev.loaderActive_ld] at hreq
  unfold Dev.loaderActive Dev.imageApplied Dev.applyStatus at hreq
  simp only [Dev.applyingEnd, hstate, hreq, bne_self_eq_false, Bool.false_eq_true, if_false]
  rfl

theorem Dev.applyingEnd_asked {r : Nat} (hstate : d.loader = 4) (hreq : d.imageApplied.ld.req = some r) :
    d.applyingEnd = d.imageApplied.loaderActive.loadOver.complete r d.imageApplied.applyStatus 0 := by
  rw [← Dev.loaderActive_ld] at hreq
  unfold Dev.loaderActive Dev.imageApplied Dev.applyStatus at hreq
  simp only [Dev.applyingEnd, hstate, hreq, bne_self_eq_false, Bool.false_eq_true, if_false]
  rfl

end Loader

/-! ## The five commands -/

section Commands
variable {s : State} {t : Nat}

theorem goes_loaderChecksDone (hcore : (Spec.node s t).coreOn = true) :
    Spec.Goes (.loaderChecksDone t) s (Spec.node s t).checksDone.pump :=
  State.act_pos s t Dev.coreOn Dev.checksDone hcore

theorem goes_admissionTimeout (hcore : (Spec.node s t).coreOn = true) :
    Spec.Goes (.admissionTimeout t) s (Spec.node s t).admissionLate.pump :=
  State.act_pos s t Dev.coreOn Dev.admissionLate hcore

theorem goes_storeEnd (hmgmt : (Spec.node s t).mgmtOn = true) :
    Spec.Goes (.storeEnd t) s (Spec.node s t).storeEnd.pump := State.act_pos s t Dev.mgmtOn Dev.storeEnd hmgmt

theorem goes_drainEnd (hcore : (Spec.node s t).coreOn = true) :
    Spec.Goes (.drainEnd t) s (Spec.node s t).drainEnd.pump := State.act_pos s t Dev.coreOn Dev.drainEnd hcore

theorem goes_applyingEnd (hcore : (Spec.node s t).coreOn = true) :
    Spec.Goes (.applyingEnd t) s (Spec.node s t).applyingEnd.pump := State.act_pos s t Dev.coreOn Dev.applyingEnd hcore

end Commands

open Sys2Proof.Spec

/-- Settles O39: each event acts where its phase has come to its end, the checks by what they found. -/
theorem loaderEventsComplete : Obligations.LoaderEventsComplete := by
  unfold Obligations.LoaderEventsComplete
  intro s t hcore
  refine ⟨fun hstate hready => ⟨?checks, fun hdue => ?late⟩, fun img hmgmt hstate hnor => ?store,
    fun hstate hdue => ?drain, fun hstate => ?apply⟩
  case checks =>
    rintro _ rfl
    split
    case h_1 f hpick =>
      rw [← Dev.checksDone_image_fails hstate hready hpick]
      exact goes_loaderChecksDone hcore
    case h_2 hpick hadm =>
      rw [← Dev.checksDone_passes hstate hready hpick hadm]
      exact goes_loaderChecksDone hcore
    case h_3 f r hpick hadm =>
      rw [← Dev.checksDone_admission_fails hstate hready hpick hadm]
      exact goes_loaderChecksDone hcore
  case late =>
    rw [← Dev.latePosition, ← Dev.admissionLate_due hstate hready hdue]
    exact goes_admissionTimeout hcore
  case store =>
    rw [← Dev.storeEnd_storing hstate hnor]
    exact goes_storeEnd hmgmt
  case drain =>
    rw [← Dev.drainEnd_due hstate hdue]
    exact goes_drainEnd hcore
  case apply =>
    intro d e status hd hstatus he f hf
    have himage : d = (node s t).imageApplied := hd
    have hst : status = d.applyStatus := hstatus
    have hover : f = d.loaderActive.loadOver := by rw [hf, he, hst]; rfl
    rw [hover, hst, himage]
    refine ⟨fun hreq => ?_, fun r hreq => ?_⟩
    · rw [← Dev.applyingEnd_unasked hstate hreq]
      exact goes_applyingEnd hcore
    · rw [← Dev.applyingEnd_asked hstate hreq]
      exact goes_applyingEnd hcore

end Machine

end Sys2Proof

/-!
PROOFS. Accesses to PF0 BAR0 by offset (R72, R76, R78).
-/
namespace Sys2Proof.Machine

section Bar0
variable {d : Dev} {port off size v : Nat}

theorem Dev.strayAccess_write : d.strayAccess port true size = d.bump .ID_STRAY_COUNT := rfl

theorem Dev.strayAccess_read :
    d.strayAccess port false size = (d.bump .ID_STRAY_COUNT).answerRead port (fill size 0) := rfl

/-- R90: the Start List stands still outside APPLYING. -/
theorem Dev.rewriting_still (hstill : d.loader ≠ 4) (n : Nat) : d.rewriting n = d := by simp [Dev.rewriting, hstill]

theorem Dev.startBytes_still (hstill : d.loader ≠ 4) (n : Nat) : d.startBytes n = d.sl.bytes := by
  simp [Dev.startBytes, hstill]

theorem Dev.bar0_list_read (hstill : d.loader ≠ 4) (hoff : off < 0x10000) (hsize : 0 < size)
    (hline : off % 64 + size ≤ 64) :
    d.bar0 port off size none
      = d.answerRead port (sub (d.sl.bytes ++ fill (0x10000 - d.sl.bytes.length) 0) off size) := by
  simp [Dev.bar0, hoff, hstill, Nat.ne_of_gt hsize, Nat.not_lt.mpr hline, Dev.rewriting_still hstill,
    Dev.startBytes_still hstill]

theorem Dev.bar0_list_write (hoff : off < 0x10000) : d.bar0 port off size (some v) = d.bump .ID_STRAY_COUNT := by
  simp [Dev.bar0, hoff, Dev.strayAccess_write]

theorem Dev.bar0_gap (hoff : 0x10000 ≤ off) (hnone : d.blockAt off = none) (wr : Option Nat) :
    d.bar0 port off size wr = d.strayAccess port wr.isSome size := by
  simp only [Dev.bar0, if_neg (Nat.not_lt.mpr hoff), hnone]

variable {e : SlEnt} {o : Nat}

theorem Dev.bar0_block_read (hoff : 0x10000 ≤ off) (hat : d.blockAt off = some (e, o)) :
    d.bar0 port off size none = d.readReg port e.type e.inst o size 0 := by
  simp only [Dev.bar0, if_neg (Nat.not_lt.mpr hoff), hat]

theorem Dev.bar0_block_write (hoff : 0x10000 ≤ off) (hat : d.blockAt off = some (e, o)) :
    d.bar0 port off size (some v) = d.writeReg port e.type e.inst o size v := by
  simp only [Dev.bar0, if_neg (Nat.not_lt.mpr hoff), hat]

/-- A write that finds no block is counted, in the Start List as behind it. -/
theorem Dev.bar0_write_stray (hstray : off < 0x10000 ∨ d.blockAt off = none) :
    d.bar0 port off size (some v) = d.bump .ID_STRAY_COUNT := by
  by_cases hoff : off < 0x10000
  · exact Dev.bar0_list_write hoff
  · exact Dev.bar0_gap (Nat.not_lt.mp hoff) (hstray.resolve_left hoff) (some v)

end Bar0

theorem goes_bar0StrayAccess {s : State} {t : Nat} (hports : (Spec.node s t).portsOn = true) (port off size : Nat)
    (wr : Option Nat) :
    Spec.Goes (.bar0StrayAccess t port off size wr) s ((Spec.node s t).bar0 port off size wr).pump :=
  State.act_pos s t Dev.portsOn (fun d => d.bar0 port off size wr) hports

open Sys2Proof.Spec

/-- Settles O12: the access goes to the Start List, to the block that holds its offset, or nowhere. -/
theorem bar0AccessesComplete : Obligations.Bar0AccessesComplete := by
  unfold Obligations.Bar0AccessesComplete
  refine ⟨fun s t port off size v hports hstill hoff hsize hline => ?list,
    fun s t port off size v e o hports hoff hat => ⟨?blockRead, ?blockWrite⟩,
    fun s t port off size v hports hoff hnone => ?gap, fun s t port off size v hports hstray => ?write⟩
  case list =>
    rw [← Dev.bar0_list_read hstill hoff hsize hline]
    exact goes_bar0StrayAccess hports port off size none
  case blockRead =>
    rw [← Dev.bar0_block_read hoff hat]
    exact goes_bar0StrayAccess hports port off size none
  case blockWrite =>
    rw [← Dev.bar0_block_write hoff hat]
    exact goes_bar0StrayAccess hports port off size (some v)
  case gap =>
    have hgoes := goes_bar0StrayAccess hports port off size none
    rwa [Dev.bar0_gap hoff hnone, Option.isSome_none, Dev.strayAccess_read] at hgoes
  case write =>
    rw [← Dev.bar0_write_stray (port := port) (size := size) (v := v) hstray]
    exact goes_bar0StrayAccess hports port off size (some v)

end Sys2Proof.Machine

/-!
PROOFS. The pool's leases and offers, and its aperture (R73, R370, R379, R380, Table 15.7).
-/
namespace Sys2Proof.Machine

/-! ## Blocks that answer, and blocks that do not (R76, R91) -/

section OnBlock
variable {d : Dev} {blk inst : Nat} (f : Dev → Dev)

theorem Dev.onBlock_open (hopen : d.blockOpen blk inst = true) : d.onBlock blk inst f = f d := by
  rw [Dev.onBlock, if_pos hopen]

theorem Dev.onBlock_closed (hclosed : d.blockOpen blk inst = false) : d.onBlock blk inst f = d.bump .ID_STRAY_COUNT := by
  rw [Dev.onBlock, hclosed, if_neg Bool.false_ne_true, Dev.strayAccess_write]

end OnBlock

theorem Dev.portsOn_of_coreOn {d : Dev} (hcore : d.coreOn = true) : d.portsOn = true := by
  rw [Dev.portsOn, hcore, Bool.true_or]

/-! ## Leases and offers -/

section Pool
variable {s : State} {t k : Nat} {x : Seg}

theorem Dev.expire_leased {d : Dev} {e : Nat} (hseg : d.seg k = some x) (hlease : x.lease = some e) :
    d.expire k = ((d.updSeg k fun y => { y with
      lease := none, shadow := [], dirty := false, expired := true, idle := d.now }).bump .POOL_EXPIRED_COUNT).poolGc := by
  simp [Dev.expire, hseg, hlease]

theorem goes_leaseExpiry {e : Nat} (hcore : (Spec.node s t).coreOn = true) (hseg : (Spec.node s t).seg k = some x)
    (hlease : x.lease = some e) (hdue : e ≤ (Spec.node s t).now) :
    Spec.Goes (.leaseExpiry t k) s ((Spec.node s t).expire k).pump := by
  change execLeaseExpiry t k s = _
  rw [execLeaseExpiry, State.act_pos _ _ _ _ hcore]
  simp only [hseg, Option.bind_some, hlease, if_pos hdue]

theorem goes_offerExpiry {o : Nat × Nat × Nat × Nat} (hcore : (Spec.node s t).coreOn = true)
    (hseg : (Spec.node s t).seg k = some x) (hoffer : x.offer = some o)
    (hdue : o.2.2.2 + (Spec.node s t).pl.handoffMs * 1000000 ≤ (Spec.node s t).now) :
    Spec.Goes (.offerExpiry t k) s
      (((Spec.node s t).updSeg k fun y => { y with offer := none }).bump .POOL_OFFERTO_COUNT).pump := by
  change execOfferExpiry t k s = _
  rw [execOfferExpiry, State.act_pos _ _ _ _ hcore]
  simp only [hseg, Option.bind_some, hoffer, if_pos hdue]

end Pool

/-! ## The aperture -/

/-- A slot's key, or whether it is enabled, is stored; there are 64 slots (R379). -/
def Dev.setAperture (d : Dev) (slot : Nat) (isKey : Bool) (v : Nat) : Dev :=
  if slot > 63 then d
  else if isKey then d.setRg .POOL_APTKEY_KEY v 0 slot
  else d.setRg .POOL_APTCTL_EN (v % 2) 0 slot

section Slots
variable {d : Dev} {slot : Nat}

theorem Dev.setAperture_key (hslot : slot < 64) (v : Nat) : d.setAperture slot true v = d.setRg .POOL_APTKEY_KEY v 0 slot := by
  rw [Dev.setAperture, if_neg (Nat.not_lt.mpr (Nat.le_of_lt_succ hslot)), if_pos rfl]

theorem Dev.setAperture_enable (hslot : slot < 64) (v : Nat) :
    d.setAperture slot false v = d.setRg .POOL_APTCTL_EN (v % 2) 0 slot := by
  rw [Dev.setAperture, if_neg (Nat.not_lt.mpr (Nat.le_of_lt_succ hslot)), if_neg Bool.false_ne_true]

end Slots

section Aperture
variable {s : State} {t p off len : Nat}

theorem goes_apertureSlotSet (hcore : (Spec.node s t).coreOn = true) (slot : Nat) (isKey : Bool) (v : Nat) :
    Spec.Goes (.apertureSlotSet t slot isKey v) s
      ((Spec.node s t).onBlock 0x63 0 fun d => d.setAperture slot isKey v) :=
  State.runIf_pos s t Dev.coreOn (fun d => d.onBlock 0x63 0 fun d => d.setAperture slot isKey v) hcore

theorem Dev.aptOn_of {d : Dev} (hapt : (d.port p).apt = true) (hpool : d.pl.on = true) : d.aptOn p = true := by
  rw [Dev.aptOn, hapt, hpool, Bool.and_self]

theorem Dev.aptOn_eq_false_iff {d : Dev} : d.aptOn p = false ↔ (d.port p).apt = false ∨ d.pl.on = false :=
  Bool.and_eq_false_iff

theorem Dev.aptAnswer_none {d : Dev} : d.aptAnswer p none = (d.bump .POOL_APTUR_COUNT).emit (.unsupported p) := rfl

theorem goes_apertureRead_off (hports : (Spec.node s t).portsOn = true) (hoff : (Spec.node s t).aptOn p = false) :
    Spec.Goes (.apertureRead t p off len) s ((Spec.node s t).emit (.unsupported p)) := by
  change execApertureRead t p off len s = _
  rw [execApertureRead, State.runIf_pos _ _ _ _ hports]
  simp only [hoff, Bool.not_false, if_true]

theorem goes_apertureRead_unmapped (hports : (Spec.node s t).portsOn = true) (hon : (Spec.node s t).aptOn p = true)
    (hslot : 64 ≤ off / 2 ^ 30 ∨ (Spec.node s t).rg .POOL_APTCTL_EN 0 (off / 2 ^ 30) = 0
      ∨ (Spec.node s t).seg ((Spec.node s t).rg .POOL_APTKEY_KEY 0 (off / 2 ^ 30)) = none) :
    Spec.Goes (.apertureRead t p off len) s ((Spec.node s t).aptAnswer p none) := by
  change execApertureRead t p off len s = _
  rw [execApertureRead, State.runIf_pos _ _ _ _ hports]
  simp only [hon, Bool.not_true, Bool.false_eq_true, if_false]
  rcases hslot with hnum | hen | hseg
  · simp only [decide_eq_true (Nat.lt_of_succ_le hnum), Bool.true_or, if_true]
  · simp only [hen, decide_true, Bool.or_true, Bool.true_or, if_true]
  · simp only [hseg, ite_self]

/-- R380: a segment of this node that has published is read, from one version, within its length. -/
theorem goes_apertureRead_mapped {x : Seg} {key : Nat} (hports : (Spec.node s t).portsOn = true)
    (hon : (Spec.node s t).aptOn p = true) (hnum : off / 2 ^ 30 < 64)
    (hen : (Spec.node s t).rg .POOL_APTCTL_EN 0 (off / 2 ^ 30) = 1)
    (hkey : (Spec.node s t).rg .POOL_APTKEY_KEY 0 (off / 2 ^ 30) = key) (hhome : keyHome key = (Spec.node s t).mt.slot)
    (hseg : (Spec.node s t).seg key = some x) (hver : x.version ≠ 0) (hlen : off % 2 ^ 30 + len ≤ x.blocks * 65536) :
    Spec.Goes (.apertureRead t p off len) s ((Spec.node s t).startSegRead
      { who := .apt p (off % 2 ^ 30) len, desc := [], slot := (Spec.node s t).mt.slot, bib := 0, key := key }
      x (off % 2 ^ 30) len) := by
  have hserved : (decide (x.version = 0) || decide (x.blocks * 65536 < off % 2 ^ 30 + len)) = false := by
    rw [decide_eq_false hver, decide_eq_false (Nat.not_lt.mpr hlen), Bool.or_self]
  have hmine : (decide (off / 2 ^ 30 > 63) || decide ((1 : Nat) = 0)
      || keyHome key != (Spec.node s t).mt.slot) = false := by
    rw [decide_eq_false (Nat.not_lt.mpr (Nat.le_of_lt_succ hnum)), hhome, bne_self_eq_false]
    rfl
  change execApertureRead t p off len s = _
  rw [execApertureRead, State.runIf_pos _ _ _ _ hports]
  simp only [hon, hkey, hen, hmine, hseg, hserved, Bool.not_true, Bool.false_eq_true, if_false]

theorem goes_apertureWrite_off (hports : (Spec.node s t).portsOn = true) (hoff : (Spec.node s t).aptOn p = false) :
    Spec.Goes (.apertureWrite t p off len) s ((Spec.node s t).emit (.unsupported p)) := by
  change execApertureWrite t p off len s = _
  rw [execApertureWrite, State.runIf_pos _ _ _ _ hports]
  simp only [hoff, Bool.not_false, if_true]

theorem goes_apertureWrite_dropped (hports : (Spec.node s t).portsOn = true) (hon : (Spec.node s t).aptOn p = true)
    (hin : off < 2 ^ 36) (hlen : 0 < len) :
    Spec.Goes (.apertureWrite t p off len) s ((Spec.node s t).bump .POOL_APTUR_COUNT) := by
  change execApertureWrite t p off len s = _
  rw [execApertureWrite, State.runIf_pos _ _ _ _ hports]
  simp only [hon, decide_eq_true hin, decide_eq_true hlen, Bool.and_self, Bool.not_true, Bool.false_eq_true, if_true,
    if_false]

end Aperture

open Sys2Proof.Spec

/-- Settles O34: a lease or an offer that is due ends; an access to the aperture goes by its port, its slot and its
segment. -/
theorem poolEventsComplete : Obligations.PoolEventsComplete := by
  unfold Obligations.PoolEventsComplete
  intro s t hcore
  have hports := Dev.portsOn_of_coreOn hcore
  refine ⟨fun k x e hseg hlease hdue => ?lease, fun k x o => goes_offerExpiry hcore, fun i v hi hopen => ⟨?key, ?enable⟩,
    fun i k v hclosed => ?closed,
    fun p off len x hapt hpool hnum hen => goes_apertureRead_mapped hports (Dev.aptOn_of hapt hpool) hnum hen rfl,
    fun p off len hoff => ?off, fun p off len hapt hpool => ?unmapped,
    fun p off len hapt hpool => goes_apertureWrite_dropped hports (Dev.aptOn_of hapt hpool)⟩
  case lease =>
    rw [← Dev.expire_leased hseg hlease]
    exact goes_leaseExpiry hcore hseg hlease hdue
  case key =>
    rw [← Dev.setAperture_key hi, ← Dev.onBlock_open (fun d => d.setAperture i true v) hopen]
    exact goes_apertureSlotSet hcore i true v
  case enable =>
    rw [← Dev.setAperture_enable hi, ← Dev.onBlock_open (fun d => d.setAperture i false v) hopen]
    exact goes_apertureSlotSet hcore i false v
  case closed =>
    rw [← Dev.onBlock_closed (fun d => d.setAperture i k v) hclosed]
    exact goes_apertureSlotSet hcore i k v
  case off =>
    have haptOff := Dev.aptOn_eq_false_iff.mpr hoff
    exact ⟨goes_apertureRead_off hports haptOff, goes_apertureWrite_off hports haptOff⟩
  case unmapped =>
    rw [← Dev.aptAnswer_none]
    exact goes_apertureRead_unmapped hports (Dev.aptOn_of hapt hpool)

end Sys2Proof.Machine

/-!
PROOFS. The service panel (R516 to R524, Table 21.2).
-/
namespace Sys2Proof.Machine

/-- PANEL_CANCEL of some slots: of each that is in its abort window. -/
def Dev.cancelRemovals (d : Dev) (slots : List Nat) : Dev :=
  slots.foldl (fun d n => if d.inWindow n then d.cancelRemoval n else d) d

/-- When a button was pressed is stored, whatever its press does. -/
def Dev.stampPress (d : Dev) (n : Nat) : Dev := d.setRg .PANEL_PRESS_TIME d.now 0 n

section Slots
variable {d : Dev} {n : Nat}

theorem Dev.cancelRemovals_outside_window {slots : List Nat} (hout : ∀ n ∈ slots, d.inWindow n = false) :
    d.cancelRemovals slots = d :=
  Dev.foldl_id _ slots d fun n hn => by rw [hout n hn, if_neg Bool.false_ne_true]

theorem Dev.cancelRemovals_one (hin : d.inWindow n = true) : d.cancelRemovals [n] = d.cancelRemoval n := by
  rw [Dev.cancelRemovals, List.foldl_cons, List.foldl_nil, if_pos hin]

/-! ## Presence (R517, R523) -/

/-- Whether a sled may be powered does not depend on which slots hold one. -/
theorem Dev.mayPower_setRg_present (v i r m : Nat) : (d.setRg .PANEL_SLED_PRSNT v i r).mayPower m = d.mayPower m := by
  have hkeeps (f : Fld) (hne : f ≠ .PANEL_SLED_PRSNT) (j q : Nat) :
      (d.setRg .PANEL_SLED_PRSNT v i r).rg f j q = d.rg f j q := d.rg_setRg_ne hne ..
  unfold Dev.mayPower Dev.coreOn Dev.power Dev.nodeFenced
  rw [hkeeps .PWR_STATE_STATE (by decide), hkeeps .REF_STAT_FENCED (by decide), hkeeps .PANEL_SLED_HELD (by decide),
    hkeeps .BOOT_STAT_PHASE (by decide)]

theorem Dev.powered_setRg_present (v i r m : Nat) : (d.setRg .PANEL_SLED_PRSNT v i r).powered m = d.powered m := by
  rw [Dev.powered, Dev.powered, d.rg_setRg_ne (by decide)]

theorem Dev.seqOf_setRg_present (v i r m : Nat) : (d.setRg .PANEL_SLED_PRSNT v i r).seqOf m = d.seqOf m :=
  d.rg_setRg_ne (by decide) ..

theorem Dev.inserted_powers (hoff : d.powered n = false) (hmay : d.mayPower n = true) :
    d.inserted n = (d.setRg .PANEL_SLED_PRSNT 1 0 n).powerOn n := by
  simp only [Dev.inserted, Dev.powered_setRg_present, hoff, Dev.mayPower_setRg_present, hmay, Bool.not_true, Bool.or_self,
    Bool.false_eq_true, if_false]

theorem Dev.removed_surprise (hin : d.sledPresent n = true) (hseq : d.seqOf n ≠ 5) :
    d.removed n = (d.setRg .PANEL_SLED_PRSNT 0 0 n).surprise n := by
  simp only [Dev.removed, hin, Dev.seqOf_setRg_present, bne_iff_ne.mpr hseq, Bool.not_true, Bool.false_eq_true, if_true,
    if_false]

theorem Dev.removed_off (hin : d.sledPresent n = true) (hseq : d.seqOf n = 5) :
    d.removed n = (((d.setRg .PANEL_SLED_PRSNT 0 0 n).setSeq n 0).updSlot n fun _ => {}).setRg .SLED_STAT_STATE 0 n := by
  simp only [Dev.removed, hin, Dev.seqOf_setRg_present, hseq, bne_self_eq_false, Bool.not_true, Bool.false_eq_true,
    if_false]

/-! ## The end of the abort window (Table 21.2) -/

/-- The slot goes to QUIESCING, and its sled serves no more. -/
def Dev.quiesce (d : Dev) (n : Nat) : Dev := ((d.setRg .SLED_STAT_STATE 4 n).setSeq n 2).rebound

/-- Every hosted copy is DOWN until the next restart. -/
def Dev.copiesDown (d : Dev) : Dev :=
  { d with ix := { d.ix with heats := Tab.mapV d.ix.heats fun _ h => { h with state := 3 } } }

theorem Dev.abortEnd_due (hseq : d.seqOf n = 1) (hruns : (d.slot n).stopped = false)
    (hdue : (d.slot n).tp + abortWindow ≤ d.now) : d.abortEnd n = (d.quiesce n).copiesDown.panelStep := by
  have hend : (decide (d.seqOf n = 1) && !(d.slot n).stopped && decide ((d.slot n).tp + abortWindow ≤ d.now)) = true := by
    simp [hseq, hruns, hdue]
  simp only [Dev.abortEnd, hend, if_true]
  rfl

end Slots

/-! ## The commands -/

section Commands
variable {s : State} {t n : Nat}

theorem goes_panelRemove (hports : (Spec.node s t).portsOn = true) (m : Nat) :
    Spec.Goes (.panelRemove t m) s
      ((Spec.node s t).onBlock 0x65 0 fun d => ((maskSlots m).foldl Dev.removeRequest d).panelStep) :=
  State.runIf_pos s t Dev.portsOn (fun d => d.onBlock 0x65 0 fun d => ((maskSlots m).foldl Dev.removeRequest d).panelStep)
    hports

theorem goes_panelCancel (hports : (Spec.node s t).portsOn = true) (m : Nat) :
    Spec.Goes (.panelCancel t m) s ((Spec.node s t).onBlock 0x65 0 fun d => d.cancelRemovals (maskSlots m)) :=
  State.runIf_pos s t Dev.portsOn (fun d => d.onBlock 0x65 0 fun d => d.cancelRemovals (maskSlots m)) hports

theorem goes_panelCancel_open (hports : (Spec.node s t).portsOn = true) (hopen : (Spec.node s t).blockOpen 0x65 0 = true)
    (m : Nat) : Spec.Goes (.panelCancel t m) s ((Spec.node s t).cancelRemovals (maskSlots m)) := by
  have hgoes := goes_panelCancel hports m
  rwa [Dev.onBlock_open _ hopen] at hgoes

theorem goes_attnButtonPress (hmgmt : (Spec.node s t).mgmtOn = true) (hn : n ≤ 3) :
    Spec.Goes (.attnButtonPress t n) s
      (if bit (((Spec.node s t).stampPress n).rg .PANEL_CFG_LOCK) n then ((Spec.node s t).stampPress n).ignored n
        else (((Spec.node s t).stampPress n).press n).panelStep) := by
  change execAttnButtonPress t n s = _
  rw [execAttnButtonPress, State.runIf_pos _ _ _ _ hmgmt, if_neg (Nat.not_lt.mpr hn)]
  rfl

theorem goes_attnLongPress (hmgmt : (Spec.node s t).mgmtOn = true) (hn : n ≤ 3) :
    Spec.Goes (.attnLongPress t n) s ((Spec.node s t).setRg .PANEL_CFG_ID (1 - (Spec.node s t).rg .PANEL_CFG_ID)) := by
  change execAttnLongPress t n s = _
  rw [execAttnLongPress, State.runIf_pos _ _ _ _ hmgmt, if_neg (Nat.not_lt.mpr hn)]

theorem goes_sledInsertion (hmgmt : (Spec.node s t).mgmtOn = true) (hn : n ≤ 3) :
    Spec.Goes (.sledInsertion t n) s ((Spec.node s t).inserted n) := by
  change execSledInsertion t n s = _
  rw [execSledInsertion, State.runIf_pos _ _ _ _ hmgmt, if_neg (Nat.not_lt.mpr hn)]

theorem goes_sledRemoval (hmgmt : (Spec.node s t).mgmtOn = true) (hn : n ≤ 3) :
    Spec.Goes (.sledRemoval t n) s ((Spec.node s t).removed n).panelStep := by
  change execSledRemoval t n s = _
  rw [execSledRemoval, State.runIf_pos _ _ _ _ hmgmt, if_neg (Nat.not_lt.mpr hn)]

theorem goes_abortWindowEnd (hcore : (Spec.node s t).coreOn = true) (hn : n ≤ 3) :
    Spec.Goes (.abortWindowEnd t n) s ((Spec.node s t).abortEnd n) := by
  change execAbortWindowEnd t n s = _
  rw [execAbortWindowEnd, State.runIf_pos _ _ _ _ hcore, if_neg (Nat.not_lt.mpr hn)]

theorem goes_sledPowerOffDone {u : Nat} (hcore : (Spec.node s t).coreOn = true)
    (hoff : ((Spec.node s t).slot n).offAt = some u) (hdue : u + powerOffTime ≤ (Spec.node s t).now)
    (hin : (Spec.node s t).sledPresent n = true) :
    Spec.Goes (.sledPowerOffDone t n) s
      (((Spec.node s t).setSeq n 5).updSlot n fun x => { x with offAt := none }) := by
  change execSledPowerOffDone t n s = _
  rw [execSledPowerOffDone, State.runIf_pos _ _ _ _ hcore]
  simp only [hoff, decide_eq_true hdue, hin, Bool.and_self, if_true]

end Commands

open Sys2Proof.Spec

/-- Settles O46: the panel's block takes its commands where it answers, and each event does what its slot's state says. -/
theorem panelEventsComplete : Obligations.PanelEventsComplete := by
  unfold Obligations.PanelEventsComplete
  intro s t
  refine ⟨fun hports hopen => ⟨fun m => ?remove, fun m hout => ?cancelNone⟩,
    fun m hports hclosed => ⟨?removeClosed, ?cancelClosed⟩,
    fun m n hports hopen hmask hin => ?cancelOne, fun n hmgmt hn => ?press, fun n => goes_attnLongPress,
    fun n hmgmt hn hoff hmay => ?insertion, fun n hmgmt hn hin => ⟨fun hseq => ?surprise, fun hseq => ?removalOff⟩,
    fun n hcore hn hseq hruns hdue => ?abort, fun n u => goes_sledPowerOffDone⟩
  case remove =>
    have hgoes := goes_panelRemove hports m
    rwa [Dev.onBlock_open _ hopen] at hgoes
  case cancelNone =>
    have hgoes := goes_panelCancel_open hports hopen m
    rwa [Dev.cancelRemovals_outside_window hout] at hgoes
  case removeClosed =>
    have hgoes := goes_panelRemove hports m
    rwa [Dev.onBlock_closed _ hclosed] at hgoes
  case cancelClosed =>
    have hgoes := goes_panelCancel hports m
    rwa [Dev.onBlock_closed _ hclosed] at hgoes
  case cancelOne =>
    have hgoes := goes_panelCancel_open hports hopen m
    rwa [hmask, Dev.cancelRemovals_one hin] at hgoes
  case press =>
    intro d hd
    have hgoes := goes_attnButtonPress hmgmt hn
    rw [Dev.stampPress, ← hd] at hgoes
    refine ⟨fun hlocked => ?_, fun hfree => ?_⟩
    · rwa [if_pos hlocked] at hgoes
    · rwa [hfree, if_neg Bool.false_ne_true] at hgoes
  case insertion =>
    rw [← Dev.inserted_powers hoff hmay]
    exact goes_sledInsertion hmgmt hn
  case surprise =>
    rw [← Dev.removed_surprise hin hseq]
    exact goes_sledRemoval hmgmt hn
  case removalOff =>
    rw [← Dev.removed_off hin hseq]
    exact goes_sledRemoval hmgmt hn
  case abort =>
    rintro _ rfl
    have hgoes := goes_abortWindowEnd hcore hn
    rwa [Dev.abortEnd_due hseq hruns hdue] at hgoes

end Sys2Proof.Machine

/-!
PROOFS. The check of a contract change (R108, R109).
-/
namespace Sys2Proof.Machine

/-- What the check of the change of request `q` finds. -/
def Dev.trialFails (d : Dev) (q : Req) (buf : Bytes) : List AdmFail :=
  (d.changed (u8 q.desc 0x12) buf).liveEnv.changeFails (u16 q.desc 0x10)
    ((changeEntries (u8 q.desc 0x12) buf).map fun x => u8 x 2)

/-- The bound that a check gave contract record `k`, which else keeps its own. -/
def AdmEnv.boundFor (v : AdmEnv) (k : Nat) (c : Contract) : Nat :=
  (((List.zip (v.contracts.map (·.1)) v.bounds999).find? fun p => p.1 == k).map (·.2)).getD c.bound

/-- R108: the contracts of bib `b`'s partition take the bounds of the check; all other bounds stand. -/
def Dev.withBounds (d : Dev) (b : Nat) : Dev :=
  { d with contracts := Tab.mapV d.contracts fun k c =>
      if d.liveEnv.partOf c.bib = d.liveEnv.partOf b then { c with bound := d.liveEnv.boundFor k c } else c }

/-- The counter records that a bib's contracts hold. -/
def Dev.recordsOf (d : Dev) (b : Nat) : List Nat := (d.contracts.filter fun p => p.2.bib == b).map (·.1)

/-- R109: the state `e` of a checked change replaces `d`: counters restarted, the change counted and measured. -/
def Dev.adopt (d e : Dev) (q : Req) : Dev :=
  ((e.clearCounters (d.recordsOf (u16 q.desc 0x10) ++ e.recordsOf (u16 q.desc 0x10))).bump
    .CONTR_CHANGES_COUNT).measureChange q

/-! ## How the check of the change in turn ends -/

section Check
variable {d : Dev} {r : Nat} {buf : Bytes} {rest : List (Nat × Option Bytes)} {q : Req}

theorem Dev.changeLate_due (hturn : d.ld.changes = (r, some buf) :: rest) (hdue : d.ld.changeAt + 20000000 ≤ d.now) :
    d.changeLate = (d.complete r ST_TIMEOUT 0).popChange := by
  simp only [Dev.changeLate, hturn, Option.isSome_some, hdue, decide_true, Bool.and_self, if_true]

theorem Dev.changeDone_no_request (hturn : d.ld.changes = (r, some buf) :: rest) (hreq : Tab.find d.reqs r = none) :
    d.changeDone = d.popChange := by
  simp only [Dev.changeDone, hturn, hreq]

theorem Dev.changeDone_refused {f : AdmFail} {fs : List AdmFail} (hturn : d.ld.changes = (r, some buf) :: rest)
    (hreq : Tab.find d.reqs r = some q) (hopen : q.ended = false) (hfails : d.trialFails q buf = f :: fs) :
    d.changeDone =
      ((d.sendReport (some r) (refusalReport f (fs.length + 1))).complete r ST_REFUSED_DEADLINE 0).popChange := by
  unfold Dev.trialFails at hfails
  simp only [Dev.changeDone, hturn, hreq, hopen, hfails, Bool.false_eq_true, if_false]

theorem Dev.changeDone_passed (hturn : d.ld.changes = (r, some buf) :: rest) (hreq : Tab.find d.reqs r = some q)
    (hopen : q.ended = false) (hfails : d.trialFails q buf = []) :
    d.changeDone =
      ((d.adopt ((d.changed (u8 q.desc 0x12) buf).withBounds (u16 q.desc 0x10)) q).complete r ST_OK 0).popChange := by
  unfold Dev.trialFails at hfails
  simp only [Dev.changeDone, hturn, hreq, hopen, hfails, Bool.false_eq_true, if_false, Dev.adopt, Dev.recordsOf,
    Dev.withBounds, AdmEnv.boundFor]

end Check

/-! ## The two commands -/

section Commands
variable {s : State} {t : Nat}

theorem goes_contractCheckTimeout (hcore : (Spec.node s t).coreOn = true) :
    Spec.Goes (.contractCheckTimeout t) s (Spec.node s t).changeLate.pump :=
  State.act_pos s t Dev.coreOn Dev.changeLate hcore

theorem goes_contractCheckDone (hcore : (Spec.node s t).coreOn = true) :
    Spec.Goes (.contractCheckDone t) s (Spec.node s t).changeDone.pump :=
  State.act_pos s t Dev.coreOn Dev.changeDone hcore

end Commands

open Sys2Proof.Spec

/-- Settles O40: the change in turn ends by its time limit, or by what its check found, or leaves with its request. -/
theorem contractChangesComplete : Obligations.ContractChangesComplete := by
  unfold Obligations.ContractChangesComplete
  intro s t r buf rest hcore hturn
  refine ⟨fun hdue => ?late, fun q f fs hreq hopen hfails => ?refused, fun q v d hreq hopen hd hv hfails e he => ?passed,
    fun hreq => ?gone⟩
  case late =>
    rw [← Dev.changeLate_due hturn hdue]
    exact goes_contractCheckTimeout hcore
  case refused =>
    rw [← Dev.changeDone_refused hturn hreq hopen hfails]
    exact goes_contractCheckDone hcore
  case passed =>
    rw [hv, hd] at hfails he
    have hnew : e = ((node s t).changed (u8 q.desc 0x12) buf).withBounds (u16 q.desc 0x10) := by
      simp only [he, Dev.withBounds, AdmEnv.boundFor]
    have hgoes := goes_contractCheckDone hcore
    rwa [Dev.changeDone_passed hturn hreq hopen hfails, ← hnew, Dev.adopt, Dev.recordsOf, Dev.recordsOf] at hgoes
  case gone =>
    rw [← Dev.changeDone_no_request hturn hreq]
    exact goes_contractCheckDone hcore

end Sys2Proof.Machine

/-!
PROOFS. Bibs: their states, the ends of a teardown, and writes to a VF that carries none (R116, R122 to R126, Table 05.3).
-/
namespace Sys2Proof.Machine

/-! ## The bib state machine (Table 05.3) -/

section States
variable {d : Dev} {b : Nat}

theorem Dev.bibEvent_absent (hstate : (d.bib b).state = 0) (c : BibCmd) (r : Option Nat) : d.bibEvent b c r = d := by
  unfold Dev.bibEvent
  simp only [hstate]

theorem Dev.bibEvent_disabled_enable (hstate : (d.bib b).state = 1) (r : Option Nat) :
    d.bibEvent b .enable r = (d.updBib b fun x => { x with state := 2 }).answer r ST_OK (d.bib b).gen := by
  unfold Dev.bibEvent
  simp only [hstate]

/-- A disable, a reset or an expiry finds nothing to do in a bib that is DISABLED. -/
theorem Dev.bibEvent_disabled_other {c : BibCmd} (hstate : (d.bib b).state = 1) (hc : c ≠ .enable) (r : Option Nat) :
    d.bibEvent b c r = d.answer r ST_OK 0 := by
  cases c with
  | enable => exact absurd rfl hc
  | disable | resetPf0 | resetOwn | expiry =>
    unfold Dev.bibEvent
    simp only [hstate]

/-- ACTIVE: a second enable and an expiry change nothing; every other event starts a teardown, only a disable with grace. -/
theorem Dev.bibEvent_active (hstate : (d.bib b).state = 2) (r : Option Nat) :
    d.bibEvent b .enable r = d.answer r ST_OK (d.bib b).gen
    ∧ d.bibEvent b .disable r = d.startTeardown b true 2 true r
    ∧ d.bibEvent b .resetPf0 r = d.startTeardown b false 1 true r
    ∧ d.bibEvent b .resetOwn r = (d.answer r ST_DEFERRED (((d.bib b).gen + 1) % 65536)).startTeardown b false 1 true none
    ∧ d.bibEvent b .expiry r = d := by
  unfold Dev.bibEvent
  simp only [hstate, and_self]

/-- FENCED: only a teardown leads out, without grace. -/
theorem Dev.bibEvent_fenced (hstate : (d.bib b).state = 3) (r : Option Nat) :
    d.bibEvent b .enable r = d.answer r ST_FENCED 0
    ∧ d.bibEvent b .disable r = d.startTeardown b false 2 true r
    ∧ d.bibEvent b .resetPf0 r = d.startTeardown b false 1 true r
    ∧ d.bibEvent b .resetOwn r = d.startTeardown b false 1 true r
    ∧ d.bibEvent b .expiry r = d.startTeardown b false 1 false none := by
  unfold Dev.bibEvent
  simp only [hstate, and_self]

/-- RESETTING: a command sets only the state that follows, and does not wait for it. -/
theorem Dev.bibEvent_resetting (hstate : (d.bib b).state = 4) (r : Option Nat) :
    d.bibEvent b .disable r =
      (d.updBib b fun x => { x with pending := 2 }).answer r ST_DEFERRED (((d.bib b).gen + 1) % 65536)
    ∧ d.bibEvent b .resetPf0 r =
      (d.updBib b fun x => { x with pending := 1 }).answer r ST_DEFERRED (((d.bib b).gen + 1) % 65536)
    ∧ d.bibEvent b .enable r =
      (d.updBib b fun x => { x with pending := 1 }).answer r ST_DEFERRED (((d.bib b).gen + 1) % 65536)
    ∧ d.bibEvent b .expiry r = d := by
  unfold Dev.bibEvent
  simp only [hstate, and_self]

end States

/-- Settles O58: Table 05.3 row by row. -/
theorem bibStatesFollowTheirTable : Obligations.BibStatesFollowTheirTable := by
  unfold Obligations.BibStatesFollowTheirTable
  intro d b r
  refine ⟨fun hdisabled => ⟨Dev.bibEvent_disabled_enable hdisabled r, fun c hc => Dev.bibEvent_disabled_other hdisabled hc r⟩,
    fun hactive => Dev.bibEvent_active hactive r, fun hfenced => Dev.bibEvent_fenced hfenced r,
    fun hresetting => Dev.bibEvent_resetting hresetting r, fun habsent c => Dev.bibEvent_absent habsent c r⟩

/-! ## The ends of a teardown (R124, R126) -/

section Teardown
variable {s : State} {t b : Nat}

theorem goes_teardownGraceEnd (hcore : (Spec.node s t).coreOn = true) (hstate : ((Spec.node s t).bib b).state = 4)
    (hgrace : ((Spec.node s t).bib b).tdGrace = true) (hdue : ((Spec.node s t).bib b).tdStart + 2000000 ≤ (Spec.node s t).now) :
    Spec.Goes (.teardownGraceEnd t b) s ((Spec.node s t).tdCut b).pump := by
  change execTeardownGraceEnd t b s = _
  rw [execTeardownGraceEnd, State.act_pos _ _ _ _ hcore]
  simp only [hstate, hgrace, hdue, decide_true, Bool.and_self, if_true]

theorem goes_teardownEnd (hcore : (Spec.node s t).coreOn = true) (hstate : ((Spec.node s t).bib b).state = 4)
    (hretired : (Spec.node s t).retired b = true) :
    Spec.Goes (.teardownEnd t b) s ((Spec.node s t).tearDown b).pump := by
  change execTeardownEnd t b s = _
  rw [execTeardownEnd, State.act_pos _ _ _ _ hcore]
  simp only [hstate, hretired, decide_true, Bool.and_self, if_true]

theorem goes_teardownStuck (hcore : (Spec.node s t).coreOn = true) (hstate : ((Spec.node s t).bib b).state = 4)
    (hdue : ((Spec.node s t).bib b).tdStart + 12000000 ≤ (Spec.node s t).now) :
    Spec.Goes (.teardownStuck t b) s ((Spec.node s t).tearStuck b).pump := by
  change execTeardownStuck t b s = _
  rw [execTeardownStuck, State.act_pos _ _ _ _ hcore]
  simp only [hstate, hdue, decide_true, Bool.and_self, if_true]

end Teardown

/-- Settles O37: each command finds its condition met; what the grace's end cuts off is `Dev.tdCut`. -/
theorem teardownEventsComplete : Obligations.TeardownEventsComplete := by
  unfold Obligations.TeardownEventsComplete
  intro s t b hcore hstate
  exact ⟨goes_teardownGraceEnd hcore hstate, goes_teardownEnd hcore hstate, goes_teardownStuck hcore hstate⟩

/-! ## Writes to a VF that carries no bib (R116) -/

section Stray
variable {d : Dev} {p v w : Nat}

/-- A VF that carries no bib has no windows. -/
theorem Dev.srcWin_vf_unbound (hnone : d.vfBib p v = none) (w : Nat) : d.srcWin (.vf p v w) = none := by
  simp only [Dev.srcWin, hnone, Option.map_none, ite_self]

/-- A descriptor that reaches no window is counted, and no request comes of it. -/
theorem Dev.land_stray {src : Src} (hcore : d.coreOn = true) (hwin : d.srcWin src = none) (x : Bytes) :
    d.land src x = (d.bump .BIBTAB_STRAY_COUNT, none) := by
  simp only [Dev.land, hcore, hwin, Bool.not_true, Bool.false_eq_true, if_false]

theorem Dev.submit_stray {src : Src} (hcore : d.coreOn = true) (hwin : d.srcWin src = none) (x : Bytes) :
    d.submit src x = (d.bump .BIBTAB_STRAY_COUNT).pump := by
  simp only [Dev.submit, Dev.land_stray hcore hwin, Dev.landed]

/-- Counting sets nothing going, unless it counts a power state or the step of a removal. -/
theorem Dev.Quiet.bump {f : Fld} (h : d.Quiet) (hpower : .PWR_STATE_STATE ≠ f) (hseq : .PANEL_SLED_SEQ ≠ f) :
    (d.bump f).Quiet where
  booted := by rw [Dev.power, Dev.rg_bump_ne d hpower]; exact h.booted
  noRemoval n hn := by rw [Dev.seqOf, Dev.rg_bump_ne d hseq]; exact h.noRemoval n hn
  noSearches := h.noSearches
  noQueries := h.noQueries
  noLists := h.noLists
  noPasses := h.noPasses
  noRuns := h.noRuns
  noJobs := h.noJobs
  noFence := h.noFence
  noEmpty := h.noEmpty
  noPoolOps := h.noPoolOps
  noPoolJobs := h.noPoolJobs
  noReqs := h.noReqs

end Stray

section Commands
variable {s : State} {t : Nat}

/-- Every row that writes a descriptor submits it to its window, with the row's OPCODE. -/
theorem goes_descriptor {c : Instr} {op : Nat} {src : Src} {x : Bytes} (hc : Spec.descriptor c = some (t, op, src, x))
    (hcore : (Spec.node s t).coreOn = true) : Spec.Goes c s ((Spec.node s t).submit src (withOp op x)) := by
  have hexec : exec c s = s.runIf t Dev.coreOn fun d => d.submit src (withOp op x) := by
    unfold Spec.descriptor at hc
    split at hc <;> cases hc <;> rfl
  rw [Spec.Goes, hexec, State.runIf_pos _ _ _ _ hcore]

theorem goes_cancel (hcore : (Spec.node s t).coreOn = true) (src : Src) (x : Bytes) :
    Spec.Goes (.cancel t src x) s ((Spec.node s t).submit src (withOp 0x1F x)) :=
  State.runIf_pos s t Dev.coreOn (fun d => d.submit src (withOp 0x1F x)) hcore

theorem goes_runCancel (hcore : (Spec.node s t).coreOn = true) (src : Src) (x : Bytes) :
    Spec.Goes (.runCancel t src x) s ((Spec.node s t).submit src (withOp 0x2F x)) :=
  State.runIf_pos s t Dev.coreOn (fun d => d.submit src (withOp 0x2F x)) hcore

variable {p v : Nat}

theorem goes_strayWindowWrite_unbound (hcore : (Spec.node s t).coreOn = true) (hnone : (Spec.node s t).vfBib p v = none) :
    Spec.Goes (.strayWindowWrite t p v) s ((Spec.node s t).bump .BIBTAB_STRAY_COUNT) := by
  change execStrayWindowWrite t p v s = _
  rw [execStrayWindowWrite, State.runIf_pos _ _ _ _ hcore]
  simp only [Dev.srcWin_vf_unbound hnone]

theorem goes_ringRelease_unbound (hcore : (Spec.node s t).coreOn = true) (hnone : (Spec.node s t).vfBib p v = none)
    (w : Nat) (rec : Bytes) :
    Spec.Goes (.ringRelease t (.vf p v w) rec) s ((Spec.node s t).bump .BIBTAB_STRAY_COUNT) := by
  change execRingRelease t (.vf p v w) rec s = _
  rw [execRingRelease, State.runIf_pos _ _ _ _ hcore]
  simp only [Dev.srcWin_vf_unbound hnone]

end Commands

open Sys2Proof.Spec

/-- Settles O17: a VF without a bib has no window, so that whatever is written there is only counted; a node that is
quiet stays so. -/
theorem strayWindowWritesAreCounted : Obligations.StrayWindowWritesAreCounted := by
  unfold Obligations.StrayWindowWritesAreCounted
  refine ⟨fun s t p v => goes_strayWindowWrite_unbound,
    fun s t p v w rec hcore hnone => goes_ringRelease_unbound hcore hnone w rec,
    fun c s t p v w x hc hcore hnone => ?_⟩
  have hsubmit (y : Bytes) : (node s t).submit (.vf p v w) y = ((node s t).bump .BIBTAB_STRAY_COUNT).pump :=
    Dev.submit_stray hcore (Dev.srcWin_vf_unbound hnone w) y
  have hgoes : Goes c s ((node s t).bump .BIBTAB_STRAY_COUNT).pump := by
    rcases hc with ⟨op, hop⟩ | rfl | rfl | rfl
    · simpa only [hsubmit] using goes_descriptor hop hcore
    · simpa only [hsubmit] using goes_cancel hcore (.vf p v w) x
    · simpa only [hsubmit] using goes_runCancel hcore (.vf p v w) x
    · simpa only [hsubmit] using goes_unknownOpcode s t (.vf p v w) x hcore
  refine ⟨hgoes, fun hquiet => ?_⟩
  have hstill : ((node s t).bump .BIBTAB_STRAY_COUNT).Quiet := hquiet.bump (by decide) (by decide)
  rwa [hstill.pump] at hgoes

end Sys2Proof.Machine

/-!
PROOFS. Command windows: what lands and is admitted, and completion entries (R33, R136 to R148, Table 06.4).
-/
namespace Sys2Proof

/-! ## Numbers in little-endian records (R10) -/

theorem length_le (n v : Nat) : (le n v).length = n := by
  induction n generalizing v with
  | zero => rfl
  | succ n ih => simp [le, ih]

theorem leNat_le (n v : Nat) : leNat (le n v) = v % 2 ^ (8 * n) := by
  induction n generalizing v with
  | zero => simp [le, leNat, Nat.mod_one]
  | succ n ih =>
    have hpow : 2 ^ (8 * (n + 1)) = 256 * 2 ^ (8 * n) := by rw [Nat.mul_succ, Nat.pow_add]; omega
    simp only [le, leNat, ih, BitVec.toNat_ofNat, hpow, Nat.mod_mul]

/-- A number at the start of a record is read back, cut to its bytes. -/
theorem un_field (n v : Nat) (b : Bytes) : un n (le n v ++ b) 0 = v % 2 ^ (8 * n) := by
  rw [un, sub, List.drop_zero, List.take_left' (length_le n v), leNat_le]

theorem un_last_field (n v : Nat) : un n (le n v) 0 = v % 2 ^ (8 * n) := by
  simpa using un_field n v []

/-- A read behind the first number of a record is a read of the rest. -/
theorem un_skip {m off : Nat} (h : m ≤ off) (n v : Nat) (b : Bytes) :
    un n (le m v ++ b) off = un n b (off - m) := by
  have hdrop : (le m v).drop off = [] := List.drop_eq_nil_of_le (by rw [length_le]; exact h)
  rw [un, sub, List.drop_append, hdrop, List.nil_append, length_le]; rfl

/-! ## Tables -/

/-- An entry set in a table of which no entry is picked is the only one that may be. -/
theorem Tab.filterMap_ins {α β : Type} {f : Nat × α → Option β} {t : Tab α} (h : ∀ p ∈ t, f p = none) (n : Nat) (v : α) :
    (Tab.ins t n v).filterMap f = (f (n, v)).toList := by
  induction t with
  | nil => cases hf : f (n, v) <;> simp [Tab.ins, hf]
  | cons p r ih =>
    obtain ⟨hp, hr⟩ := List.forall_mem_cons.mp h
    have hrest : r.filterMap f = [] := List.filterMap_eq_nil_iff.mpr hr
    simp only [Tab.ins]
    split
    · cases hf : f (n, v) <;> simp [hf, hp, hrest]
    · split
      · cases hf : f (n, v) <;> simp [hf, hrest]
      · rw [List.filterMap_cons, hp]
        exact ih hr

theorem Tab.mem_of_find {α : Type} {t : Tab α} {n : Nat} {v : α} (h : Tab.find t n = some v) : (n, v) ∈ t := by
  induction t with
  | nil => cases h
  | cons p r ih =>
    rw [Tab.find] at h
    split at h
    · next heq =>
      subst heq
      cases h
      exact List.mem_cons_self
    · exact List.mem_cons_of_mem _ (ih h)

namespace Machine

/-! ## Completion entries (R146, R148, Table 06.4) -/

theorem winSvc_le (k : Nat) : winSvc k ≤ 7 := by
  unfold winSvc
  split <;> omega

theorem length_entryBytes (c : Cpl) (flags load phase : Nat) : (entryBytes c flags load phase).length = 32 := by
  simp only [entryBytes, List.length_append, length_le]

/-- Table 06.4: the fields of an entry, each cut to its bytes. -/
theorem entryBytes_fields (c : Cpl) (flags load phase : Nat) :
    let e := entryBytes c flags load phase
    un 16 e 0 = c.result % 2 ^ 128 ∧ u32 e 0x10 = c.tag % 2 ^ 32 ∧ u8 e 0x14 = c.status % 256
    ∧ u8 e 0x15 = flags % 256 ∧ u16 e 0x16 = load % 65536
    ∧ u16 e 0x18 = (winSvc c.win * 8192 + c.credits) % 65536 ∧ u16 e 0x1A = c.gen % 65536 ∧ u8 e 0x1C = c.opcode % 256
    ∧ u16 e 0x1D = 0 ∧ u8 e 0x1F = phase * 128 % 256 := by
  refine ⟨?_, ?_, ?_, ?_, ?_, ?_, ?_, ?_, ?_, ?_⟩ <;>
    simp [entryBytes, u8, u16, u32, un_skip, un_field, un_last_field]

section Rings
variable {d : Dev} {rk : Nat} {c : Cpl}

theorem Dev.ring_setRing_self (d : Dev) (rk : Nat) (x : Ring) : (d.setRing rk x).ring rk = x := by
  rw [Dev.ring, Dev.setRing, Tab.find_ins_self, Option.getD_some]

theorem Dev.ring_setRing_other {j : Nat} (h : j ≠ rk) (x : Ring) : (d.setRing rk x).ring j = d.ring j := by
  rw [Dev.ring, Dev.setRing, Tab.find_ins_other _ _ h, Dev.ring]

/-- R148: the frame that brings an entry to the slot of its ring's write count. -/
def Dev.entryFrame (d : Dev) (rk : Nat) (c : Cpl) : Frame :=
  let r := d.ring rk
  let len := d.frameLen (d.ringDest rk) 32
  { len := len, charge := len, dest := d.ringDest rk, entry := some c, slotAddr := r.base + r.written % 2 ^ r.size * 32
    phase := (r.written / 2 ^ r.size + 1) % 2, ring := some rk, setup := r.setup, req := c.req, since := d.now }

/-- An entry that is written moves its ring's write count on, and its frame enters the end of its queue. -/
theorem Dev.writeEntry_shape (d : Dev) (rk : Nat) (c : Cpl) :
    (d.writeEntry rk c).rings = (d.setRing rk { d.ring rk with written := ((d.ring rk).written + 1) % 4294967296 }).rings
    ∧ ∃ key, key = queueKey (d.ringDest rk).outlet (if winIsPf0 c.win then 1024 else winBib c.win) (winSvc c.win)
      ∧ (d.writeEntry rk c).queues = Tab.ins d.queues key ((Tab.find d.queues key).getD [] ++ [d.entryFrame rk c]) := by
  cases hre : c.rerouted <;> cases hreq : c.req <;> simp only [Dev.writeEntry, hre, hreq] <;>
    exact ⟨rfl, _, rfl, by simp only [Dev.entryFrame, hreq]; rfl⟩

theorem Dev.ring_congr {d e : Dev} (h : d.rings = e.rings) (k : Nat) : d.ring k = e.ring k := by
  rw [Dev.ring, h, Dev.ring]

end Rings

/-- Settles O54: the layout is `entryBytes_fields`, the slot `Dev.writeEntry_shape`. -/
theorem completionEntriesFollowTheirTable : Obligations.CompletionEntriesFollowTheirTable := by
  unfold Obligations.CompletionEntriesFollowTheirTable
  refine ⟨fun c flags load phase hresult htag hstatus hflags hload hcredits hgen hop hphase => ?_, fun d rk c => ?_⟩
  · have hsvc := winSvc_le c.win
    have hfields := entryBytes_fields c flags load phase
    rw [Nat.mod_eq_of_lt hresult, Nat.mod_eq_of_lt htag, Nat.mod_eq_of_lt hstatus, Nat.mod_eq_of_lt hflags,
      Nat.mod_eq_of_lt hload, Nat.mod_eq_of_lt (by omega), Nat.mod_eq_of_lt hgen, Nat.mod_eq_of_lt hop,
      Nat.mod_eq_of_lt (by omega)] at hfields
    exact ⟨length_entryBytes c flags load phase, hfields⟩
  · obtain ⟨hrings, key, hkey, hqueues⟩ := d.writeEntry_shape rk c
    have hself := (Dev.ring_congr hrings rk).trans (d.ring_setRing_self rk _)
    refine ⟨by rw [hself], by rw [hself],
      fun j hj => (Dev.ring_congr hrings j).trans (Dev.ring_setRing_other hj _), ?_⟩
    refine ⟨(d.ringDest rk).outlet, if winIsPf0 c.win then 1024 else winBib c.win, d.entryFrame rk c, [], rfl, rfl, rfl,
      rfl, ?_⟩
    rw [← hkey, hqueues, Tab.find_ins_self]

/-! ## Landing (R142 to R147) -/

section Landing
variable {d : Dev} {k : Nat} {x : Bytes}

/-- R143: neither the ring that a descriptor names nor ring 0 of its bib is enabled. -/
def Dev.noRing (d : Dev) (k : Nat) (x : Bytes) : Bool :=
  !(d.ring (ringKey k (u8 x 1 % 8))).en && !(d.ring (if winIsPf0 k then k else ringKey k 0)).en

/-- R145: a window once the credit of a descriptor that takes no slot has returned; a full FIFO had none. -/
def Win.refused (w : Win) : Win := if 256 ≤ w.fifo.length then w else w.credit 1

theorem Win.refused_fifo (w : Win) : w.refused.fifo = w.fifo := by
  unfold Win.refused; split <;> rfl

theorem Win.refused_dropped (w : Win) : w.refused.dropped = w.dropped := by
  unfold Win.refused; split <;> rfl

theorem Win.refused_accum (w : Win) :
    w.refused.accum = if 256 ≤ w.fifo.length then w.accum else min 511 (w.accum + 1) := by
  unfold Win.refused; split <;> rfl

/-- R143: with no ring to answer in, the descriptor is dropped, counted and recorded. -/
theorem Dev.landIn_noRing (hring : d.noRing k x = true) :
    d.landIn k x = ((d.setWin k { (d.win k).refused with dropped := min 255 ((d.win k).dropped + 1) }).reportWin
      SRC_CW_NORING k (u8 x 1 % 8) 10, none) := by
  unfold Dev.landIn
  exact if_pos hring

theorem Dev.noteOutcome_now (d : Dev) (desc : Bytes) (st : Nat) : (d.noteOutcome desc st).now = d.now := by
  unfold Dev.noteOutcome
  split <;> rfl

theorem Dev.noteOutcome_bib (d : Dev) (desc : Bytes) (st b : Nat) : (d.noteOutcome desc st).bib b = d.bib b := by
  unfold Dev.noteOutcome
  split <;> rfl

/-- The completion of a descriptor that is refused at landing: its own TAG and OPCODE, RESULT 0 (R147). -/
def Dev.refusal (d : Dev) (k : Nat) (x : Bytes) : Cpl :=
  { win := k, bib := if winIsPf0 k then none else some (winBib k), ring := u8 x 1 % 8, tag := u32 x 4
    gen := if winIsPf0 k then 0 else (d.bib (winBib k)).gen, opcode := u8 x 0, irq := bit (u8 x 2) 0
    landed := d.now, status := pickStatus (d.landFails k x) ST_OK, flags := 0, result := 0 }

/-- A window that refused a descriptor with a status; ST_NO_CREDIT is counted (R144). -/
def Win.refusedWith (w : Win) (st : Nat) : Win :=
  { w.refused with nocredit := if st = ST_NO_CREDIT then min 65535 (w.nocredit + 1) else w.nocredit }

/-- R145, R147: a descriptor that fails a check takes no slot, and its completion is posted. -/
theorem Dev.landIn_refused (hring : d.noRing k x = false) (hfails : d.landFails k x ≠ []) :
    d.landIn k x = (((d.setWin k ((d.win k).refusedWith (pickStatus (d.landFails k x) ST_OK))).noteOutcome x
      (pickStatus (d.landFails k x) ST_OK)).post (d.refusal k x), none) := by
  unfold Dev.landIn
  refine (if_neg (by simpa [Dev.noRing] using hring)).trans ?_
  cases hf : d.landFails k x with
  | nil => exact absurd hf hfails
  | cons c cs =>
    simp only [Dev.refusal, hf, Dev.noteOutcome_bib, Dev.noteOutcome_now]
    rfl

/-- The request that a descriptor becomes as it takes its slot, judged as `j` says. -/
def Dev.landedReq (d : Dev) (k : Nat) (x : Bytes) (j : Option Judged) (excused : Bool) : Req :=
  { desc := x, win := k, bib := if winIsPf0 k then none else some (winBib k)
    gen := if winIsPf0 k then 0 else (d.bib (winBib k)).gen, landed := d.now, part := (d.bib (winBib k)).part
    judged := j, loader := d.loader, excused := excused }

/-- The node once a descriptor has taken the last place of its FIFO: a bucket may have given a token. -/
def Dev.slotTaken (d : Dev) (k : Nat) (q : Req) (t : Tab Contract) : Dev :=
  { d with contracts := t, ids := d.ids + 1, reqs := Tab.ins d.reqs d.ids q
           wins := Tab.ins d.wins k { d.win k with fifo := (d.win k).fifo ++ [d.ids] } }

/-- R97: a judgement moves buckets alone. -/
theorem Dev.judge_eq (d : Dev) (b svc : Nat) : ∃ j t, d.judge b svc = (j, { d with contracts := t }) := by
  unfold Dev.judge
  split <;> exact ⟨_, _, rfl⟩

/-- R142, R145: a descriptor that passes takes the last place of its FIFO under a number of its own. -/
theorem Dev.landIn_taken (hring : d.noRing k x = false) (hpass : d.landFails k x = []) :
    ∃ j e t, d.landIn k x = (d.slotTaken k (d.landedReq k x j e) t, some d.ids) := by
  obtain ⟨j, t, hjudged⟩ : ∃ j t, (if winIsPf0 k then (none, d) else d.judge (winBib k) (winSvc k))
      = (j, { d with contracts := t }) := by
    split
    · exact ⟨none, d.contracts, rfl⟩
    · exact d.judge_eq _ _
  refine ⟨j, d.onDegraded k, t, ?_⟩
  unfold Dev.landIn
  refine (if_neg (by simpa [Dev.noRing] using hring)).trans ?_
  simp only [hpass, hjudged]
  rfl

theorem Dev.fifo_room_of_passes (hpass : d.landFails k x = []) : (d.win k).fifo.length < 256 := by
  simp only [Dev.landFails, List.append_eq_nil_iff, ite_eq_right_iff] at hpass
  obtain ⟨⟨⟨-, hroom⟩, -⟩, -⟩ := hpass
  exact Nat.not_le.mp fun hfull => List.cons_ne_nil _ _ (hroom hfull)

theorem Dev.win_slotTaken (q : Req) (t : Tab Contract) :
    (d.slotTaken k q t).win k = { d.win k with fifo := (d.win k).fifo ++ [d.ids] } := by
  rw [Dev.win, Dev.slotTaken, Tab.find_ins_self, Option.getD_some]

theorem Dev.find_slotTaken (q : Req) (t : Tab Contract) : Tab.find (d.slotTaken k q t).reqs d.ids = some q :=
  Tab.find_ins_self _ _ _

end Landing

/-- Settles O53: the three ways that a landing ends. -/
theorem landingTakesOrRefuses : Obligations.LandingTakesOrRefuses := by
  unfold Obligations.LandingTakesOrRefuses
  intro d k x full noRing hfull hnoRing
  subst hfull
  change noRing = d.noRing k x at hnoRing
  subst hnoRing
  simp only [decide_eq_true_eq, decide_eq_false_iff_not]
  refine ⟨fun hring => ?_, fun hring hfails => ?_, fun hring hpass => ?_⟩
  · rw [Dev.landIn_noRing hring, ← Win.refused_accum]
    unfold Win.refused
    split <;> rfl
  · exact ⟨_, Dev.landIn_refused hring hfails, Win.refused_fifo _, Win.refused_dropped _, Win.refused_accum _, rfl⟩
  · obtain ⟨j, e, t, hland⟩ := Dev.landIn_taken hring hpass
    rw [hland]
    exact ⟨Nat.not_le.mpr (Dev.fifo_room_of_passes hpass), rfl, by rw [Dev.win_slotTaken],
      ⟨_, Dev.find_slotTaken _ _, rfl, rfl, rfl, rfl, rfl⟩, rfl, rfl, rfl, rfl, rfl, rfl⟩

/-! ## Submission (R136) -/

open Sys2Proof.Spec

/-- Settles O14: `Dev.submit` lands the descriptor and lets everything go on. -/
theorem descriptorsAreSubmitted : Obligations.DescriptorsAreSubmitted := by
  unfold Obligations.DescriptorsAreSubmitted
  intro c s t op src x hc hcore
  exact goes_descriptor hc hcore

/-! ## Admission in a quiet node (R33, R145, R153) -/

theorem Dev.fifo_eq_nil {d : Dev} (h : ∀ w ∈ d.wins, w.2.fifo = []) (k : Nat) : (d.win k).fifo = [] := by
  rw [Dev.win]
  cases hfind : Tab.find d.wins k with
  | none => rfl
  | some w => exact h _ (Tab.mem_of_find hfind)

section Quiet
variable {d : Dev} {k : Nat} {x : Bytes} {j : Option Judged} {e : Bool} {t : Tab Contract}

/-- A descriptor that takes its slot sets nothing going but its admission. -/
theorem Dev.Settled.slotTaken (h : d.Settled) (q : Req) : (d.slotTaken k q t).Settled where
  booted := h.booted
  noSearches := h.noSearches
  noQueries := h.noQueries
  noLists := h.noLists
  noPasses := h.noPasses
  noRuns := h.noRuns
  noJobs := h.noJobs
  noFence := h.noFence
  noRemoval := h.noRemoval
  noEmpty := h.noEmpty
  noPoolOps := h.noPoolOps
  noPoolJobs := h.noPoolJobs

/-- Where every FIFO was empty, the descriptor that takes its slot is the only one that waits. -/
theorem Dev.waitingHeads_slotTaken (hempty : ∀ w ∈ d.wins, w.2.fifo = []) (q : Req) :
    (d.slotTaken k q t).waitingHeads = [(d.ids, q)] := by
  have hpick (p : Nat × Win) (hp : p ∈ d.wins) :
      (p.2.fifo.head?.bind fun r => (Tab.find (d.slotTaken k q t).reqs r).map fun q => (r, q)) = none := by
    rw [hempty p hp]; rfl
  rw [Dev.waitingHeads]
  refine (Tab.filterMap_ins hpick k _).trans ?_
  simp [Dev.fifo_eq_nil hempty k, Dev.find_slotTaken]

/-- R33: it finds the contexts that were free before it. -/
theorem Dev.ctxFor_slotTaken (hnone : d.reqs = []) (part : Nat) :
    (d.slotTaken k (d.landedReq k x j e) t).ctxFor part = d.ctxFor part := by
  have hreqs : (d.slotTaken k (d.landedReq k x j e) t).reqs = [(d.ids, d.landedReq k x j e)] := by
    simp only [Dev.slotTaken, hnone, Tab.ins]
  simp only [Dev.ctxFor, Dev.ctxOf, Dev.ctxShared, hreqs, hnone]
  rfl

/-- R153, R543: nothing stands before it in its window. -/
theorem Dev.mayAdmit_slotTaken (hnone : d.reqs = []) (hready : winIsPf0 k = true → 3 ≤ d.power) :
    (d.slotTaken k (d.landedReq k x j e) t).mayAdmit d.ids (d.landedReq k x j e) = true := by
  have hclear : (d.slotTaken k (d.landedReq k x j e) t).fenceClear d.ids (d.landedReq k x j e) = true := by
    simp [Dev.fenceClear, Dev.slotTaken, hnone, Tab.ins]
  have hpower : (d.slotTaken k (d.landedReq k x j e) t).power = d.power := rfl
  rw [Dev.mayAdmit, hclear, hpower]
  cases hpf0 : winIsPf0 k with
  | true => simpa [Dev.landedReq, hpf0] using hready hpf0
  | false => simp [Dev.landedReq, hpf0]

/-- R33: it is the next head, with the context that is free for it. -/
theorem Dev.nextHead_slotTaken (h : Takes d k x) :
    (d.slotTaken k (d.landedReq k x j e) t).nextHead = some ((d.ids, d.landedReq k x j e), contextOf d k x) := by
  have hnone := h.quiet.noReqs
  have hdesc : (d.landedReq k x j e).desc = x := rfl
  have hpart : (d.landedReq k x j e).part = (d.bib (winBib k)).part := rfl
  unfold Dev.nextHead contextOf
  rw [Dev.waitingHeads_slotTaken h.empty]
  cases hneeds : needsCtx (u8 x 0) with
  | false => simp [Dev.mayAdmit_slotTaken hnone h.ready, hdesc, hneeds, earliest]
  | true =>
    rcases h.context hneeds with hctx | hctx <;>
      simp [Dev.mayAdmit_slotTaken hnone h.ready, Dev.ctxFor_slotTaken hnone, hdesc, hpart, hneeds, hctx, earliest]

/-- R142: what passes at landing finds admission going on. -/
theorem Dev.admitting_of_passes (hcore : d.coreOn = true) (hpass : d.landFails k x = []) : d.admitting = true := by
  simp only [Dev.landFails, List.append_eq_nil_iff, ite_eq_right_iff, List.cons_ne_nil, imp_false, Bool.or_eq_true,
    not_or, decide_eq_true_eq] at hpass
  obtain ⟨-, ⟨⟨⟨hfence, hdrain⟩, happly⟩, -⟩, -⟩ := hpass
  simp [Dev.admitting, hcore, hfence, hdrain, happly]

/-- What lands alone in a quiet node is admitted at once. -/
theorem Dev.pump_slotTaken (h : Takes d k x) : (d.slotTaken k (d.landedReq k x j e) t).pump
    = Dev.pumpN 1 ((d.slotTaken k (d.landedReq k x j e) t).admitReq d.ids (contextOf d k x)) := by
  have hsettled : (d.slotTaken k (d.landedReq k x j e) t).Settled := h.quiet.toSettled.slotTaken _
  have hone : (Tab.count (d.slotTaken k (d.landedReq k x j e) t).reqs fun q => q.waiting) = 1 := by
    simp only [Dev.slotTaken, h.quiet.noReqs]
    rfl
  have hon : (d.slotTaken k (d.landedReq k x j e) t).coreOn = true := h.on
  have hadm : (d.slotTaken k (d.landedReq k x j e) t).admitting = true :=
    (Dev.admitting_of_passes h.on h.lands :)
  rw [Dev.pump_on hon, hone, hsettled.startDue, hsettled.poolGo, hsettled.pumpN_succ,
    Dev.admitNext_some hadm (Dev.nextHead_slotTaken h)]

/-- Only CANCEL and RUN_CANCEL act as they land. -/
theorem Dev.landed_slotTaken (hsearch : u8 x 0 ≠ 0x1F) (hrun : u8 x 0 ≠ 0x2F) :
    (d.slotTaken k (d.landedReq k x j e) t).landed (some d.ids) = d.slotTaken k (d.landedReq k x j e) t := by
  have hdesc : (d.landedReq k x j e).desc = x := rfl
  simp [Dev.landed, Dev.find_slotTaken, hdesc, hsearch, hrun]

end Quiet

/-- A window that takes a descriptor has a ring for what would answer it. -/
theorem Dev.noRing_of_en {d : Dev} {k : Nat} {x : Bytes} (h : (d.ring (ringKey k (u8 x 1 % 8))).en = true) :
    d.noRing k x = false := by
  simp [Dev.noRing, h]

theorem Dev.land_eq_landIn {d : Dev} {k : Nat} {src : Src} (hcore : d.coreOn = true) (hwin : d.srcWin src = some k)
    (htakes : d.discards k = false) (x : Bytes) : d.land src x = d.landIn k x := by
  simp [Dev.land, hcore, hwin, htakes]

theorem u8_withOp {op : Nat} (h : op < 256) (x : Bytes) : u8 (fit 64 (withOp op x)) 0 = op := by
  have hfirst : u8 (fit 64 (withOp op x)) 0 = (BitVec.ofNat 8 op).toNat + 256 * 0 := rfl
  rw [hfirst, BitVec.toNat_ofNat]
  omega

/-- The opcodes of the rows that write a descriptor are bytes; CANCEL and RUN_CANCEL are not among them. -/
theorem descriptor_op {c : Instr} {t op : Nat} {src : Src} {x : Bytes} (hc : descriptor c = some (t, op, src, x)) :
    op < 256 ∧ op ≠ 0x1F ∧ op ≠ 0x2F := by
  unfold descriptor at hc
  split at hc <;> cases hc <;> decide

/-- Settles O13: the descriptor is the only head, so that the first round of `Dev.pump` admits it. -/
theorem descriptorsRunAtOnceInAQuietNode : Obligations.DescriptorsRunAtOnceInAQuietNode := by
  unfold Obligations.DescriptorsRunAtOnceInAQuietNode
  intro c s t op src x k hc hwin htakes h
  obtain ⟨hbyte, hsearch, hrun⟩ := descriptor_op hc
  obtain ⟨j, e, b, hland⟩ := Dev.landIn_taken (Dev.noRing_of_en h.ring) h.lands
  have hgoes := descriptorsAreSubmitted c s t op src x hc h.on
  rw [Dev.land_eq_landIn h.on hwin htakes, hland] at hgoes
  dsimp only at hgoes
  rw [hland, ← Dev.pump_slotTaken h]
  rwa [Dev.landed_slotTaken (by rwa [u8_withOp hbyte]) (by rwa [u8_withOp hbyte])] at hgoes

end Machine

end Sys2Proof

/-!
PROOFS. Registers with a behaviour of their own (R15, R91, R158, R511, R512, R518, R520, R537, R544).
-/
namespace Sys2Proof.Machine

section Special
variable {d : Dev} {port inst off v size : Nat}

/-! ## Writes through a port -/

/-- R158: eight bytes at the base register of an admin ring. -/
theorem Dev.writeReg_admBase (hopen : d.blockOpen 7 inst = true) :
    d.writeReg port 7 inst 0x2000 8 v = d.admBase inst (v % 2 ^ 64) := by
  rw [Dev.writeReg_open rfl hopen (fun _ => Nat.le_refl _) (.inr rfl) rfl, Dev.putWord_whole (by decide) (by decide)]
  rfl

/-- R520: four bytes at PANEL_CMD. -/
theorem Dev.writeReg_panelCmd (hopen : d.blockOpen 0x65 0 = true) :
    d.writeReg port 0x65 0 4 4 v = d.panelCmd (v % 2 ^ 32) := by
  rw [Dev.writeReg_open rfl hopen (by decide) (.inl rfl) rfl, Dev.putWord_whole (by decide) (by decide)]
  rfl

/-- R537: four bytes at PWR_RST. -/
theorem Dev.writeReg_softReset (hopen : d.blockOpen 5 0 = true) :
    d.writeReg port 5 0 0xC 4 v = d.softReset (v % 2 ^ 32) := by
  rw [Dev.writeReg_open rfl hopen (by decide) (.inl rfl) rfl, Dev.putWord_whole (by decide) (by decide)]
  rfl

/-- R544: the registers of the boot block, written by port 0 alone, store what is written, but for the recovery command. -/
theorem Dev.writeReg_boot (hoff : 0x1800 ≤ off) (hrcv : off ≠ 0x1814) (hfields : fieldsAt 0x102 off ≠ [])
    (hsize : size = if reg64 (fieldsAt 0x102 off) then 8 else 4) (halign : off % size = 0) :
    d.writeReg 0 0x102 inst off size v = d.storeReg 0x102 0 off (v % 2 ^ (8 * size)) := by
  have hwhole : size = 4 ∨ size = 8 := by split at hsize <;> simp [hsize]
  have hbar2 : ¬ off < 0x1800 := Nat.not_lt.mpr hoff
  have hput : d.writeReg 0 0x102 inst off size v = d.putWord 0 0x102 0 off size v := by
    rcases hwhole with rfl | rfl <;> simp [Dev.writeReg, outsideBlocks, halign, hbar2]
  rw [hput, Dev.putWord_whole hfields hsize]
  simp [Dev.putReg1, hrcv]

/-! ## The effects -/

theorem Dev.softReset_key (hkey : v % 65536 = 0x5AA5) : d.softReset (v % 2 ^ 32) = d.nodeReset CAUSE_SOFT := by
  have hlow : v % 2 ^ 32 % 65536 = v % 65536 := Nat.mod_mod_of_dvd v (by decide)
  rw [Dev.softReset, hlow, if_pos hkey]

theorem Dev.panelCmd_on (hcore : d.coreOn = true) : d.panelCmd v =
    ((maskSlots (bits v 7 4)).foldl (fun d n => if d.inWindow n then d.cancelRemoval n else d)
      ((maskSlots (bits v 3 0)).foldl Dev.removeRequest d)).panelStep := by
  simp [Dev.panelCmd, hcore]

theorem Dev.admBase_mod : d.admBase inst (v % 2 ^ 64) = d.admBase inst v := by
  rw [Dev.admBase, Nat.mod_mod, Dev.admBase]

/-- R15: a 1 written to REF_PEND clears it. -/
def Dev.clearPend (d : Dev) (v : Nat) : Dev := if bit v 0 then d.setRg .REF_PEND_PEND 0 else d

end Special

/-! ## The commands -/

section Commands
variable {s : State} {t : Nat}

theorem goes_identifyWrite (hports : (Spec.node s t).portsOn = true) (v : Nat) :
    Spec.Goes (.identifyWrite t v) s ((Spec.node s t).onBlock 0x65 0 fun d =>
      (d.setRg .PANEL_CFG_ID (bits v 8 8)).setRg .PANEL_CFG_LOCK (bits v 3 0)) :=
  State.runIf_pos s t Dev.portsOn (fun d => d.onBlock 0x65 0 fun d =>
    (d.setRg .PANEL_CFG_ID (bits v 8 8)).setRg .PANEL_CFG_LOCK (bits v 3 0)) hports

/-- R512: what the hardware sets in the cycle of a clear stands. -/
theorem goes_refPendClear (hports : (Spec.node s t).portsOn = true) (v : Nat) (hw : Bool) :
    Spec.Goes (.refPendClear t v hw) s (if hw then ((Spec.node s t).onBlock 3 0 fun d => d.clearPend v).setRg .REF_PEND_PEND 1
      else (Spec.node s t).onBlock 3 0 fun d => d.clearPend v) :=
  State.runIf_pos s t Dev.portsOn (fun d => if hw then (d.onBlock 3 0 fun d => d.clearPend v).setRg .REF_PEND_PEND 1
    else d.onBlock 3 0 fun d => d.clearPend v) hports

end Commands

open Sys2Proof.Spec

/-- Settles O11: each register is reached by a write of its own width, and acts as its rule says. -/
theorem specialRegistersComplete : Obligations.SpecialRegistersComplete := by
  unfold Obligations.SpecialRegistersComplete
  refine ⟨fun s t port i v hports hopen => ?admin, fun s t port v hcore hopen => ?panel,
    fun s t port v hports hopen hkey => ?reset, fun s t inst off v size hports hoff hrcv hfields hsize halign => ?boot,
    fun s t v hports hopen => ?identify, fun s t v hports hopen => ⟨fun hone => ?clears, fun hzero => ?keeps⟩,
    fun s t v hports => ⟨fun hclosed => ?identifyStray, fun hclosed => ⟨?pendStray, ?errclassStray⟩⟩⟩
  case admin =>
    have hgoes := goes_registerWrite s t port 7 i 0x2000 8 v hports
    rwa [Dev.writeReg_admBase hopen, Dev.admBase_mod] at hgoes
  case panel =>
    have hgoes := goes_registerWrite s t port 0x65 0 4 4 v (Dev.portsOn_of_coreOn hcore)
    rwa [Dev.writeReg_panelCmd hopen, Dev.panelCmd_on hcore] at hgoes
  case reset =>
    have hgoes := goes_registerWrite s t port 5 0 0xC 4 v hports
    rwa [Dev.writeReg_softReset hopen, Dev.softReset_key hkey] at hgoes
  case boot =>
    have hgoes := goes_registerWrite s t 0 0x102 inst off size v hports
    rwa [Dev.writeReg_boot hoff hrcv hfields hsize halign] at hgoes
  case identify =>
    have hgoes := goes_identifyWrite hports v
    rwa [Dev.onBlock_open _ hopen] at hgoes
  case clears =>
    have hgoes := goes_refPendClear hports v
    simp only [Dev.onBlock_open _ hopen, Dev.clearPend, hone, if_true] at hgoes
    exact ⟨hgoes false, hgoes true⟩
  case keeps =>
    have hgoes := goes_refPendClear hports v
    simp only [Dev.onBlock_open _ hopen, Dev.clearPend, hzero] at hgoes
    exact ⟨hgoes false, hgoes true⟩
  case identifyStray =>
    have hgoes := goes_identifyWrite hports v
    rwa [Dev.onBlock_closed _ hclosed] at hgoes
  case pendStray =>
    have hgoes := goes_refPendClear hports v false
    rwa [Dev.onBlock_closed _ hclosed] at hgoes
  case errclassStray =>
    have hgoes := goes_errclassWrite s t v hports
    rwa [Dev.onBlock_closed _ hclosed] at hgoes

end Sys2Proof.Machine

/-!
PROOFS. A refuted statement about the events of the windows (R149 to R152, R158).
-/
namespace Sys2Proof.Machine
open Sys2Proof.Spec

/-- An admin command's completion in the window of PF0 of port B. -/
def portBCpl : Cpl :=
  { win := pf0Win 1, bib := none, ring := 0, tag := 0, gen := 0, opcode := 0x6B, irq := false, landed := 0
    status := ST_OK, flags := 0, result := 0 }

/-- A node in ACTIVE whose admin ring of port B holds that completion back, from split time 0 on. -/
def portBFull : State :=
  { dev := ({ rings := [(pf0Win 1, { en := true, wait := [(0, portBCpl)] })] } : Dev).setRg .PWR_STATE_STATE 4
    pending := [] }

/-- ADDR of Referee record 8,192, the first that serves units (R501), after a command. -/
def firstAddr (r : Host.Outcome State Fault Refusal) : Option Nat :=
  match r with
  | .next s => (Tab.find s.dev.recs 8192).map (·.addr)
  | _ => none

/-- RING_FULL_TIMEOUT of a PF0 ring records ring 0, the only ring of its window (R157, Table 20.2). -/
theorem firstAddr_ringFullTimeout : firstAddr (exec (.ringFullTimeout 1000000 (pf0Win 1)) portBFull) = some 0 := by
  decide

/-- Refutes O19: the admin ring of port B is number 16,385, and its full ring is recorded with ADDR 0, not 16,385 % 8. -/
theorem not_windowEventsComplete : ¬ Obligations.WindowEventsComplete := by
  unfold Obligations.WindowEventsComplete
  intro h
  obtain ⟨-, -, -, -, -, -, -, -, -, -, hfull, -, -⟩ := h
  have hgoes := hfull portBFull 1000000 (pf0Win 1) 0 portBCpl (by decide) (by decide) (by decide) rfl
  have haddr := congrArg firstAddr hgoes
  rw [firstAddr_ringFullTimeout] at haddr
  exact absurd haddr (by decide)

end Sys2Proof.Machine

/-!
PROOFS. The events of a port: resets, losses, configuration requests, reference clocks, a degraded link (R159, R161, R449, R535,
R539, Tables 06.9 and 06.10).
-/
namespace Sys2Proof.Machine

section Ports
variable {d : Dev} {p : Nat}

/-! ## A reset of a VF (R161) -/

/-- What a VF holds of its port is lost with it: its MSI-X state and its power state. -/
def Dev.dropVf (d : Dev) (p v : Nat) : Dev :=
  d.updPort p fun x => { x with msix := Tab.del x.msix v, d3 := x.d3.filter (· != v) }

/-- R161: a VF that carries a bib resets it and clears its rings, unless a composition change is leaving the VF. -/
def Dev.flrVf (d : Dev) (p v : Nat) : Dev :=
  let d := d.dropVf p v
  match d.vfBib p v with
  | none => d
  | some (b, path) =>
    if path != (d.bib b).path then d
    else [0, 1, 2, 3, 4, 5, 6, 7].foldl (fun d r => d.clearRing (bibWin b path r)) (d.bibEvent b .resetPf0 none)

/-- The port does not say which bib a VF carries. -/
theorem Dev.vfBib_dropVf (d : Dev) (p v : Nat) : (d.dropVf p v).vfBib p v = d.vfBib p v := rfl

theorem Dev.flrVf_bound {v b path : Nat} (hbib : d.vfBib p v = some (b, path)) (hpath : path = (d.bib b).path) :
    d.flrVf p v = [0, 1, 2, 3, 4, 5, 6, 7].foldl (fun d r => d.clearRing (bibWin b path r))
      ((d.dropVf p v).bibEvent b .resetPf0 none) := by
  have hsame : ((d.dropVf p v).bib b).path = path := hpath.symm
  simp only [Dev.flrVf, Dev.vfBib_dropVf, hbib, hsame, bne_self_eq_false, Bool.false_eq_true, if_false]

theorem Dev.flrVf_unbound {v : Nat} (hnone : d.vfBib p v = none) : d.flrVf p v = d.dropVf p v := by
  simp only [Dev.flrVf, Dev.vfBib_dropVf, hnone]

/-! ## Configuration requests (R159, Table 06.9) -/

theorem Dev.cfgRequest_answering (hanswers : (d.port p).answersAt ≤ d.now) :
    (∀ f v, (d.port p).cfgField f = some v → d.cfgRequest p (.read f) = d.emit (.readData p (le 4 v)))
    ∧ (∀ n, d.cfgRequest p (.vfEnable true n) = d.updPort p fun x => { x with vfEnable := true, numVfs := min 512 n })
    ∧ (∀ n, n = 128 ∨ n = 256 ∨ n = 512 → d.cfgRequest p (.maxPayload n) = d.updPort p fun x => { x with mps := n })
    ∧ ∀ n, d.cfgRequest p (.powerState n false) = d.updPort p fun x => { x with d3 := x.d3.filter (· != n) } := by
  have hawake : ¬ d.now < (d.port p).answersAt := Nat.not_lt.mpr hanswers
  refine ⟨fun f v hfield => ?_, fun n => ?_, fun n hn => ?_, fun n => ?_⟩ <;> simp only [Dev.cfgRequest, if_neg hawake]
  · simp only [hfield]
  · simp
  · rcases hn with rfl | rfl | rfl <;> rfl
  · rfl

/-! ## A link that comes up worse (R449) -/

variable {lanes rate : Nat}

theorem Dev.linkDegraded_full (hfull : (d.port p).loadRate * (d.port p).loadWidth ≤ rate * lanes) :
    d.linkDegraded p lanes rate = d.updPort p fun x =>
      { x with up := decide (lanes > 0), rate := rate, width := lanes, degraded := x.degraded || false } := by
  have hworse : ¬ rate * lanes < (d.port p).loadRate * (d.port p).loadWidth := Nat.not_lt.mpr hfull
  simp [Dev.linkDegraded, hworse]

theorem Dev.linkDegraded_worse (hload : d.imageLoaded = true)
    (hworse : rate * lanes < (d.port p).loadRate * (d.port p).loadWidth) {e : Dev}
    (he : e = (d.updPort p fun x => { x with up := decide (lanes > 0), rate := rate, width := lanes, degraded := true }).report
      SRC_LINK_DEGRADED 6 p none (lanes % 256 + rate % 256 * 256) 0) :
    d.linkDegraded p lanes rate = { e with reqs := Tab.mapV e.reqs fun _ q =>
      if (e.winDest q.win).outlet == 2 + p then { q with excused := true } else q } := by
  subst he
  simp [Dev.linkDegraded, hload, hworse]

end Ports

/-! ## The commands -/

section Commands
variable {s : State} {t : Nat}

theorem goes_vfFlr (hcore : (Spec.node s t).coreOn = true) (p v : Nat) :
    Spec.Goes (.vfFlr t p v) s ((Spec.node s t).flrVf p v).pump :=
  State.act_pos s t Dev.coreOn (fun d => d.flrVf p v) hcore

theorem goes_pf0Flr (hcore : (Spec.node s t).coreOn = true) (p : Nat) :
    Spec.Goes (.pf0Flr t p) s ((((Spec.node s t).dropPf0 p).updPort p fun x =>
      { x with vfEnable := false, numVfs := 0, msix := [], d3 := [] }).bindingLost p).pump :=
  State.act_pos s t Dev.coreOn (fun d => ((d.dropPf0 p).updPort p fun x =>
    { x with vfEnable := false, numVfs := 0, msix := [], d3 := [] }).bindingLost p) hcore

/-- What the loss of a port's bindings does, by its kind. -/
def Dev.losePort (d : Dev) (p : Nat) : PortLoss → Dev
  | .vfEnableCleared => (d.updPort p fun x => { x with vfEnable := false, numVfs := 0 }).bindingLost p
  | .linkDown => (d.updPort p fun x => { x with up := false }).bindingLost p
  | .hotReset => (d.resetPort p).trainPort p

theorem goes_portBindingLoss (hcore : (Spec.node s t).coreOn = true) (p : Nat) (kind : PortLoss) :
    Spec.Goes (.portBindingLoss t p kind) s ((Spec.node s t).losePort p kind).pump :=
  State.act_pos s t Dev.coreOn (fun d => d.losePort p kind) hcore

theorem goes_perstAssert (hmgmt : (Spec.node s t).mgmtOn = true) (p : Nat) :
    Spec.Goes (.perstAssert t p) s (((Spec.node s t).resetPort p).updPort p fun x => { x with perst := true }).pump :=
  State.act_pos s t Dev.mgmtOn (fun d => (d.resetPort p).updPort p fun x => { x with perst := true }) hmgmt

theorem goes_pcieConfigRequest (hmgmt : (Spec.node s t).mgmtOn = true) (p : Nat) (cfg : CfgReq) :
    Spec.Goes (.pcieConfigRequest t p cfg) s ((Spec.node s t).cfgRequest p cfg).pump :=
  State.act_pos s t Dev.mgmtOn (fun d => d.cfgRequest p cfg) hmgmt

theorem goes_clockLoss (hmgmt : (Spec.node s t).mgmtOn = true) (clk : ClkLoss) :
    Spec.Goes (.clockLoss t clk) s ((Spec.node s t).clockLoss clk).pump :=
  State.act_pos s t Dev.mgmtOn (fun d => d.clockLoss clk) hmgmt

theorem goes_linkDegraded (hcore : (Spec.node s t).coreOn = true) (p lanes rate : Nat) :
    Spec.Goes (.linkDegraded t p lanes rate) s ((Spec.node s t).linkDegraded p lanes rate) :=
  State.runIf_pos s t Dev.coreOn (fun d => d.linkDegraded p lanes rate) hcore

end Commands

open Sys2Proof.Spec

/-- Settles O20: each command finds its domain running; the cases are those of `Dev.flrVf`, `Dev.losePort`, `Dev.cfgRequest`,
`Dev.clockLoss` and `Dev.linkDegraded`. -/
theorem portEventsComplete : Obligations.PortEventsComplete := by
  unfold Obligations.PortEventsComplete
  refine ⟨fun s t p v b path hcore hbib hpath => ?bound, fun s t p v hcore hnone => ?unbound,
    fun s t p hcore => goes_pf0Flr hcore p, fun s t p hcore => ?losses, fun s t p hmgmt => goes_perstAssert hmgmt p,
    fun s t p n hmgmt hanswers => ?config, fun s t hmgmt => ?clocks, fun s t p lanes rate hcore _ hfull => ?full,
    fun s t p lanes rate hcore hload hworse e he => ?worse⟩
  case bound =>
    have hgoes := goes_vfFlr hcore p v
    rwa [Dev.flrVf_bound hbib hpath] at hgoes
  case unbound =>
    have hgoes := goes_vfFlr hcore p v
    rwa [Dev.flrVf_unbound hnone] at hgoes
  case losses =>
    exact ⟨goes_portBindingLoss hcore p .vfEnableCleared, goes_portBindingLoss hcore p .linkDown,
      goes_portBindingLoss hcore p .hotReset⟩
  case config =>
    obtain ⟨hread, henable, hpayload, hwake⟩ := Dev.cfgRequest_answering hanswers
    refine ⟨fun f v hfield => ?_, ?_, fun hn => ?_, ?_⟩
    · rw [← hread f v hfield]; exact goes_pcieConfigRequest hmgmt p _
    · rw [← henable n]; exact goes_pcieConfigRequest hmgmt p _
    · rw [← hpayload n hn]; exact goes_pcieConfigRequest hmgmt p _
    · rw [← hwake n]; exact goes_pcieConfigRequest hmgmt p _
  case clocks =>
    exact ⟨fun p => goes_clockLoss hmgmt (.pcieRef p), goes_clockLoss hmgmt .ethRef, goes_clockLoss hmgmt .sysRef⟩
  case full =>
    rw [← Dev.linkDegraded_full hfull]
    exact goes_linkDegraded hcore p lanes rate
  case worse =>
    rw [← Dev.linkDegraded_worse hload hworse he]
    exact goes_linkDegraded hcore p lanes rate

end Sys2Proof.Machine

/-!
PROOFS. The distance of two codes (R163).
-/
namespace Sys2Proof

/-- `popcount` takes the bits from the lowest on, so that bit i + 1 of a number is bit i of its half. -/
theorem popcount_eq_countP_testBit (n v : Nat) : popcount n v = (List.range n).countP v.testBit := by
  induction n generalizing v with
  | zero => rfl
  | succ n ih =>
    have hlow : v % 2 = if v.testBit 0 then 1 else 0 := by
      rw [Nat.testBit_zero]
      rcases Nat.mod_two_eq_zero_or_one v with h | h <;> simp [h]
    have hhigh : (v / 2).testBit = v.testBit ∘ Nat.succ := funext fun i => (Nat.testBit_succ v i).symm
    calc popcount (n + 1) v = v % 2 + (List.range n).countP (v / 2).testBit := by rw [popcount, ih]
      _ = (if v.testBit 0 then 1 else 0) + (List.range n).countP (v.testBit ∘ Nat.succ) := by rw [hlow, hhigh]
      _ = (List.range (n + 1)).countP v.testBit := by
        rw [List.range_succ_eq_map, List.countP_cons, List.countP_map, Nat.add_comm]

namespace Machine

theorem hamming_eq_countP (n : Nat) (a b : Bytes) :
    hamming n a b = (List.range (8 * n)).countP fun i => bit (leNat a) i != bit (leNat b) i := by
  have hdiffer : (codeNat a ^^^ codeNat b).testBit = fun i => bit (leNat a) i != bit (leNat b) i := by
    funext i
    rw [Nat.testBit_xor, bit_eq_testBit, bit_eq_testBit, codeNat, codeNat]
  rw [hamming, popcount_eq_countP_testBit, hdiffer]

theorem hamming_le (n : Nat) (a b : Bytes) : hamming n a b ≤ 8 * n := by
  rw [hamming_eq_countP]
  exact Nat.le_trans List.countP_le_length (Nat.le_of_eq List.length_range)

theorem hamming_comm (n : Nat) (a b : Bytes) : hamming n a b = hamming n b a := by
  rw [hamming, hamming, Nat.xor_comm]

theorem hamming_eq_zero_iff (n : Nat) (a b : Bytes) :
    hamming n a b = 0 ↔ ∀ i, i < 8 * n → bit (leNat a) i = bit (leNat b) i := by
  simp [hamming_eq_countP, List.countP_eq_zero]

/-- Settles O51: the distance is a count over the bit positions, the bits in which the codes' numbers differ being those of
their exclusive or. -/
theorem distanceCountsDifferingBits : Obligations.DistanceCountsDifferingBits := by
  unfold Obligations.DistanceCountsDifferingBits
  intro n a b
  have hcount := (hamming_eq_countP n a b).trans List.countP_eq_length_filter
  exact ⟨hcount, hamming_le n a b, hamming_comm n a b, hamming_eq_zero_iff n a b⟩

end Machine
end Sys2Proof

/-!
PROOFS. CANCEL and RUN_CANCEL, which complete as they land (R196, R297).
-/
namespace Sys2Proof.Machine

section Landing
variable {d e : Dev} {k n : Nat} {x : Bytes} {q : Req}

/-- A command that has no failure goes on. -/
theorem Dev.checked_passes {c : Bool} (hpass : c = false) (r st : Nat) (go : Dev → Dev) :
    d.checked r (failIf c st) go = go d := by
  rw [hpass]; rfl

/-- R136: a descriptor that its window takes lands, and what its landing sets going follows. -/
theorem Dev.submit_of_land {src : Src} {r : Option Nat} (hcore : d.coreOn = true) (hwin : d.srcWin src = some k)
    (htakes : d.discards k = false) (hland : d.landIn k (fit 64 x) = (e, r)) : d.submit src x = (e.landed r).pump := by
  rw [Dev.submit, Dev.land_eq_landIn hcore hwin htakes, hland]

/-- R196: a CANCEL that has landed leaves its FIFO and completes with the number of searches cancelled. -/
theorem Dev.landed_cancel (hreq : Tab.find d.reqs n = some q) (hop : u8 q.desc 0 = 0x1F)
    (hpayload : payloadOk [(0x10, 4)] q.desc = true) :
    d.landed (some n) = ((d.leaveFifo n).cancelSearch q.bib (u32 q.desc 0x10)).2.complete n ST_OK
      ((d.leaveFifo n).cancelSearch q.bib (u32 q.desc 0x10)).1 := by
  simp only [Dev.landed, hreq, hop, decide_true, Bool.true_or, if_true, Dev.cancelNow,
    Dev.checked_passes (Bool.not_eq_eq_eq_not.mpr hpayload)]

/-- R297: a RUN_CANCEL that has landed leaves its FIFO and completes with the number of runs cancelled. -/
theorem Dev.landed_runCancel (hreq : Tab.find d.reqs n = some q) (hop : u8 q.desc 0 = 0x2F)
    (hpayload : payloadOk [(0x10, 4)] q.desc = true) :
    d.landed (some n) = ((d.leaveFifo n).runCancel q.bib (u32 q.desc 0x10)).2.complete n ST_OK
      ((d.leaveFifo n).runCancel q.bib (u32 q.desc 0x10)).1 := by
  have hother : ¬ (0x2F = 0x1F) := by decide
  simp only [Dev.landed, hreq, hop, decide_true, Bool.or_true, if_true, Dev.cancelNow, hother, if_false,
    Dev.checked_passes (Bool.not_eq_eq_eq_not.mpr hpayload)]

end Landing

open Sys2Proof.Spec

/-- Settles O15: what lands is a request of opcode 0x1F or 0x2F, which completes before anything else goes on. -/
theorem cancelsCompleteAtLanding : Obligations.CancelsCompleteAtLanding := by
  unfold Obligations.CancelsCompleteAtLanding
  intro s t k n src x q e hcore hwin htakes
  refine ⟨fun hland hreq hdesc hpayload => ?search, fun hland hreq hdesc hpayload => ?run⟩
  case search =>
    rw [← Dev.landed_cancel hreq (by rw [hdesc, u8_withOp (by decide)]) hpayload,
      ← Dev.submit_of_land hcore hwin htakes hland]
    exact goes_cancel hcore src x
  case run =>
    rw [← Dev.landed_runCancel hreq (by rw [hdesc, u8_withOp (by decide)]) hpayload,
      ← Dev.submit_of_land hcore hwin htakes hland]
    exact goes_runCancel hcore src x

end Sys2Proof.Machine

/-!
PROOFS. The events of searches: walk slots, neighbour groups, slices, batches, misses, lists (R180, R197, R210, R211, R225 to
R236, R250, R258, R266).
-/
namespace Sys2Proof.Machine

/-! ## The requests of a group, numbered -/

section Numbered
variable {α : Type} (l : List α) (p : α → Bool)

theorem map_snd_numbered : (List.zip (List.range l.length) l).map Prod.snd = l :=
  List.map_snd_zip (Nat.le_of_eq List.length_range.symm)

theorem any_numbered : ((List.zip (List.range l.length) l).any fun x => p x.2) = l.any p := by
  have hmap : ((List.zip (List.range l.length) l).map Prod.snd).any p
      = (List.zip (List.range l.length) l).any fun x => p x.2 := List.any_map
  rw [← hmap, map_snd_numbered]

theorem length_filter_numbered :
    ((List.zip (List.range l.length) l).filter fun x => p x.2).length = (l.filter p).length := by
  have hmap : ((List.zip (List.range l.length) l).map Prod.snd).filter p
      = ((List.zip (List.range l.length) l).filter fun x => p x.2).map Prod.snd := List.filter_map
  rw [← List.length_map Prod.snd, ← hmap, map_snd_numbered]

theorem filter_everything : l.filter (fun _ => true) = l := List.filter_eq_self.mpr fun _ _ => rfl

end Numbered

section Events
variable {d : Dev} {n e u g : Nat}

/-! ## Walk slots and neighbour groups (R197, R210, R211) -/

theorem Dev.placeWaiting_one {p : Nat} {q : SQ} (hsqs : d.ix.sqs = [(n, q)]) (hwaits : q.stage = 1) (hpart : q.part = p) :
    d.placeWaiting p = d.beginSq n := by
  simp [Dev.placeWaiting, hsqs, hwaits, hpart]

theorem Dev.packClose_due {x : PackGroup} (hgroup : Tab.find d.ix.groups g = some x) (hopen : x.closed = false)
    (hdue : x.opened + d.rg .PACK_CFG_WINDOW ≤ d.now) : d.packClose g = d.closeGroup g := by
  simp [Dev.packClose, hgroup, hopen, hdue]

/-- The entry of slot `i` of group `g` that walks on engine `e`. -/
def Dev.walkEntry (d : Dev) (g e i : Nat) : Option QEnt :=
  (((d.engine e).walk.filter fun p => p.1 == g).find? fun p => p.2.1 == i).map fun p => p.2.2

/-- Engine `e` has read the record of group `g`: its slots are free, and the read is counted (R211). -/
def Dev.groupRead (d : Dev) (g e : Nat) (x : PackGroup) (ecc : EccOutcome) : Dev :=
  ((((((d.freeWalk e g).setEngine e (((d.freeWalk e g).engine e).fed d.now)).countEcc e ecc).bump .STR_GROUPS_COUNT 1 e).bump
    .STR_RECORDS_COUNT 1 e).bump .STR_PAIRS_COUNT (x.reqs.filter fun q => !q.2.2).length e).setIx fun z =>
      { z with groups := Tab.del z.groups g }

/-- R211: the references of a record go to the walks where a request asks to expand it. -/
def Dev.sendRefs (d : Dev) (e : Nat) (x : PackGroup) : Dev :=
  if x.reqs.any fun q => q.2.2 then d.sendRet e { kind := 2, slot := 0, lid := x.lid } else d

/-- R211: a read without an uncorrectable error answers every request of its group. -/
theorem Dev.groupReturn_clean {x : PackGroup} {h : Heat} {ecc : EccOutcome} (hgroup : Tab.find d.ix.groups g = some x)
    (hheat : d.heat x.heat = some h) (hengine : x.engine = some e) (hruns : x.running = true)
    (hsector : ecc.sectorBad = false) (hentry : ecc.badEntry = none) :
    d.groupReturn g ecc = ((List.zip (List.range x.reqs.length) x.reqs).foldl
      (fun f q => f.returnOne x h e q (d.walkEntry g e q.1)) ((d.groupRead g e x ecc).sendRefs e x)).dispatchAll := by
  -- No entry is bad, so that no request is left out.
  have hkeep (i : Nat) : (none != some i) = true := rfl
  simp only [Dev.groupReturn, hgroup, hheat, hengine, hruns, hsector, hentry, Option.bind_none, Option.map_none, hkeep,
    filter_everything, List.partition_eq_filter_filter, Bool.false_and, Bool.not_true, Bool.not_false, Bool.true_or,
    Bool.false_eq_true, if_false, if_true, Function.comp_def, any_numbered x.reqs fun q => q.2.2,
    length_filter_numbered x.reqs fun q => !q.2.2]
  rfl

/-! ## Batches (R225 to R227, R250) -/

/-- How long the window of a batch stays open. -/
def Dev.batchWin (d : Dev) (b : Batch) : Nat := if b.side then d.rg .SIDE_CFG2_WIN b.heat else d.rg .STK_CFG_SCANWIN 0

theorem Dev.batchWindow_due {b : Batch} {side : Bool} (hbatch : d.batch n = some b) (hside : b.side = side)
    (hopen : b.closed = false) (hdue : b.opened + d.batchWin b * 1000 ≤ d.now) :
    d.batchWindow n side = d.closeBatch n := by
  subst hside
  unfold Dev.batchWin at hdue
  simp only [Dev.batchWindow, hbatch, hopen, beq_self_eq_true, Bool.not_false, Bool.and_self, decide_eq_true hdue, if_true]

/-- R227: the queries of a batch that may pay for a tile that is not in DRAM. -/
def Dev.payers (d : Dev) (b : Batch) : List Nat :=
  b.qs.filter fun q => match d.sq q with | some y => y.stage == 3 && !y.missOut | none => false

/-- R227: who pays is noted, and the batch asks no more for the unit. -/
def Dev.notePayers (d : Dev) (n e u : Nat) (grant : List Nat) : Dev :=
  d.updBatch n fun b => { b with
    noticed := Tab.ins b.noticed (unitKey e u) grant, sent := b.sent.filter (· != unitKey e u) }

/-- R227: what becomes of a missed unit `u` of engine `e` that the queries of `grant` pay for. -/
def Dev.unitMissed (d : Dev) (n e u : Nat) (h : Heat) (grant : List Nat) : Dev :=
  let k := heatTile h.number (e / 16) u
  let f := d.notePayers n e u grant
  if grant.isEmpty then d.unitDone n e u
  else if f.look k = .lost then (grant.foldl (fun d q => d.failSq q ST_MEDIA_ERROR) (f.reportLoss k)).unitDone n e u
  else (if f.look k = .hit then f.tileArrives n e u h else f.startRead k 1 (.scan n e u)).settleBatch n

theorem Dev.missNotice_sent {b : Batch} {h : Heat} {grant : List Nat} {f : Dev} (hbatch : d.batch n = some b)
    (hheat : d.heat b.heat = some h) (hsent : b.sent.contains (unitKey e u) = true)
    (hgrant : d.grantTile n (d.payers b) = (grant, f)) : d.missNotice n e u = f.unitMissed n e u h grant := by
  have hasked : d.missNotice n e u =
      (d.grantTile n (d.payers b)).2.unitMissed n e u h (d.grantTile n (d.payers b)).1 := by
    simp only [Dev.missNotice, hbatch, hheat, hsent, Bool.not_true, Bool.false_eq_true, if_false]
    rfl
  rw [hasked, hgrant]

/-- R227: a unit that nobody pays for is done with. -/
theorem Dev.unitMissed_unpaid {h : Heat} : d.unitMissed n e u h [] = d.unitDone n e u := rfl

/-- R227: a paid unit is read from the flash. -/
theorem Dev.unitMissed_paid {h : Heat} {grant : List Nat} (hpaid : grant ≠ [])
    (hmiss : (d.notePayers n e u grant).look (heatTile h.number (e / 16) u) = .miss) :
    d.unitMissed n e u h grant =
      ((d.notePayers n e u grant).startRead (heatTile h.number (e / 16) u) 1 (.scan n e u)).settleBatch n := by
  simp [Dev.unitMissed, hpaid, hmiss]

/-! ## The watchdog of an engine, lists, queries that wait for their epoch (R180, R236, R266) -/

theorem Dev.strWdog_due (he : e < 128) (hserves : d.engFenced e = false) (hbusy : d.busyAt e = true)
    (hdue : d.rg .STK_CFG_WDOG (e / 16) * 1000 ≤ (d.engine e).acc + (d.now - (d.engine e).since)) :
    d.strWdog e = ((d.report SRC_STR_WDOG 0x31 e none (d.now / 2000 % 64) 0).fenceUnit 0x31 e).quitEngine e := by
  simp [Dev.strWdog, Nat.not_le.mpr he, hserves, hbusy, Nat.not_lt.mpr hdue]

/-- R266: a list that is whole goes to its owner. -/
def Dev.deliverTo (d : Dev) (n : Nat) (l : PList) : PodOwner → Dev
  | .shard x => d.deliverShard n x l
  | .merge r => d.mergeDelivered r n l
  | .final r => (d.dropList n).searchEnd r l.ents l.tieCnt
  | .seg r row j => (d.dropList n).segDelivered r row j l
  | .row r row => (d.dropList n).rowDelivered r row l

theorem Dev.deliverList_whole {l : PList} (hlist : d.plist n = some l) (hwhole : l.closed = true) :
    d.deliverList n = d.deliverTo n l l.owner := by
  simp only [Dev.deliverList, hlist, hwhole]
  cases l.owner <;> rfl

theorem Dev.lagExpiry_due {q : SQ} (hsq : d.sq n = some q) (hwaits : q.stage = 0)
    (hdue : q.held + d.ix.pre.hold * 1000 ≤ d.now) :
    d.lagExpiry n = (d.bump .HEAT_LAGHOLD_COUNT 1 q.heat).failSq n ST_TIMEOUT := by
  simp [Dev.lagExpiry, hsq, hwaits, hdue]

end Events

open Sys2Proof.Spec

/-- An event of the CORE domain acts, and what can go on then goes on. -/
theorem goes_of_act {c : Instr} {s : State} {t : Nat} {f : Dev → Dev} (hexec : exec c s = s.act t Dev.coreOn f)
    (hcore : (node s t).coreOn = true) : Goes c s (f (node s t)).pump := by
  rw [Goes, hexec, State.act_pos _ _ _ _ hcore]

/-- Settles O30: each event finds its condition met, so that its function does what the lemma about it says; a unit that
returns, and pod slots that are free, have no condition. -/
theorem indexEventsComplete : Obligations.IndexEventsComplete := by
  unfold Obligations.IndexEventsComplete
  intro s t hcore
  refine ⟨fun p n q hsqs hwaits hpart => ?slot, fun g x hgroup hopen hdue => ?pack,
    fun g x h e ecc hgroup hheat hengine hruns hsector hentry ent d f hent hd hf => ?group,
    fun hboundary => ?slice, fun hguard => ?guard, fun n b hbatch hside hopen hdue => ?scan,
    fun n b hbatch hside hopen hdue => ?side, fun n e u ecc b h _ _ _ _ _ _ _ _ => ?unit,
    fun n e u b h grant d hbatch hheat hsent hgrant => ⟨fun hunpaid => ?unpaid, fun hpaid f hf hmiss => ?paid⟩,
    fun e he hserves hbusy hdue => ?watchdog, fun p => ?pod, fun n l hlist hwhole => ?list,
    fun n q hsq hwaits hdue => ?lag⟩
  case slot =>
    rw [← Dev.placeWaiting_one hsqs hwaits hpart]
    exact goes_of_act (f := fun d => d.placeWaiting p) rfl hcore
  case pack =>
    rw [← Dev.packClose_due hgroup hopen hdue]
    exact goes_of_act (f := fun d => d.packClose g) rfl hcore
  case group =>
    subst hent hd hf
    have hgoes := goes_of_act (c := .strideGroupReturn t g ecc) (f := fun d => (d.groupReturn g ecc).pauseDue) rfl hcore
    rwa [Dev.groupReturn_clean hgroup hheat hengine hruns hsector hentry] at hgoes
  case slice =>
    have hgoes := goes_of_act (c := .sliceBoundary t)
      (f := fun d => if d.now % 2000 = 0 then d.sliceStart else d) rfl hcore
    rwa [if_pos hboundary] at hgoes
  case guard =>
    have hgoes := goes_of_act (c := .sliceGuard t)
      (f := fun d => if 1840 ≤ d.now % 2000 then d.sliceGuard else d) rfl hcore
    rwa [if_pos hguard] at hgoes
  case scan =>
    rw [← Dev.batchWindow_due hbatch hside hopen (by simpa [Dev.batchWin, hside] using hdue)]
    exact goes_of_act (f := fun d => d.batchWindow n false) rfl hcore
  case side =>
    rw [← Dev.batchWindow_due hbatch hside hopen (by simpa [Dev.batchWin, hside] using hdue)]
    exact goes_of_act (f := fun d => d.batchWindow n true) rfl hcore
  case unit => exact goes_of_act (f := fun d => d.batchReturn n e u ecc) rfl hcore
  case unpaid =>
    have hgoes := goes_of_act (c := .missNotice t n e u) (f := fun d => d.missNotice n e u) rfl hcore
    rwa [Dev.missNotice_sent hbatch hheat hsent hgrant, hunpaid, Dev.unitMissed_unpaid] at hgoes
  case paid =>
    subst hf
    have hgoes := goes_of_act (c := .missNotice t n e u) (f := fun d => d.missNotice n e u) rfl hcore
    rwa [Dev.missNotice_sent hbatch hheat hsent hgrant, Dev.unitMissed_paid hpaid hmiss] at hgoes
  case watchdog =>
    rw [← Dev.strWdog_due he hserves hbusy hdue]
    exact goes_of_act (f := fun d => d.strWdog e) rfl hcore
  case pod => exact goes_of_act (f := fun d => (d.placeLists p).fillRows) rfl hcore
  case list =>
    have hgoes := goes_of_act (c := .listDelivery t n) (f := fun d => d.deliverList n) rfl hcore
    rw [Dev.deliverList_whole hlist hwhole] at hgoes
    refine ⟨fun x howner => ?_, fun r howner => ?_, fun r howner => ?_, fun r row j howner => ?_,
      fun r row howner => ?_⟩ <;> rwa [howner] at hgoes
  case lag =>
    rw [← Dev.lagExpiry_due hsq hwaits hdue]
    exact goes_of_act (f := fun d => d.lagExpiry n) rfl hcore

end Sys2Proof.Machine

/-!
PROOFS. The events of consolidation: build walks and pauses (R252, R254).
-/
namespace Sys2Proof.Machine

/-! ## Build walks (R252) -/

section BuildWalks
variable {d : Dev} {n i : Nat} {h : Heat}

/-- R252: what BUILD_WALK_START makes of the node: staging goes on by itself, then the build walk of the slot it has
reached begins, unless the copy pauses or an image is draining or being applied. -/
def Dev.buildWalkStart (d : Dev) (n : Nat) : Dev :=
  match d.heatIdx n with
  | none => d
  | some i =>
    match d.heat i with
    | none => d
    | some h => if h.pausing || d.loader = 3 || d.loader = 4 then d.stageGo i else (d.stageGo i).buildWalk i

theorem Dev.buildWalkStart_hosted (hidx : d.heatIdx n = some i) (hheat : d.heat i = some h)
    (hruns : h.pausing = false) (hdraining : d.loader ≠ 3) (happlying : d.loader ≠ 4) :
    d.buildWalkStart n = (d.stageGo i).buildWalk i := by
  simp [Dev.buildWalkStart, hidx, hheat, hruns, hdraining, happlying]

theorem exec_buildWalkStart (s : State) (t n : Nat) :
    exec (.buildWalkStart t n) s = s.act t Dev.coreOn fun d => d.buildWalkStart n := rfl

end BuildWalks

/-! ## Pauses (R254) -/

section Pauses
variable {d : Dev} {i ms turn : Nat}

/-- R254: of the copies that are ready, in heat entry order, the first after the last that paused, else the first. -/
def nextInTurn (turn : Nat) (ready : List Nat) : Option Nat := (ready.find? fun i => turn < i).or ready.head?

theorem nextInTurn_none_ready : nextInTurn turn [] = none := rfl

theorem nextInTurn_only (hafter : turn < i) : nextInTurn turn [i] = some i := by simp [nextInTurn, hafter]

/-- R253: the staging of every copy goes on as far as it can by itself. -/
def Dev.stageAll (d : Dev) : Dev := (Tab.keys d.ix.heats).foldl (fun d i => (d.restage i).stageGo i) d

/-- R254, R494: the copies whose staging is complete and whose pause fits now. -/
def Dev.pauseReady (d : Dev) : List Nat := (Tab.keys d.ix.heats).filter fun i => d.staged i && d.pauseFits i

/-- R254: the copy of entry `i` begins the one pause of millisecond `ms`. -/
def Dev.pauseAt (d : Dev) (ms i : Nat) : Dev :=
  ((d.setIx fun x => { x with turn := i, pausedAt := some ms }).pauseBegin i).pauseDue

/-- R254: one of the copies that are ready begins the pause of millisecond `ms`; with none ready nothing changes. -/
def Dev.pauseInTurn (d : Dev) (ms : Nat) : Dev :=
  match d.pauseReady.find? fun i => d.ix.turn < i with
  | some i => d.pauseAt ms i
  | none =>
    match d.pauseReady with
    | i :: _ => d.pauseAt ms i
    | [] => d

/-- The one that begins it is the next in turn. -/
theorem Dev.pauseInTurn_eq : d.pauseInTurn ms = (nextInTurn d.ix.turn d.pauseReady).elim d (d.pauseAt ms) := by
  unfold Dev.pauseInTurn nextInTurn
  cases d.pauseReady.find? fun i => d.ix.turn < i with
  | some i => rfl
  | none => cases d.pauseReady <;> rfl

theorem Dev.pauseInTurn_none_ready (hready : d.pauseReady = []) : d.pauseInTurn ms = d := by
  rw [Dev.pauseInTurn_eq, hready, nextInTurn_none_ready, Option.elim_none]

theorem Dev.pauseInTurn_only (hready : d.pauseReady = [i]) (hafter : d.ix.turn < i) :
    d.pauseInTurn ms = d.pauseAt ms i := by
  rw [Dev.pauseInTurn_eq, hready, nextInTurn_only hafter, Option.elim_some]

/-- What CONSOLIDATION_PAUSE makes of the node: at a whole millisecond that has had no pause yet, and with no image draining
or being applied, every copy stages and the one whose turn it is pauses. -/
def Dev.consolidationPause (d : Dev) : Dev :=
  if d.now % 1000000 != 0 || d.ix.pausedAt = some (d.now / 1000000) || d.loader = 3 || d.loader = 4 then d
  else d.stageAll.pauseInTurn (d.now / 1000000)

theorem Dev.consolidationPause_due (hwhole : d.now % 1000000 = 0) (hfirst : d.ix.pausedAt ≠ some (d.now / 1000000))
    (hdraining : d.loader ≠ 3) (happlying : d.loader ≠ 4) :
    d.consolidationPause = d.stageAll.pauseInTurn (d.now / 1000000) := by
  simp [Dev.consolidationPause, hwhole, hfirst, hdraining, happlying]

theorem exec_consolidationPause (s : State) (t : Nat) :
    exec (.consolidationPause t) s = s.act t Dev.coreOn Dev.consolidationPause := rfl

end Pauses

open Sys2Proof.Spec

/-- Settles O31: the two events find their conditions met; the only copy that is ready is next in turn. -/
theorem consolidationEventsComplete : Obligations.ConsolidationEventsComplete := by
  unfold Obligations.ConsolidationEventsComplete
  intro s t hcore hdraining happlying
  refine ⟨fun n i h hidx hheat hruns => ?walk, fun hwhole hfirst d hd => ?pause⟩
  case walk =>
    rw [← Dev.buildWalkStart_hosted hidx hheat hruns hdraining happlying]
    exact goes_of_act (exec_buildWalkStart s t n) hcore
  case pause =>
    have hgoes := goes_of_act (exec_consolidationPause s t) hcore
    rw [Dev.consolidationPause_due hwhole hfirst hdraining happlying] at hgoes
    have hstaged : d = (node s t).stageAll := hd
    rw [← hstaged] at hgoes
    refine ⟨fun i hready hafter => ?only, fun hready => ?none⟩
    case only => rwa [Dev.pauseInTurn_only hready hafter] at hgoes
    case none => rwa [Dev.pauseInTurn_none_ready hready] at hgoes

end Sys2Proof.Machine

/-!
PROOFS. Podium lists: their order, what an offer makes of them, and their form (R259, R263).
-/
namespace Sys2Proof

section Insertion
variable {α : Type} {lt : α → α → Bool} {a : α} {l : List α}

theorem insertBy_perm : (insertBy lt a l).Perm (a :: l) := by
  induction l with
  | nil => exact .refl _
  | cons b r ih =>
    rw [insertBy]
    split
    · exact .refl _
    · exact (ih.cons b).trans (.swap a b r)

theorem length_insertBy : (insertBy lt a l).length = l.length + 1 := insertBy_perm.length_eq

theorem mem_insertBy {x : α} : x ∈ insertBy lt a l ↔ x = a ∨ x ∈ l := by
  rw [insertBy_perm.mem_iff, List.mem_cons]

/-- An element enters a sorted list at its place; the order has to compare it with each element there, but not with its
equals. -/
theorem pairwise_insertBy (htrans : ∀ x y z, lt x y = true → lt y z = true → lt x z = true)
    (hcomparable : ∀ x ∈ l, lt a x = false → lt x a = true) (hsorted : l.Pairwise (fun x y => lt x y = true)) :
    (insertBy lt a l).Pairwise (fun x y => lt x y = true) := by
  induction l with
  | nil => exact List.pairwise_singleton _ a
  | cons b r ih =>
    obtain ⟨hb, hr⟩ := List.pairwise_cons.mp hsorted
    rw [insertBy]
    split
    case isTrue hfirst =>
      have hall : ∀ x ∈ b :: r, lt a x = true :=
        List.forall_mem_cons.mpr ⟨hfirst, fun x hx => htrans a b x hfirst (hb x hx)⟩
      exact List.pairwise_cons.mpr ⟨hall, hsorted⟩
    case isFalse hlater =>
      obtain ⟨hcb, hcr⟩ := List.forall_mem_cons.mp hcomparable
      have hall : ∀ x ∈ insertBy lt a r, lt b x = true := by
        intro x hx
        obtain rfl | hx := mem_insertBy.mp hx
        · exact hcb (eq_false_of_ne_true hlater)
        · exact hb x hx
      exact List.pairwise_cons.mpr ⟨hall, ih hcr hr⟩

end Insertion

namespace Machine

open Sys2Proof.Spec

/-! ## The order of the entries (R259) -/

section Order
variable {mode k : Nat} {a b c e z : PEnt} {es fs : List PEnt}

theorem PEnt.before_iff : a.before mode b = true ↔
    keyRank mode a.key < keyRank mode b.key ∨ keyRank mode a.key = keyRank mode b.key ∧ a.idx < b.idx := by
  simp [PEnt.before]

theorem PEnt.before_trans (hab : a.before mode b = true) (hbc : b.before mode c = true) : a.before mode c = true := by
  rw [PEnt.before_iff] at *
  omega

/-- The order is total on entries of different indices. -/
theorem PEnt.before_of_not_before (hne : a.idx ≠ b.idx) (hnot : b.before mode a = false) : a.before mode b = true := by
  rw [← Bool.not_eq_true, PEnt.before_iff] at hnot
  rw [PEnt.before_iff]
  omega

/-- Entries in the order of R259, no index twice. -/
structure InOrder (mode : Nat) (es : List PEnt) : Prop where
  sorted : es.Pairwise fun a b => a.before mode b = true
  distinct : (es.map (·.idx)).Nodup

theorem listOk_iff {l : PList} : ListOk l ↔ l.ents.length ≤ l.k ∧ InOrder l.mode l.ents :=
  ⟨fun ⟨hlen, hsorted, hdistinct⟩ => ⟨hlen, hsorted, hdistinct⟩,
    fun ⟨hlen, hsorted, hdistinct⟩ => ⟨hlen, hsorted, hdistinct⟩⟩

theorem InOrder.sublist (h : InOrder mode es) (hsub : fs.Sublist es) : InOrder mode fs :=
  ⟨h.sorted.sublist hsub, h.distinct.sublist (hsub.map _)⟩

theorem InOrder.insert (h : InOrder mode es) (hnew : ∀ x ∈ es, x.idx ≠ e.idx) :
    InOrder mode (insertBy (PEnt.before mode) e es) where
  sorted := pairwise_insertBy (fun _ _ _ => PEnt.before_trans) (fun x hx => PEnt.before_of_not_before (hnew x hx)) h.sorted
  distinct := by
    rw [(insertBy_perm.map _).nodup_iff, List.map_cons, List.nodup_cons]
    refine ⟨fun hmem => ?_, h.distinct⟩
    obtain ⟨x, hx, heq⟩ := List.mem_map.mp hmem
    exact hnew x hx heq

/-- A change of the entries that keeps each key and index keeps the order. -/
theorem InOrder.map {f : PEnt → PEnt} (h : InOrder mode es) (hkey : ∀ x, (f x).key = x.key)
    (hidx : ∀ x, (f x).idx = x.idx) : InOrder mode (es.map f) where
  sorted := by simpa only [List.pairwise_map, PEnt.before, hkey, hidx] using h.sorted
  distinct := by simpa only [List.map_map, Function.comp_def, hidx] using h.distinct

/-- Every entry but the last stands before it. -/
theorem InOrder.eq_or_before_last (h : InOrder mode es) (hlast : es.getLast? = some z) (hmem : a ∈ es) :
    a = z ∨ a.before mode z = true := by
  obtain ⟨fs, rfl⟩ := List.getLast?_eq_some_iff.mp hlast
  obtain hmem | hmem := List.mem_append.mp hmem
  · exact .inr ((List.pairwise_append.mp h.sorted).2.2 a hmem z (List.mem_singleton_self z))
  · exact .inl (List.mem_singleton.mp hmem)

/-- What does not stand before the last entry stands before none. -/
theorem InOrder.not_before_of_last (h : InOrder mode es) (hlast : es.getLast? = some z) (hnot : e.before mode z = false) :
    ∀ x ∈ es, e.before mode x = false := by
  intro x hx
  rw [← Bool.not_eq_true] at hnot ⊢
  intro hbefore
  obtain rfl | hxz := h.eq_or_before_last hlast hx
  · exact hnot hbefore
  · exact hnot (PEnt.before_trans hbefore hxz)

end Order

/-! ## What an offer makes of a list (R263) -/

/-- The part of a list of which its form speaks: its length, its order and its entries. -/
def PList.form (l : PList) : Nat × Nat × List PEnt := (l.k, l.mode, l.ents)

/-- An entry with the source and the flags of an offer of the same index (R263 step 2). -/
def PEnt.giveSource (e x : PEnt) : PEnt := if x.idx == e.idx then { x with src := e.src, rflags := e.rflags } else x

/-- The entries of other indices than `e`'s. -/
def PList.others (l : PList) (e : PEnt) : List PEnt := l.ents.filter fun x => x.idx != e.idx

/-- The list after an offer, and what became of the offer (R263): of a held index it replaces the entry, its source or
nothing; of a new index it enters, or is cut behind the k-th entry. -/
inductive PList.OfferEnds (l : PList) (e : PEnt) : PList × Offered → Prop
  | replaces {h : PEnt} {m : PList} (held : h ∈ l.ents) (same : h.idx = e.idx)
      (form : m.form = (l.k, l.mode, insertBy (PEnt.before l.mode) e (l.others e))) : OfferEnds l e (m, .dup)
  | givesSource {h : PEnt} {m : PList} (held : h ∈ l.ents) (same : h.idx = e.idx)
      (form : m.form = (l.k, l.mode, l.ents.map e.giveSource)) : OfferEnds l e (m, .dup)
  | repeats {h : PEnt} (held : h ∈ l.ents) (same : h.idx = e.idx) : OfferEnds l e (l, .dup)
  | enters {m : PList} (new : ∀ x ∈ l.ents, x.idx ≠ e.idx)
      (form : m.form = (l.k, l.mode, (insertBy (PEnt.before l.mode) e l.ents).take l.k)) : OfferEnds l e (m, .kept)
  | isCut {z : PEnt} {m : PList} (new : ∀ x ∈ l.ents, x.idx ≠ e.idx) (kth : l.kth = some z)
      (behind : e.before l.mode z = false) (form : m.form = l.form) : OfferEnds l e (m, .cut)

section Offers
variable {l m : PList} {e h z : PEnt} {es : List PEnt} {r : PList × Offered}

theorem PList.form_eq_iff {k mode : Nat} : m.form = (k, mode, es) ↔ m.k = k ∧ m.mode = mode ∧ m.ents = es := by
  simp [PList.form]

theorem listOk_of_form (hform : m.form = (l.k, l.mode, es)) (hlen : es.length ≤ l.k) (horder : InOrder l.mode es) :
    ListOk m := by
  obtain ⟨hk, hmode, hents⟩ := PList.form_eq_iff.mp hform
  rw [listOk_iff, hk, hmode, hents]
  exact ⟨hlen, horder⟩

/-! The tie count, key and table of R265 are no part of the form. -/

@[simp] theorem PList.form_rekey : l.rekey.form = l.form := by
  unfold PList.rekey
  split
  · rfl
  · split <;> rfl

@[simp] theorem PList.form_uncut : (l.uncut e).form = l.form := by
  unfold PList.uncut
  split <;> rfl

@[simp] theorem PList.form_cut : (l.cut e).form = l.form := by
  unfold PList.cut
  split
  case h_1 => rfl
  case h_2 z _ =>
    split
    case isTrue => rfl
    case isFalse =>
      -- whether the count starts anew or goes on, it counts the element or not
      split <;> dsimp only <;> repeat' split
      all_goals rfl

theorem PList.kth_of_room (hroom : l.ents.length < l.k) : l.kth = none := if_pos hroom

theorem PList.getLast?_of_kth (hkth : l.kth = some z) : l.ents.getLast? = some z := by
  unfold PList.kth at hkth
  split at hkth
  · contradiction
  · exact hkth

/-- The first k of the entries with the new one at its place stay. -/
theorem PList.form_enter : (l.enter e).form = (l.k, l.mode, (insertBy (PEnt.before l.mode) e l.ents).take l.k) := by
  obtain ⟨hk, hmode, hents⟩ := PList.form_eq_iff.mp (PList.form_uncut (l := l) (e := e))
  unfold PList.enter
  rw [← hk, ← hmode, ← hents]
  dsimp only
  split
  case h_1 hnone =>
    rw [List.take_of_length_le (List.drop_eq_nil_iff.mp hnone), PList.form_rekey]
    rfl
  case h_2 =>
    rw [PList.form_cut, PList.form_rekey]
    rfl

theorem PEnt.giveSource_key (e x : PEnt) : (e.giveSource x).key = x.key := by
  unfold PEnt.giveSource
  split <;> rfl

theorem PEnt.giveSource_idx (e x : PEnt) : (e.giveSource x).idx = x.idx := by
  unfold PEnt.giveSource
  split <;> rfl

theorem PList.offer_ends : l.OfferEnds e (l.offer e) := by
  unfold PList.offer
  split
  case h_1 h hfind =>
    have hheld := List.mem_of_find?_eq_some hfind
    have hsame : h.idx = e.idx := by simpa using List.find?_some hfind
    split
    · exact .replaces hheld hsame PList.form_rekey
    · split
      · exact .givesSource hheld hsame rfl
      · exact .repeats hheld hsame
  case h_2 hfind =>
    have hnew : ∀ x ∈ l.ents, x.idx ≠ e.idx := by simpa using hfind
    split
    · exact .enters hnew PList.form_enter
    · split
      case isTrue => exact .enters hnew PList.form_enter
      case isFalse hkth hbehind => exact .isCut hnew hkth (eq_false_of_ne_true hbehind) PList.form_cut

theorem PList.OfferEnds.keeps_k_mode (hends : l.OfferEnds e r) : r.1.k = l.k ∧ r.1.mode = l.mode := by
  cases hends with
  | repeats => exact ⟨rfl, rfl⟩
  | replaces _ _ form | givesSource _ _ form | enters _ form | isCut _ _ _ form =>
    obtain ⟨hk, hmode, -⟩ := PList.form_eq_iff.mp form
    exact ⟨hk, hmode⟩

/-- The entry that an offer replaces makes room for it. -/
theorem PList.length_others_lt (hheld : h ∈ l.ents) (hsame : h.idx = e.idx) : (l.others e).length < l.ents.length :=
  List.length_filter_lt_length_iff_exists.mpr ⟨h, hheld, by simp [hsame]⟩

theorem PList.OfferEnds.keeps_listOk (hends : l.OfferEnds e r) (hok : ListOk l) : ListOk r.1 := by
  obtain ⟨hlen, horder⟩ := listOk_iff.mp hok
  cases hends with
  | replaces held same form =>
    have hroom := PList.length_others_lt held same
    have hothers : ∀ x ∈ l.others e, x.idx ≠ e.idx := fun x hx => by simpa using (List.mem_filter.mp hx).2
    exact listOk_of_form form (by rw [length_insertBy]; omega) ((horder.sublist List.filter_sublist).insert hothers)
  | givesSource _ _ form =>
    exact listOk_of_form form (by rwa [List.length_map]) (horder.map e.giveSource_key e.giveSource_idx)
  | repeats => exact hok
  | enters new form =>
    exact listOk_of_form form (List.length_take_le _ _) ((horder.insert new).sublist (List.take_sublist _ _))
  | isCut _ _ _ form => exact listOk_of_form form hlen horder

/-- A cut offer stands behind the k-th entry, so behind every entry. -/
theorem PList.OfferEnds.of_cut (hends : l.OfferEnds e r) (horder : InOrder l.mode l.ents) (hcut : r.2 = .cut) :
    r.1.ents = l.ents ∧ ∀ x ∈ l.ents, e.before l.mode x = false := by
  cases hends with
  | isCut _ kth behind form =>
    obtain ⟨-, -, hents⟩ := PList.form_eq_iff.mp form
    exact ⟨hents, horder.not_before_of_last (PList.getLast?_of_kth kth) behind⟩
  | _ => contradiction

/-- In a list with room nothing is cut. -/
theorem PList.OfferEnds.of_room (hends : l.OfferEnds e r) (hroom : l.ents.length < l.k)
    (hnew : ∀ x ∈ l.ents, x.idx ≠ e.idx) : e ∈ r.1.ents ∧ r.2 = .kept := by
  cases hends with
  | replaces held same | givesSource held same | repeats held same => exact absurd same (hnew _ held)
  | enters _ form =>
    obtain ⟨-, -, hents⟩ := PList.form_eq_iff.mp form
    rw [hents, List.take_of_length_le (by rw [length_insertBy]; exact hroom)]
    exact ⟨mem_insertBy.mpr (.inl rfl), rfl⟩
  | isCut _ kth =>
    rw [PList.kth_of_room hroom] at kth
    contradiction

end Offers

/-- Settles O59: each way in which an offer can end keeps the list in form. -/
theorem offersKeepListsInForm : Obligations.OffersKeepListsInForm := by
  unfold Obligations.OffersKeepListsInForm
  intro l e hok
  have hends := PList.offer_ends (l := l) (e := e)
  obtain ⟨-, horder⟩ := listOk_iff.mp hok
  obtain ⟨hk, hmode⟩ := hends.keeps_k_mode
  exact ⟨hends.keeps_listOk hok, hk, hmode, hends.of_cut horder, hends.of_room⟩

end Machine
end Sys2Proof

/-!
PROOFS. The block as a whole: every command's outcome, the queue, the fuses (R541, R549, R550).
-/
namespace Sys2Proof

namespace Machine
open Sys2Proof.Spec

/-! ## What every command answers -/

/-- The node after a command that found it in `d`. -/
def Dev.after (d : Dev) (c : Instr) : Dev :=
  match exec c { dev := d, pending := [] } with
  | .next s => s.dev
  | .fault _ => d
  | .refused _ => d

/-- Every command answers a next state, and neither acts on what waits behind it nor depends on it. -/
theorem exec_eq_next (c : Instr) (d : Dev) (r : List Instr) :
    exec c { dev := d, pending := r } = .next { dev := d.after c, pending := r } := by
  cases c <;> rfl

theorem Dev.after_rom (d : Dev) (c : Instr) : (d.after c).rom = d.rom := by
  cases c <;> rfl

theorem Dev.after_fuses (d : Dev) {c : Instr} (h : ∀ t, c ≠ .fuseWriteDone t) : (d.after c).fuses = d.fuses := by
  cases c
  case fuseWriteDone t => exact absurd rfl (h t)
  all_goals rfl

/-- Only the TAP's own commands set its instruction. -/
theorem Dev.after_jtagInstr (d : Dev) {c : Instr}
    (h : ∀ t, c ≠ .jtagBypass t ∧ c ≠ .jtagIdcode t ∧ c ≠ .jtagSamplePreload t ∧ c ≠ .jtagExtest t ∧ c ≠ .jtagClamp t
      ∧ c ≠ .jtagHighz t ∧ c ≠ .tapReset t) : (d.after c).jtagInstr = d.jtagInstr := by
  cases c
  case jtagBypass t | jtagIdcode t | jtagSamplePreload t | jtagExtest t | jtagClamp t | jtagHighz t | tapReset t =>
    exact absurd (h t) (by simp)
  all_goals rfl

/-- The end of a fuse write leaves the fuses as the action of its record makes them. -/
theorem Dev.after_fuseWriteDone_fuses (d : Dev) (t : Nat) : (d.after (.fuseWriteDone t)).fuses = d.burnt := rfl

/-- Settles O1: the queue's front is taken, and `exec` runs it on the rest. -/
theorem stepRunsTheFrontCommand : Obligations.StepRunsTheFrontCommand := by
  unfold Obligations.StepRunsTheFrontCommand
  exact fun _ _ _ => rfl

/-- Settles O3: what the node is after a command, and what the command leaves alone. -/
theorem everyCommandAnswersANextState : Obligations.EveryCommandAnswersANextState := by
  unfold Obligations.EveryCommandAnswersANextState
  intro c s
  exact ⟨s.dev.after c, exec_eq_next c s.dev s.pending, s.dev.after_rom c, s.dev.after_fuses, s.dev.after_jtagInstr⟩

/-! ## The queue -/

theorem step_cons (d : Dev) (c : Instr) (r : List Instr) :
    step { dev := d, pending := c :: r } = .next { dev := d.after c, pending := r } := exec_eq_next c d r

/-- The commands before `r` are served in their order, and `r` is left as it is. -/
theorem run_append (l r : List Instr) (d : Dev) :
    core.run l.length ({ dev := d, pending := l ++ r } : State)
      = .next ({ dev := l.foldl Dev.after d, pending := r } : State) := by
  induction l generalizing d with
  | nil => rfl
  | cons c l ih =>
    have hstep : core.step ({ dev := d, pending := c :: (l ++ r) } : State)
        = .next ({ dev := d.after c, pending := l ++ r } : State) := step_cons d c (l ++ r)
    simp only [List.length_cons, List.cons_append, Host.Core.run, hstep]
    exact ih (d.after c)

/-- Settles O2: with `r` behind them or with nothing, the commands take the node to the same state. -/
theorem queueIsServedInOrder : Obligations.QueueIsServedInOrder := by
  unfold Obligations.QueueIsServedInOrder
  intro l r d
  have halone := run_append l [] d
  rw [List.append_nil] at halone
  exact ⟨l.foldl Dev.after d, run_append l r d, halone⟩

/-- Every step answers a next state. -/
theorem step_eq_next (s : State) : ∃ s', step s = .next s' := by
  rcases step_cases s with ⟨-, h⟩ | ⟨c, r, -, h⟩
  · exact ⟨s, h⟩
  · exact ⟨_, h.trans (exec_eq_next c s.dev r)⟩

/-- Settles O4: by induction on the number of steps. -/
theorem everyRunIsSafe : Obligations.EveryRunIsSafe := by
  unfold Obligations.EveryRunIsSafe
  intro n
  induction n with
  | zero => exact fun _ => trivial
  | succ n ih =>
    intro s
    obtain ⟨s', hstep⟩ := step_eq_next s
    exact ⟨s', hstep, ih s'⟩

end Machine

/-! ## The fuses are one-way (R549) -/

section OneWay
variable {α : Type}

theorem length_updAt (l : List α) (n : Nat) (f : α → α) : (updAt l n f).length = l.length := by
  induction l generalizing n with
  | nil => rfl
  | cons a r ih => cases n with
    | zero => rfl
    | succ n => simp only [updAt, List.length_cons, ih]

theorem getElem?_updAt (l : List α) (n i : Nat) (f : α → α) :
    (updAt l n f)[i]? = if i = n then l[i]?.map f else l[i]? := by
  induction l generalizing n i with
  | nil => simp [updAt]
  | cons a r ih =>
    cases n <;> cases i <;> simp [updAt, ih]

end OneWay

/-- A bit that is not set can be added: those that are set stay. -/
theorem bit_add_two_pow {v k i : Nat} (hk : bit v k = false) (hi : bit v i = true) : bit (v + 2 ^ k) i = true := by
  rw [bit_eq_testBit] at *
  rcases Nat.lt_trichotomy i k with hlt | rfl | hgt
  · rwa [Nat.add_comm, Nat.testBit_two_pow_add_gt hlt]
  · exact Bool.noConfusion (hi.symm.trans hk)
  · obtain ⟨j, rfl⟩ := Nat.exists_eq_add_of_le hgt
    rw [Nat.testBit_eq_decide_div_mod_eq, decide_eq_false_iff_not] at hk
    have hhigh : (v + 2 ^ k) / 2 ^ (k + 1) = v / 2 ^ (k + 1) := by
      rw [Nat.pow_succ, ← Nat.div_div_eq_div_mul, ← Nat.div_div_eq_div_mul, Nat.add_div_right _ (Nat.pow_pos (by decide))]
      omega
    rw [Nat.testBit_eq_decide_div_mod_eq] at *
    rwa [Nat.pow_add, ← Nat.div_div_eq_div_mul, hhigh, Nat.div_div_eq_div_mul, ← Nat.pow_add]

namespace Machine
open Sys2Proof.Spec

/-- What an owner slot keeps: a programmed one its key, and at most it is revoked; a revoked one stays revoked. -/
def OwnerSlot.Keeps (x y : OwnerSlot) : Prop :=
  (x.state = 1 → y.key = x.key ∧ (y.state = 1 ∨ y.state = 2)) ∧ (x.state = 2 → y.key = x.key ∧ y.state = 2)

section Slots
variable {x y z : OwnerSlot}

theorem OwnerSlot.Keeps.refl (x : OwnerSlot) : x.Keeps x := ⟨fun h => ⟨rfl, .inl h⟩, fun h => ⟨rfl, h⟩⟩

theorem OwnerSlot.Keeps.trans (hxy : x.Keeps y) (hyz : y.Keeps z) : x.Keeps z := by
  refine ⟨fun h => ?_, fun h => ?_⟩
  · obtain ⟨hkey, hstate⟩ := hxy.1 h
    rcases hstate with hstate | hstate
    · exact ⟨(hyz.1 hstate).1.trans hkey, (hyz.1 hstate).2⟩
    · exact ⟨(hyz.2 hstate).1.trans hkey, .inr (hyz.2 hstate).2⟩
  · obtain ⟨hkey, hstate⟩ := hxy.2 h
    exact ⟨(hyz.2 hstate).1.trans hkey, (hyz.2 hstate).2⟩

/-- A key is programmed into an empty slot alone. -/
theorem OwnerSlot.keeps_program (key : Bytes) : x.Keeps (if x.state = 0 then { state := 1, key := key } else x) := by
  by_cases hempty : x.state = 0
  · exact ⟨fun h => absurd (hempty.symm.trans h) (by decide), fun h => absurd (hempty.symm.trans h) (by decide)⟩
  · rw [if_neg hempty]
    exact .refl x

theorem OwnerSlot.keeps_revoke : x.Keeps { x with state := 2 } := ⟨fun _ => ⟨rfl, .inr rfl⟩, fun _ => ⟨rfl, rfl⟩⟩

end Slots

end Machine

namespace Spec
open Sys2Proof.Machine

variable {f a b : Fuses}

theorem Later.slot (h : Later a b) {i : Nat} {x y : OwnerSlot} (hx : a.slots[i]? = some x) (hy : b.slots[i]? = some y) :
    x.Keeps y := ⟨h.programmed i x y hx hy, h.revoked i x y hx hy⟩

theorem Later.trans (hfa : Later f a) (hab : Later a b) : Later f b := by
  have hslot (i : Nat) (x y : OwnerSlot) (hx : f.slots[i]? = some x) (hy : b.slots[i]? = some y) : x.Keeps y := by
    have hi : i < a.slots.length := by
      rw [← hab.slots]
      exact (List.getElem?_eq_some_iff.mp hy).1
    exact (hfa.slot hx (List.getElem?_eq_getElem hi)).trans (hab.slot (List.getElem?_eq_getElem hi) hy)
  obtain ⟨hsecret, hprint, hserial, hstep, hmac0, hmac1⟩ := hfa.factory
  obtain ⟨hsecret', hprint', hserial', hstep', hmac0', hmac1'⟩ := hab.factory
  exact {
    ciFloor := Nat.le_trans hfa.ciFloor hab.ciFloor
    fwFloor := Nat.le_trans hfa.fwFloor hab.fwFloor
    ciRaises := Nat.le_trans hab.ciRaises hfa.ciRaises
    fwRaises := Nat.le_trans hab.fwRaises hfa.fwRaises
    romKeys := fun i h => hab.romKeys i (hfa.romKeys i h)
    slots := hab.slots.trans hfa.slots
    programmed := fun i x y hx hy => (hslot i x y hx hy).1
    revoked := fun i x y hx hy => (hslot i x y hx hy).2
    factory := ⟨hsecret'.trans hsecret, hprint'.trans hprint, hserial'.trans hserial, hstep'.trans hstep,
      hmac0'.trans hmac0, hmac1'.trans hmac1⟩ }

/-- An action that changes one owner slot as it may. -/
theorem later_updSlot (f : Fuses) (n : Nat) {g : OwnerSlot → OwnerSlot} (hg : ∀ x : OwnerSlot, x.Keeps (g x)) :
    Later f { f with slots := updAt f.slots n g } := by
  have hslot (i : Nat) (x y : OwnerSlot) (hx : f.slots[i]? = some x) (hy : (updAt f.slots n g)[i]? = some y) :
      x.Keeps y := by
    rw [getElem?_updAt, hx] at hy
    split at hy
    · obtain rfl : g x = y := Option.some.inj hy
      exact hg x
    · obtain rfl : x = y := Option.some.inj hy
      exact .refl x
  exact {
    ciFloor := Nat.le_refl _
    fwFloor := Nat.le_refl _
    ciRaises := Nat.le_refl _
    fwRaises := Nat.le_refl _
    romKeys := fun _ h => h
    slots := length_updAt ..
    programmed := fun i x y hx hy => (hslot i x y hx hy).1
    revoked := fun i x y hx hy => (hslot i x y hx hy).2
    factory := ⟨rfl, rfl, rfl, rfl, rfl, rfl⟩ }

theorem Later.refl (f : Fuses) : Later f f := by
  have h := later_updSlot f f.slots.length OwnerSlot.Keeps.refl
  have hsame : updAt f.slots f.slots.length (fun x : OwnerSlot => x) = f.slots := by
    refine List.ext_getElem? fun i => ?_
    rw [getElem?_updAt]
    split <;> simp
  rwa [hsame] at h

/-- Every action of Table 22.13 is one-way. -/
theorem later_act (f : Fuses) (rec : Bytes) : Later f (f.act rec) := by
  unfold Fuses.act
  split
  case h_1 => exact later_updSlot f _ fun x => OwnerSlot.keeps_program _
  case h_2 => exact later_updSlot f _ fun x => OwnerSlot.keeps_revoke
  case h_3 => exact { Later.refl f with ciFloor := Nat.le_max_right .., ciRaises := Nat.sub_le .. }
  case h_4 => exact { Later.refl f with fwFloor := Nat.le_max_right .., fwRaises := Nat.sub_le .. }
  case h_5 =>
    refine { Later.refl f with romKeys := fun i h => ?_ }
    dsimp only
    split
    · exact h
    · exact bit_add_two_pow (Bool.eq_false_iff.mpr ‹_›) h

end Spec

namespace Machine
open Sys2Proof.Spec

theorem Dev.later_burnt (d : Dev) : Later d.fuses d.burnt := by
  unfold Dev.burnt
  split
  · split
    · exact later_act ..
    · exact .refl _
  · exact .refl _

/-- R549: no command but the end of a fuse write touches the fuses, and that is one-way. -/
theorem Dev.later_after (d : Dev) (c : Instr) : Later d.fuses (d.after c).fuses := by
  by_cases hfuse : ∃ t, c = .fuseWriteDone t
  · obtain ⟨t, rfl⟩ := hfuse
    rw [Dev.after_fuseWriteDone_fuses]
    exact d.later_burnt
  · rw [d.after_fuses fun t h => hfuse ⟨t, h⟩]
    exact .refl _

/-- Settles O5: the front command of a step leaves the fuses, or moves them one way. -/
theorem fusesAreOneWay : Obligations.FusesAreOneWay := by
  unfold Obligations.FusesAreOneWay
  intro f s s' hlater hstep
  rcases step_cases s with ⟨-, hidle⟩ | ⟨c, r, -, hfront⟩
  · obtain rfl : s = s' := Host.Outcome.next.inj (hidle.symm.trans hstep)
    exact hlater
  · have hnext := (exec_eq_next c s.dev r).symm.trans (hfront.symm.trans hstep)
    obtain rfl := Host.Outcome.next.inj hnext
    exact hlater.trans (s.dev.later_after c)

/-- Settles O6: the fuses of reset are the part's own. -/
theorem fusesAtReset : Obligations.FusesAtReset := by
  unfold Obligations.FusesAtReset
  exact ⟨.refl _, rfl⟩

end Machine
end Sys2Proof

/-!
PROOFS. What a node reset leaves, and the sources of one (R513, R537, R538, Table 22.6).
-/
namespace Sys2Proof.Machine
open Sys2Proof.Spec

/-! ## A reset that is carried out (R538) -/

/-- What a node reset keeps, with every register at its reset value. -/
def Dev.kept (d : Dev) (cause : Nat) : Dev :=
  { fuses := d.fuses, rom := d.rom, nor := d.nor, out := d.out, draws := d.draws, ids := d.ids, fresh := false
    fl := d.fl.afterReset d.ix.heats, em := d.em.afterReset, jtagInstr := d.jtagInstr
    keyJobs := if d.fuseBusy then (d.keyJobs.take 1).map fun j => (0, j.2) else [], fuseBusy := d.fuseBusy
    jtagHold := cause = CAUSE_JTAG || (d.jtagHold && cause != CAUSE_POWER), thermTrip := cause = CAUSE_THERM
    ports := d.ports.map fun p => { apt := p.apt, perst := p.perst } }

/-- The registers that stand after a node reset: its cause, the count of watchdog resets, the power state, the aperture strap. -/
def Dev.restart (d : Dev) (cause : Nat) : Dev :=
  ((((d.kept cause).setRg .BOOT_STAT_WDOGS (d.wdogsAfter cause)).setRg .PWR_STATE_STATE
    (if cause = CAUSE_POWER then 0 else 1)).noteCause (d.causeOf cause)).setRg .ID_CAP0_APT (d.rg .ID_CAP0_APT)

section Resets
variable {d : Dev} {cause : Nat}

/-- A trip and OFF hold the node against every source but the loss of power (R566). -/
theorem Dev.nodeReset_carried (h : cause = CAUSE_POWER ∨ d.thermTrip = false ∧ d.power ≠ 0) :
    d.nodeReset cause = d.cutNor.restart cause := by
  have hgo : ((d.thermTrip && cause != CAUSE_POWER) || (decide (d.power = 0) && cause != CAUSE_POWER)) = false := by
    rcases h with rfl | ⟨htrip, hpower⟩
    · simp
    · simp [htrip, hpower]
  rw [Dev.nodeReset, hgo, if_neg Bool.false_ne_true]
  rfl

/-- Cutting a NOR write short changes the NOR, what stands for the write, and the draws. -/
theorem Dev.cutNor_frame (d : Dev) :
    ∃ nor ld rcv draws, d.cutNor = { d with nor := nor, ld := ld, rcv := rcv, draws := draws } := by
  unfold Dev.cutNor
  cases d.ld.nor with
  | none | some img =>
    dsimp only [Dev.draw, Dev.norStore]
    split
    · split <;> exact ⟨_, _, _, _, rfl⟩
    · exact ⟨_, _, _, _, rfl⟩

/-- Where nothing is being written, nothing is cut short. -/
theorem Dev.cutNor_idle (hload : d.ld.nor = none) (hrcv : d.rcv = none) : d.cutNor = d := by
  simp only [Dev.cutNor, hload, hrcv]

theorem Dev.causeOf_cutNor (d : Dev) (cause : Nat) : d.cutNor.causeOf cause = d.causeOf cause := by
  obtain ⟨nor, ld, rcv, draws, h⟩ := d.cutNor_frame
  rw [h]
  rfl

/-- A node that is not in RESET records a reset's own cause. -/
theorem Dev.causeOf_running (hpower : d.power ≠ 1) : d.causeOf cause = cause := by
  simp [Dev.causeOf, Dev.sameCycle, hpower]

theorem Dev.causeOf_eq_ite :
    d.causeOf cause = if d.power = 1 ∧ d.now < 2 then min (d.rg .PWR_RSTCAUSE_CAUSE) cause else cause := by
  simp [Dev.causeOf, Dev.sameCycle]

theorem Dev.causeOf_le : d.causeOf cause ≤ cause := by
  rw [Dev.causeOf]
  split
  · exact Nat.min_le_right ..
  · exact Nat.le_refl _

/-! ## What stands after it -/

theorem Dev.power_restart : (d.restart cause).power = if cause = CAUSE_POWER then 0 else 1 := by
  have hstate : (d.restart cause).power = (if cause = CAUSE_POWER then 0 else 1) % Fld.PWR_STATE_STATE.top := by
    rw [Dev.power, Dev.restart, Dev.rg_setRg_ne _ (by decide), Dev.noteCause, Dev.rg_setRg_ne _ (by decide),
      Dev.rg_setRg_ne _ (by decide), Dev.rg_setRg_self]
  rw [hstate]
  split <;> rfl

theorem Dev.rstCause_restart (hcause : cause < 16) : (d.restart cause).rg .PWR_RSTCAUSE_CAUSE = d.causeOf cause := by
  rw [Dev.restart, Dev.rg_setRg_ne _ (by decide), Dev.noteCause, Dev.rg_setRg_ne _ (by decide), Dev.rg_setRg_self]
  exact Nat.mod_eq_of_lt (Nat.lt_of_le_of_lt Dev.causeOf_le hcause)

theorem Dev.bootCause_restart (hcause : cause < 16) : (d.restart cause).rg .BOOT_STAT_CAUSE = d.causeOf cause := by
  rw [Dev.restart, Dev.rg_setRg_ne _ (by decide), Dev.noteCause, Dev.rg_setRg_self]
  exact Nat.mod_eq_of_lt (Nat.lt_of_le_of_lt Dev.causeOf_le hcause)

/-- Every register but those that a reset sets stands at its reset value. -/
theorem Dev.rg_restart {f : Fld} (hset : f ∉ [.BOOT_STAT_WDOGS, .PWR_STATE_STATE, .PWR_RSTCAUSE_CAUSE, .BOOT_STAT_CAUSE, .ID_CAP0_APT])
    (i r : Nat) : (d.restart cause).rg f i r = f.info.rst := by
  simp only [List.mem_cons, List.not_mem_nil, or_false, not_or] at hset
  obtain ⟨hwdogs, hstate, hcause, hboot, hapt⟩ := hset
  rw [Dev.restart, Dev.rg_setRg_ne _ hapt, Dev.noteCause, Dev.rg_setRg_ne _ hboot, Dev.rg_setRg_ne _ hcause,
    Dev.rg_setRg_ne _ hstate, Dev.rg_setRg_ne _ hwdogs]
  exact Dev.rg_of_regs_nil _ rfl f i r

end Resets

/-- What a reset of node `d` with a cause that it carries out leaves: the node is in RESET, or in OFF; nothing that it was doing
is left; fuses, ROM and what has left the node stand. -/
structure ResetLeaves (d : Dev) (cause : Nat) (e : Dev) : Prop where
  power : e.power = if cause = CAUSE_POWER then 0 else 1
  rstCause : cause < 16 → e.rg .PWR_RSTCAUSE_CAUSE = d.causeOf cause
  bootCause : cause < 16 → e.rg .BOOT_STAT_CAUSE = d.causeOf cause
  reqs : e.reqs = []
  dmas : e.dmas = []
  queues : e.queues = []
  recs : e.recs = []
  fenced : e.fenced = []
  notifiedAt : e.notifiedAt = none
  notifyHeld : e.notifyHeld = false
  pend : e.rg .REF_PEND_PEND = 0
  nodeFenced : e.nodeFenced = false
  identify : e.rg .PANEL_CFG_ID = 0
  trip : e.thermTrip = decide (cause = CAUSE_THERM)
  jtagHold : cause = CAUSE_JTAG → e.jtagHold = true
  fuses : e.fuses = d.fuses
  rom : e.rom = d.rom
  jtagInstr : e.jtagInstr = d.jtagInstr
  out : e.out = d.out
  nor : d.ld.nor = none → d.rcv = none → e.nor = d.nor

theorem Dev.resetLeaves {d : Dev} {cause : Nat} (h : cause = CAUSE_POWER ∨ d.thermTrip = false ∧ d.power ≠ 0) :
    ResetLeaves d cause (d.nodeReset cause) := by
  rw [Dev.nodeReset_carried h]
  obtain ⟨nor, ld, rcv, draws, hcut⟩ := d.cutNor_frame
  exact {
    power := Dev.power_restart
    rstCause := fun hcause => by rw [Dev.rstCause_restart hcause, Dev.causeOf_cutNor]
    bootCause := fun hcause => by rw [Dev.bootCause_restart hcause, Dev.causeOf_cutNor]
    reqs := rfl
    dmas := rfl
    queues := rfl
    recs := rfl
    fenced := rfl
    notifiedAt := rfl
    notifyHeld := rfl
    pend := Dev.rg_restart (by decide) 0 0
    nodeFenced := by rw [Dev.nodeFenced, Dev.rg_restart (by decide)]; rfl
    identify := Dev.rg_restart (by decide) 0 0
    trip := rfl
    jtagHold := fun h => by simp [Dev.restart, Dev.kept, Dev.noteCause, h]
    fuses := by rw [hcut]; rfl
    rom := by rw [hcut]; rfl
    jtagInstr := by rw [hcut]; rfl
    out := by rw [hcut]; rfl
    nor := fun hload hrcv => by rw [Dev.cutNor_idle hload hrcv]; rfl }

theorem Dev.errN_of_no_records {d : Dev} (h : d.recs = []) : d.errN = false := by
  simp [Dev.errN, h]

/-- Settles O42: what `Dev.resetLeaves` says of a reset that no trip and no OFF holds. -/
theorem nodeResetEffect : Obligations.NodeResetEffect := by
  unfold Obligations.NodeResetEffect
  intro d cause htrip hpower hcause e seen
  have h := Dev.resetLeaves (cause := cause) (.inr ⟨htrip, hpower⟩)
  have hseen : d.causeOf cause = seen := Dev.causeOf_eq_ite
  exact ⟨h.power, (h.rstCause hcause).trans hseen, (h.bootCause hcause).trans hseen, h.reqs, h.dmas, h.queues, h.recs,
    h.fenced, h.notifyHeld, h.pend, h.identify, Dev.errN_of_no_records h.recs, h.fuses, h.rom, h.out, h.nor⟩


/-! ## The sources of a reset (Table 22.6) -/

section Commands
variable {c : Instr} {s : State} {t : Nat} {g : Dev → Bool} (f : Dev → Dev)

/-- A command without a condition acts. -/
theorem goes_of_run (hexec : exec c s = s.run t f) : Goes c s (f (node s t)) := hexec

/-- A command acts where its condition holds. -/
theorem goes_of_runIf (hexec : exec c s = s.runIf t g f) (hon : g (node s t) = true) : Goes c s (f (node s t)) := by
  rw [Goes, hexec, State.runIf_pos _ _ _ _ hon]

/-- A command acts where its condition holds, and what can go on then goes on. -/
theorem goes_of_actIf (hexec : exec c s = s.act t g f) (hon : g (node s t) = true) : Goes c s (f (node s t)).pump := by
  rw [Goes, hexec, State.act_pos _ _ _ _ hon]

/-- SOFT_RESET acts where the power block answers. -/
theorem goes_softReset (hports : (node s t).portsOn = true) (p v : Nat) :
    Goes (.softReset t p v) s ((node s t).onBlock 5 0 fun d => if v % 65536 = 0x5AA5 then d.nodeReset CAUSE_SOFT else d) :=
  goes_of_runIf (fun d => d.onBlock 5 0 fun d => if v % 65536 = 0x5AA5 then d.nodeReset CAUSE_SOFT else d) rfl hports

theorem goes_softReset_key (hports : (node s t).portsOn = true) (hopen : (node s t).blockOpen 5 0 = true) {v : Nat}
    (hkey : v % 65536 = 0x5AA5) (p : Nat) : Goes (.softReset t p v) s ((node s t).nodeReset CAUSE_SOFT) := by
  have hgoes := goes_softReset hports p v
  rwa [Dev.onBlock_open _ hopen, if_pos hkey] at hgoes

theorem goes_resetPin (s : State) (t : Nat) : Goes (.resetPin t) s ((node s t).nodeReset CAUSE_PIN) :=
  goes_of_run (fun d => d.nodeReset CAUSE_PIN) rfl

theorem goes_pwrOkFall (s : State) (t : Nat) : Goes (.pwrOkFall t) s ((node s t).nodeReset CAUSE_POWER) :=
  goes_of_run (fun d => d.nodeReset CAUSE_POWER) rfl

theorem goes_controlWdog (hmgmt : (node s t).mgmtOn = true) :
    Goes (.controlWdog t) s ((node s t).nodeReset CAUSE_WDOG) :=
  goes_of_runIf (fun d => d.nodeReset CAUSE_WDOG) rfl hmgmt

theorem goes_nodeReset (hmgmt : (node s t).mgmtOn = true) (a b : Nat) :
    Goes (.nodeReset t a b) s
      (if a = 0x5A && b = 0xA5 then (node s t).nodeReset CAUSE_BMC else (node s t).emit (.mctp [])) :=
  goes_of_runIf (fun d => if a = 0x5A && b = 0xA5 then d.nodeReset CAUSE_BMC else d.emit (.mctp [])) rfl hmgmt

theorem goes_thermalTrip (hpower : (node s t).power ≠ 0) :
    Goes (.thermalTrip t) s ((node s t).nodeReset CAUSE_THERM) := by
  have hgoes := goes_of_run (c := .thermalTrip t) (s := s)
    (fun d => if d.power = 0 then d else d.nodeReset CAUSE_THERM) rfl
  rwa [if_neg hpower] at hgoes

theorem goes_resumeReset {m : Nat} (hpower : (node s t).power = 6)
    (hmain : ((node s t).rg .FTL_VTHR_NVBAR + 2) * 10 ≤ m) :
    Goes (.resumeReset t m) s ((node s t).nodeReset CAUSE_RESUME) := by
  have hgoes := goes_of_run (c := .resumeReset t m) (s := s)
    (fun d => if d.power = 6 && m ≥ (d.rg .FTL_VTHR_NVBAR + 2) * 10 then d.nodeReset CAUSE_RESUME else d) rfl
  simpa only [hpower, hmain, ge_iff_le, decide_true, Bool.and_self, if_true] using hgoes

end Commands

/-- Settles O41: each source finds its condition met. -/
theorem resetSourcesComplete : Obligations.ResetSourcesComplete := by
  unfold Obligations.ResetSourcesComplete
  intro s t
  refine ⟨goes_resetPin s t, goes_pwrOkFall s t,
    fun p v hports => ⟨fun hopen hkey => goes_softReset_key hports hopen hkey p, fun hopen hkey => ?other, fun hclosed => ?stray⟩,
    fun hmgmt => ⟨goes_controlWdog hmgmt, goes_nodeReset hmgmt 0x5A 0xA5, fun a b hne => ?refused⟩,
    goes_thermalTrip, fun m => goes_resumeReset⟩
  case other =>
    have hgoes := goes_softReset hports p v
    rwa [Dev.onBlock_open _ hopen, if_neg hkey] at hgoes
  case stray =>
    have hgoes := goes_softReset hports p v
    rwa [Dev.onBlock_closed _ hclosed] at hgoes
  case refused =>
    have hgoes := goes_nodeReset hmgmt a b
    rwa [if_neg (by simpa using hne)] at hgoes

/-! ## The TAP (R550) -/

/-- EXTEST, CLAMP and HIGHZ hold the node in RESET with cause JTAG. -/
theorem jtagReset_holds {c : Instr} {s : State} {t n : Nat} (hexec : exec c s = s.runTap t fun d => d.jtagReset n) :
    ∃ e : Dev, exec c s = .next { s with dev := e } ∧ e.jtagInstr = n
      ∧ ((node s t).thermTrip = false → (node s t).power ≠ 0 →
        e.jtagHold = true ∧ e.power = 1 ∧ e.rg .PWR_RSTCAUSE_CAUSE = (node s t).causeOf CAUSE_JTAG) := by
  refine ⟨_, hexec, rfl, fun htrip hpower => ?_⟩
  have h := Dev.resetLeaves (d := node s t) (cause := CAUSE_JTAG) (.inr ⟨htrip, hpower⟩)
  exact ⟨h.jtagHold rfl, h.power, h.rstCause (by decide)⟩

/-- Settles O48: an instruction that only selects a register changes nothing else, and three hold the node in RESET. -/
theorem jtagCommandsComplete : Obligations.JtagCommandsComplete := by
  unfold Obligations.JtagCommandsComplete
  intro s t
  exact ⟨rfl, rfl, rfl, rfl, jtagReset_holds rfl, jtagReset_holds rfl, jtagReset_holds rfl⟩

end Sys2Proof.Machine

/-!
PROOFS. The Referee's records: across resets and teardowns, of errors of bib scope; the lands (R499, R500, R511, R513, R518, R561,
Table 23.6).
-/
namespace Sys2Proof

theorem Tab.find_mapV {α : Type} (t : Tab α) (f : Nat → α → α) (n : Nat) :
    Tab.find (Tab.mapV t f) n = (Tab.find t n).map (f n) := by
  induction t with
  | nil => rfl
  | cons p r ih =>
    obtain ⟨k, v⟩ := p
    simp only [Tab.mapV, List.map_cons, Tab.find] at ih ⊢
    split
    · subst_vars; rfl
    · exact ih

namespace Machine

/-! ## Completions leave the records (R147) -/

section Records
variable (d : Dev)

/-- A fold of steps that each leave the records leaves them. -/
theorem Dev.foldl_recs {α : Type} {g : Dev → α → Dev} (hstep : ∀ e a, (g e a).recs = e.recs) (l : List α) :
    (l.foldl g d).recs = d.recs := by
  induction l generalizing d with
  | nil => rfl
  | cons a r ih => rw [List.foldl_cons, ih, hstep]

theorem Dev.countContract_recs (c : Cpl) (excused : Bool) (ns : Nat) : (d.countContract c excused ns).recs = d.recs := by
  unfold Dev.countContract
  cases c.judged with
  | none => rfl
  | some j => simp only [apply_ite Dev.recs, Dev.bump_recs, ite_self]

theorem Dev.writeEntry_recs (rk : Nat) (c : Cpl) : (d.writeEntry rk c).recs = d.recs := by
  unfold Dev.writeEntry
  cases c.req <;> cases c.rerouted <;> rfl

theorem Dev.configAfter_recs (rk : Nat) (c : Cpl) : (d.configAfter rk c).recs = d.recs := by
  unfold Dev.configAfter
  split <;> rfl

theorem Dev.noteOutcome_recs (desc : Bytes) (st : Nat) : (d.noteOutcome desc st).recs = d.recs := by
  unfold Dev.noteOutcome
  split <;> rfl

theorem Dev.endDrain_recs (b : Nat) : (d.endDrain b).recs = d.recs := by
  cases hold : (d.bib b).old with
  | none => simp only [Dev.endDrain, hold]
  | some _ => simp only [Dev.endDrain, hold, apply_ite Dev.recs, Dev.setBib_recs, ite_self]

theorem Dev.post_recs (c : Cpl) : (d.post c).recs = d.recs := by
  simp only [Dev.post, Dev.discardCpl, apply_ite Dev.recs, Dev.countContract_recs, Dev.setRing_recs, Dev.setWin_recs,
    Dev.configAfter_recs, Dev.writeEntry_recs, ite_self]

theorem Dev.complete_recs (r st res : Nat) (config : Option RingRec) : (d.complete r st res config).recs = d.recs := by
  unfold Dev.complete
  cases Tab.find d.reqs r with
  | none => rfl
  | some q => simp only [apply_ite Dev.recs, Dev.endDrain_recs, Dev.post_recs, Dev.noteOutcome_recs, Dev.setReq_recs, ite_self]

theorem Dev.leaveFifo_recs (r : Nat) : (d.leaveFifo r).recs = d.recs := by
  unfold Dev.leaveFifo
  split <;> rfl

theorem Dev.endReq_recs (r st res : Nat) : (d.endReq r st res).recs = d.recs := by
  unfold Dev.endReq
  cases Tab.find d.reqs r with
  | none => rfl
  | some q => simp only [Dev.complete_recs, apply_ite Dev.recs, Dev.leaveFifo_recs, ite_self]

theorem Dev.endAll_recs (f : Req → Bool) (st : Nat) : (d.endAll f st).recs = d.recs :=
  d.foldl_recs (fun e (p : Nat × Req) => e.endReq_recs p.1 st 0) _

/-! ## Teardowns and fences (R124, R509, R513) -/

theorem Dev.startTeardown_recs (b : Nat) (grace : Bool) (pend : Nat) (sw : Bool) (w : Option Nat) :
    (d.startTeardown b grace pend sw w).recs = d.recs := by
  simp only [Dev.startTeardown, Dev.tdCut, apply_ite Dev.recs, Dev.endAll_recs, Dev.updBib_recs, ite_self]

/-- R508: of the records, the end of a teardown touches those of its bib. -/
theorem Dev.endTeardown_recs (b : Nat) : (d.endTeardown b).recs = (d.resolveBib b).recs :=
  Dev.foldl_recs _ (fun e r => e.complete_recs r ST_OK _ none) _

theorem Dev.find_resolveBib_other {b n : Nat} (h : 8192 ≤ n ∨ n / 8 ≠ b) :
    Tab.find (d.resolveBib b).recs n = Tab.find d.recs n := by
  have hother : (decide (n < 8192) && n / 8 == b) = false := by
    rcases h with h | h
    · rw [decide_eq_false (Nat.not_lt.mpr h), Bool.false_and]
    · rw [beq_false_of_ne h, Bool.and_false]
  simp only [Dev.resolveBib, Tab.find_mapV, hother, Bool.false_eq_true, if_false, Option.map_id']

theorem Dev.fenceUnit_recs (ty inst : Nat) : (d.fenceUnit ty inst).recs = d.recs := by
  unfold Dev.fenceUnit
  split <;> rfl

end Records

/-- Settles O56: a reset that is carried out leaves nothing; a teardown resolves the records of its own bib, and a fence none. -/
theorem recordsAcrossResets : Obligations.RecordsAcrossResets := by
  unfold Obligations.RecordsAcrossResets
  refine ⟨fun d cause htrip hpower => ?reset, fun d b n hother => ⟨fun grace sw pend w => ?start, ?ends⟩,
    Dev.fenceUnit_recs⟩
  case reset =>
    have h := Dev.resetLeaves (cause := cause) (.inr ⟨htrip, hpower⟩)
    exact ⟨h.recs, h.notifiedAt, h.notifyHeld, h.fenced, h.nodeFenced, h.pend⟩
  case start => rw [Dev.startTeardown_recs]
  case ends => rw [Dev.endTeardown_recs, Dev.find_resolveBib_other d hother]


/-! ## Errors of bib scope (R499, R500, Table 20.2) -/

section Errors
variable {d : Dev}

/-- A class below the threshold of notification sends nothing (R512). -/
theorem Dev.notify_below {cls : Nat} (h : cls < d.rg .REF_CFG_NOTIFY) : d.notify cls = d := if_pos h

/-- R500: what becomes of the record `old` of a bib and a source with an error of class 1: a FREE one opens with the capture of
the error; one of a lower class rises to this class, and keeps its capture; any other only counts. -/
def Dev.errorRec (d : Dev) (src ty inst b addr acc : Nat) (old : Option RefRec) : RefRec :=
  match old with
  | none =>
    { addr := addr % 2 ^ 64, time := d.now, utype := ty, uinst := inst, bib := some b, gen := (d.bib b).gen, count := 1
      source := src, access := acc, cls := 1, state := 1, steps := 0, since := d.now }
  | some r =>
    if 1 > r.cls then
      { r with count := min 4294967295 (r.count + 1), cls := 1, state := 1, since := d.now, resetDone := false }
    else { r with count := min 4294967295 (r.count + 1) }

/-- An error is counted, and a record of a bib and a source is then `x`. -/
def Dev.recorded (d : Dev) (b src : Nat) (x : RefRec) : Dev :=
  { d.bump .REF_ERRORS_COUNT with recs := Tab.ins d.recs (bibRec b src) x }

theorem Dev.notify_recorded (hnotify : 1 < d.rg .REF_CFG_NOTIFY) (b src : Nat) (x : RefRec) :
    (d.recorded b src x).notify 1 = d.recorded b src x :=
  Dev.notify_below (Nat.lt_of_lt_of_eq hnotify (d.rg_bump_ne (by decide) 1 0 0 0 0).symm)

/-- R499: an error of bib scope of class ACTION_NEEDED, where that class is not notified, is recorded and does no more. -/
theorem Dev.report_bibScope {src : Nat} (hsrc : src ≤ 8) (hcls : srcClass src = 1) (hnotify : 1 < d.rg .REF_CFG_NOTIFY)
    (ty inst b addr acc : Nat) :
    d.report src ty inst (some b) addr acc =
      d.recorded b src (d.errorRec src ty inst b addr acc (Tab.find d.recs (bibRec b src))) := by
  have hquiet := Dev.notify_recorded hnotify b src
  have hscope (e : Dev) : e.classAction 1 src (some b) ty inst = e := rfl
  simp only [Dev.report, hsrc, hcls, Dev.bump_recs, hscope, decide_true, Option.isSome_some, Bool.and_self, if_true,
    Option.isNone_some, Bool.false_and, Bool.false_eq_true, if_false]
  cases hrec : Tab.find d.recs (bibRec b src) with
  | none => exact hquiet _
  | some r =>
    by_cases hrises : 1 > r.cls
    · simp only [if_pos hrises, Dev.errorRec]
      exact hquiet _
    · simp only [if_neg hrises, Dev.errorRec]
      rfl

end Errors

/-- Settles O55: the error is counted and changes the record of its bib and source alone. -/
theorem bibErrorsHaveTheirRecords : Obligations.BibErrorsHaveTheirRecords := by
  unfold Obligations.BibErrorsHaveTheirRecords
  intro d src ty inst b addr acc hlow hsrc hcls hnotify e
  have he : e = d.recorded b src (d.errorRec src ty inst b addr acc (Tab.find d.recs (bibRec b src))) :=
    Dev.report_bibScope hsrc hcls hnotify ty inst b addr acc
  have hown : Tab.find e.recs (bibRec b src) = some (d.errorRec src ty inst b addr acc (Tab.find d.recs (bibRec b src))) := by
    rw [he]
    exact Tab.find_ins_self ..
  refine ⟨fun hfree => ?opens, fun r hrec hhigh => ?counts, fun n hn => ?others, ?counted, ?frame⟩
  case opens => rw [← bibRec, hown, bibRec, hfree]; rfl
  case counts => rw [← bibRec, hown, bibRec, hrec, Dev.errorRec, if_neg (Nat.not_lt.mpr hhigh)]
  case others => rw [he]; exact Tab.find_ins_other _ _ hn
  case counted => rw [he]; exact d.rg_bump_self _ 1 0 0
  case frame => rw [he]; exact ⟨rfl, rfl, rfl, rfl, rfl⟩

/-! ## The lands (R511, R518, R561, Table 23.6) -/

section Lands
variable {d : Dev}

theorem Dev.drives_iff : d.drives = true ↔ 2 ≤ d.power ∧ d.power ≠ 6 := by
  simp [Dev.drives]

/-- R511: ERR_N is low while an uncleared record has a class at or above ERRCLASS. -/
theorem Dev.errN_iff : d.errN = true ↔
    d.rg .REF_CFG_ERRCLASS ≤ 4 ∧ ∃ n r, (n, r) ∈ d.recs ∧ d.rg .REF_CFG_ERRCLASS ≤ r.cls := by
  simp [Dev.errN]

theorem Dev.errPin_of_running (h : 2 ≤ d.power) : d.errPin = d.errN := by simp [Dev.errPin, h]

/-- A land of the panel is not driven where the panel is not. -/
theorem Dev.panel_dark (h : d.drives = false) (n : Nat) :
    d.idPin = false ∧ d.sledPwrEn n = false ∧ d.attnPin n = false ∧ d.pwrPin n = false := by
  simp [Dev.idPin, Dev.sledPwrEn, Dev.attnPin, Dev.pwrPin, h]

end Lands

/-- Settles O57: each land is its registers, where the node drives it. -/
theorem landsShowTheirRegisters : Obligations.LandsShowTheirRegisters := by
  unfold Obligations.LandsShowTheirRegisters
  intro d
  refine ⟨fun hruns => ?err, fun hnever => ?never, fun hreset => ?reset, fun hready => ?identify, fun hdark => ?dark, rfl⟩
  case err => rw [Dev.errPin_of_running hruns, Dev.errN_iff]
  case never =>
    have hhigh : d.errN = false := Bool.eq_false_iff.mpr fun h => by have := (Dev.errN_iff.mp h).1; omega
    rw [Dev.errPin, hhigh, Bool.and_false]
  case reset => simp [Dev.errPin, hreset]
  case identify =>
    have hdrives : d.drives = true := Dev.drives_iff.mpr (by omega)
    simp [Dev.idPin, hdrives]
  case dark =>
    have hoff : d.drives = false := Bool.eq_false_iff.mpr fun h => by have := Dev.drives_iff.mp h; omega
    exact ⟨(Dev.panel_dark hoff 0).1, fun n => (Dev.panel_dark hoff n).2⟩

end Machine
end Sys2Proof

/-!
PROOFS. The management port, quotes, fuse writes and the boot (R531, R541 to R551, Table 22.15).
-/
namespace Sys2Proof.Machine
open Sys2Proof.Spec

/-! ## The management port (R551, Table 22.15) -/

section Management
variable {s : State} {t : Nat}

/-- A command of the management port that only answers. -/
theorem goes_of_reply {c : Instr} {b : Dev → Bytes} (hexec : exec c s = s.runIf t Dev.mgmtOn fun d => d.emit (.mctp (b d)))
    (hmgmt : (node s t).mgmtOn = true) : Goes c s ((node s t).emit (.mctp (b (node s t)))) :=
  goes_of_runIf (fun d => d.emit (.mctp (b d))) hexec hmgmt

/-- An endpoint ID other than 0 and 255 is taken. -/
def Dev.takeEid (d : Dev) (e : Nat) : Dev := if 1 ≤ e && e ≤ 254 then { d with mctpEid := e } else d

theorem Dev.takeEid_valid (d : Dev) {e : Nat} (hlow : 1 ≤ e) (hhigh : e ≤ 254) : d.takeEid e = { d with mctpEid := e } := by
  rw [Dev.takeEid, if_pos (by simp [hlow, hhigh])]

theorem goes_mctpSetEndpointId (hmgmt : (node s t).mgmtOn = true) (e : Nat) :
    Goes (.mctpSetEndpointId t e) s
      (((node s t).takeEid e).emit (.mctp (Config.mctpReply 1 ++ le 1 ((node s t).takeEid e).mctpEid))) :=
  goes_of_runIf (fun d => (d.takeEid e).emit (.mctp (Config.mctpReply 1 ++ le 1 (d.takeEid e).mctpEid))) rfl hmgmt

/-- R551: the node measures its power and its supplies. -/
def Dev.sampled (d : Dev) (x : PowerSample) : Dev :=
  ((d.setRg .PWR_POWER_WATTS x.watts).setRg .PWR_SENSE_MAIN x.main).setRg .PWR_SENSE_HOLD x.hold

theorem goes_getPower (hmgmt : (node s t).mgmtOn = true) (x : PowerSample) :
    Goes (.getPower t x) s (((node s t).sampled x).emit
      (.mctp (((node s t).sampled x).regBytes 5 0x1C 4 ++ ((node s t).sampled x).regBytes 5 0x10 8))) :=
  goes_of_runIf (fun d => (d.sampled x).emit (.mctp ((d.sampled x).regBytes 5 0x1C 4 ++ (d.sampled x).regBytes 5 0x10 8)))
    rfl hmgmt

theorem goes_setIdentify (hmgmt : (node s t).mgmtOn = true) (v : Bool) :
    Goes (.setIdentify t v) s (((node s t).setRg .PANEL_CFG_ID (ofBool v)).emit (.mctp [])) :=
  goes_of_runIf (fun d => (d.setRg .PANEL_CFG_ID (ofBool v)).emit (.mctp [])) rfl hmgmt

end Management

/-- Settles O47: three commands store something; every one answers. -/
theorem managementPortAnswers : Obligations.ManagementPortAnswers := by
  unfold Obligations.ManagementPortAnswers
  intro s t hmgmt
  refine ⟨fun e hlow hhigh => ?eid, goes_of_reply (b := fun d => Config.mctpReply 2 ++ le 1 d.mctpEid) rfl hmgmt,
    goes_of_reply (b := fun _ => Config.mctpReply 4) rfl hmgmt,
    goes_of_reply (b := fun _ => Config.mctpReply 5 ++ le 1 0x7E) rfl hmgmt,
    goes_of_reply (b := fun _ => Config.mctpReply 6) rfl hmgmt, goes_of_reply (b := Dev.statusReply) rfl hmgmt,
    fun x d hd => ?power, fun log sled off => goes_of_reply (b := fun d => d.mctpLog log sled off) rfl hmgmt,
    goes_setIdentify hmgmt⟩
  case eid =>
    have hgoes := goes_mctpSetEndpointId hmgmt e
    rwa [Dev.takeEid_valid _ hlow hhigh] at hgoes
  case power =>
    subst hd
    exact goes_getPower hmgmt x

/-! ## Quotes and fuse writes (R548, R549) -/

section Quotes
variable {d : Dev} {r : Nat} {rec : Bytes}

/-- R548: the oldest quote is signed, written and completed. -/
theorem Dev.quoteSigned_running {rest : List Nat} {q : Req} (hturn : d.quotes = r :: rest)
    (hreq : Tab.find d.reqs r = some q) (hruns : q.ended = false) :
    d.quoteSigned = (({ d with quotes := rest } : Dev).dmaWrite r (u64 q.desc 0x30)
      (({ d with quotes := rest } : Dev).quoteBytes q)).finish r ST_OK (d.rg .MEAS_COUNT_ENTRIES) := by
  simp only [Dev.quoteSigned, hturn, hreq, hruns, Bool.false_eq_true, if_false]
  rfl

theorem Dev.burnt_of_busy {rest : List (Nat × Bytes)} (hturn : d.keyJobs = (r, rec) :: rest) (hbusy : d.fuseBusy = true) :
    d.burnt = d.fuses.act rec := by
  simp only [Dev.burnt, hturn, hbusy, if_true]

/-- R549: of a write that a node reset has overtaken, only the fuses remain. -/
theorem Dev.fuseDone_overtaken (hturn : d.keyJobs = [(0, rec)]) (hbusy : d.fuseBusy = true) :
    d.fuseDone = { d with fuses := d.fuses.act rec, keyJobs := [], fuseBusy := false } := by
  simp [Dev.fuseDone, hturn, hbusy, Dev.keyNext]

end Quotes

/-- R549: what is done at the end of a fuse write is done, and the fuses are what the write has left. -/
theorem exec_fuseWriteDone (s : State) (t : Nat) :
    exec (.fuseWriteDone t) s = .next { s with dev := { (node s t).fuseDone.pump with
      fuses := (node s t).burnt, rom := s.dev.rom, jtagInstr := s.dev.jtagInstr } } := rfl

/-- Settles O49: the quote in turn is answered, and a fuse write that ends has acted, also where a node reset has overtaken
its request. -/
theorem quotesAndFuseWritesComplete : Obligations.QuotesAndFuseWritesComplete := by
  unfold Obligations.QuotesAndFuseWritesComplete
  intro s t
  refine ⟨fun r rest q hcore hturn hreq hruns => ?quote, fun r rec rest hturn hbusy => ?write,
    fun rec hoff hturn hbusy => ?overtaken⟩
  case quote =>
    rw [← Dev.quoteSigned_running hturn hreq hruns]
    exact goes_of_act (f := Dev.quoteSigned) rfl hcore
  case write => exact ⟨_, rfl, Dev.burnt_of_busy hturn hbusy, rfl⟩
  case overtaken =>
    have hdone := Dev.fuseDone_overtaken hturn hbusy
    have hstill : (node s t).fuseDone.pump = (node s t).fuseDone := Dev.pump_off (by rw [hdone]; exact hoff)
    rw [exec_fuseWriteDone, hstill, hdone, Dev.burnt_of_busy hturn hbusy]
    rfl

end Sys2Proof.Machine

/-!
PROOFS. Boot, discovery and recovery (R406, R531, R535, R541 to R545).
-/
namespace Sys2Proof.Machine
open Sys2Proof.Spec

/-! ## The release of reset (R542) -/

section Boot
variable {d : Dev} {st : Straps}

/-- A node in test, under the TAP or in a thermal trip stays in RESET. -/
theorem Dev.boot_held (h : st.testEn = true ∨ d.jtagHold = true ∨ d.thermTrip = true) :
    d.boot st = d.setRg .PWR_STATE_STATE 1 := by
  rw [Dev.boot, if_pos (by simpa [or_assoc] using h)]

variable (htest : st.testEn = false) (hhold : d.jtagHold = false) (htrip : d.thermTrip = false)
include htest hhold htrip

/-- Boot mode 2 or 3: a node whose identity is sound waits for a recovery load (R545). -/
theorem Dev.boot_recovery (hmode : 2 ≤ st.bootMode) (hident : (d.bootStep1 st true).bootStep2.2 = true) :
    d.boot st = (d.bootStep1 st true).bootStep2.1.setRg .BOOT_STAT_PHASE 8 := by
  simp [Dev.boot, htest, hhold, htrip, hmode, hident]

/-- R541: firmware without an error runs, unless the watchdog has ended three boots. -/
theorem Dev.boot_firmware (hmode : st.bootMode < 2) (hident : (d.bootStep1 st false).bootStep2.2 = true) {e : Dev}
    (he : e = (d.bootStep1 st false).bootStep2.1.setRg .BOOT_STAT_PHASE 2) (hsound : e.fwError e.norFirmware = 0)
    (hloops : e.rg .BOOT_STAT_WDOGS < 3) : d.boot st = e.firmwareRuns e.norFirmware := by
  subst he
  have hnorm : decide (2 ≤ st.bootMode) = false := decide_eq_false (Nat.not_le.mpr hmode)
  simp only [Dev.boot, htest, hhold, htrip, hnorm, hident, hsound, Bool.or_self, Bool.not_true, Bool.false_eq_true, if_false,
    bne_self_eq_false, ge_iff_le, Nat.not_le.mpr hloops]

end Boot

/-! ## Overruns and recovery (R542, R545) -/

section Steps
variable {d : Dev}

/-- Step 6 ends with every sled not yet discovered in FAILED. -/
def Dev.failUndiscovered (d : Dev) : Dev :=
  d.undiscovered.foldl (fun d n => (d.setRg .SLED_STAT_STATE 5 n).setSeq n 0) d

/-- The three steps whose overrun has an end of its own (Table 22.7). -/
theorem Dev.stepOverrun_cases (hboot : d.power = 2) :
    (d.rg .BOOT_STAT_PHASE = 4 → d.stepOverrun = d.failUndiscovered.bootStep7)
    ∧ (d.rg .BOOT_STAT_PHASE = 5 → d.stepOverrun = d.nodeReset CAUSE_WDOG)
    ∧ (d.rg .BOOT_STAT_PHASE = 6 → d.ld.busy = true → d.stepOverrun = d.loadFails ST_TIMEOUT 0 none) := by
  refine ⟨fun hphase => ?_, fun hphase => ?_, fun hphase hbusy => ?_⟩
  · simp [Dev.stepOverrun, hboot, hphase, Dev.failUndiscovered]
  · simp [Dev.stepOverrun, hboot, hphase]
  · simp [Dev.stepOverrun, hboot, hphase, hbusy]

/-- A recovery load is asked for by one DMA read through port A. -/
def Dev.askRecovery (d : Dev) (x : Recovery) : Dev :=
  ({ d with ids := d.ids + 1, rcv := some x } : Dev).emit (.dmaRead (.pcie 0 0) x.dma x.addr x.len)

theorem Dev.rcvCmd_starts {v : Nat} (hpower : d.power = 7) (hphase : d.rg .BOOT_STAT_PHASE = 8) (hgo : bit v 0 = true)
    (hlen : d.rg .RCV_LEN_BYTES ≠ 0) {e : Dev} (he : e = (d.setRg .BOOT_STAT_PHASE 9).setRg .RCV_STAT_STATE 1) :
    d.rcvCmd 0 v = e.askRecovery
      { dma := e.ids, addr := e.rg .RCV_ADDR_ADDR * 64, len := e.rg .RCV_LEN_BYTES, store := bit v 1 } := by
  have hsame : e.rg .RCV_LEN_BYTES = d.rg .RCV_LEN_BYTES := by
    rw [he, Dev.rg_setRg_ne _ (by decide), Dev.rg_setRg_ne _ (by decide)]
  subst he
  rw [← hsame] at hlen
  simp only [Dev.rcvCmd, hpower, hphase, hgo, if_neg hlen, bne_self_eq_false, Bool.not_true, Bool.or_self, Bool.false_eq_true,
    if_false]
  rfl

/-- R532: in HALT nothing follows a firmware image that has been written. -/
theorem Dev.rcvWritten_stored {x : Recovery} (hrcv : d.rcv = some x) (hwriting : x.writing = true) (hpower : d.power ≠ 7) :
    d.rcvWritten true = { d.norStore norFw x.image with rcv := some { x with writing := false } } := by
  have hsame : ¬ ({ d.norStore norFw x.image with rcv := some { x with writing := false } } : Dev).power = 7 := hpower
  simp only [Dev.rcvWritten, hrcv, hwriting, if_neg hsame, Bool.not_true, Bool.false_eq_true, if_false]

/-- R406: what is found on a sled stands, and a sled that boot has powered leaves its place in the boot. -/
def Dev.discoveryEnd (d : Dev) (n : Nat) (info : SledInfo) : Dev :=
  if n > 3 || d.sledState n != 1 then d
  else if (d.discovered n info).seqOf n = 7 then (d.discovered n info).setSeq n 0 else d.discovered n info

theorem Dev.discoveryEnd_discovering {n : Nat} (hn : n ≤ 3) (hstate : d.sledState n = 1) (info : SledInfo) :
    d.discoveryEnd n info =
      if (d.discovered n info).seqOf n = 7 then (d.discovered n info).setSeq n 0 else d.discovered n info := by
  rw [Dev.discoveryEnd, if_neg (by simp [hstate, Nat.not_lt.mpr hn])]

end Steps

/-! ## The commands -/

section Commands
variable {s : State} {t : Nat}

theorem goes_resetRelease (hreset : (node s t).inReset = true) (st : Straps) :
    Goes (.resetRelease t st) s ((node s t).boot st).pump := goes_of_actIf (fun d => d.boot st) rfl hreset

theorem goes_pwrOkRise (hoff : (node s t).power = 0) : Goes (.pwrOkRise t) s ((node s t).setRg .PWR_STATE_STATE 1) := by
  have hgoes := goes_of_run (c := .pwrOkRise t) (s := s) (fun d => if d.power = 0 then d.setRg .PWR_STATE_STATE 1 else d) rfl
  rwa [if_pos hoff] at hgoes

theorem goes_sledDiscoveryEnd (hcore : (node s t).coreOn = true) (n : Nat) (info : SledInfo) :
    Goes (.sledDiscoveryEnd t n info) s ((node s t).discoveryEnd n info).pump :=
  goes_of_actIf (fun d => d.discoveryEnd n info) rfl hcore

theorem goes_bootStepOverrun (hboot : (node s t).power = 2) :
    Goes (.bootStepOverrun t) s (node s t).stepOverrun.pump :=
  goes_of_actIf Dev.stepOverrun rfl (show (node s t).coreOn = true by rw [Dev.coreOn, hboot]; rfl)

theorem goes_recoveryLoad (hmgmt : (node s t).mgmtOn = true) (p v : Nat) :
    Goes (.recoveryLoad t p v) s ((node s t).rcvCmd p v).pump := goes_of_actIf (fun d => d.rcvCmd p v) rfl hmgmt

theorem goes_recoveryWriteDone (hmgmt : (node s t).mgmtOn = true) (ok : Bool) :
    Goes (.recoveryWriteDone t ok) s ((node s t).rcvWritten ok).pump := goes_of_actIf (fun d => d.rcvWritten ok) rfl hmgmt

theorem goes_timeClockReturn (hmgmt : (node s t).mgmtOn = true) :
    Goes (.timeClockReturn t) s
      (((node s t).setRg .PWR_CLK_TIMEBK 0).setRg .PWR_CLK_ETH (3 * (node s t).rg .PWR_CLK_CORE)) :=
  goes_of_runIf (fun d => (d.setRg .PWR_CLK_TIMEBK 0).setRg .PWR_CLK_ETH (3 * d.rg .PWR_CLK_CORE)) rfl hmgmt

end Commands

/-- Settles O44: each event finds its condition met. -/
theorem bootEventsComplete : Obligations.BootEventsComplete := by
  unfold Obligations.BootEventsComplete
  intro s t
  refine ⟨goes_pwrOkRise,
    fun st hreset => ⟨fun hheld => ?held, fun htest hhold htrip hmode hident => ?recovery,
      fun htest hhold htrip hmode hident d hd hsound hloops => ?firmware⟩,
    fun n info hcore hn hstate hseq => ?inserted, fun n info hcore hn hstate hseq => ?atBoot, fun hboot => ?overruns,
    fun v hpower hphase hgo hlen d x hd hx => ?load, fun x hmgmt hrcv hwriting hpower => ?written, goes_timeClockReturn⟩
  case held =>
    rw [← Dev.boot_held hheld]
    exact goes_resetRelease hreset st
  case recovery =>
    rw [← Dev.boot_recovery htest hhold htrip hmode hident]
    exact goes_resetRelease hreset st
  case firmware =>
    rw [← Dev.boot_firmware htest hhold htrip hmode hident hd hsound hloops]
    exact goes_resetRelease hreset st
  case inserted =>
    have hgoes := goes_sledDiscoveryEnd hcore n info
    rwa [Dev.discoveryEnd_discovering hn hstate, if_neg hseq] at hgoes
  case atBoot =>
    have hgoes := goes_sledDiscoveryEnd hcore n info
    rwa [Dev.discoveryEnd_discovering hn hstate, if_pos hseq] at hgoes
  case overruns =>
    have hgoes := goes_bootStepOverrun hboot
    obtain ⟨hdiscovery, hreplay, hload⟩ := Dev.stepOverrun_cases hboot
    refine ⟨fun hphase => ?_, fun hphase => ?_, fun hphase hbusy => ?_⟩
    · rwa [hdiscovery hphase] at hgoes
    · rwa [hreplay hphase] at hgoes
    · rwa [hload hphase hbusy] at hgoes
  case load =>
    have hmgmt : (node s t).mgmtOn = true := by rw [Dev.mgmtOn, hpower]; rfl
    have hgoes := goes_recoveryLoad hmgmt 0 v
    rwa [Dev.rcvCmd_starts hpower hphase hgo hlen hd, ← hx] at hgoes
  case written =>
    have hgoes := goes_recoveryWriteDone hmgmt true
    rwa [Dev.rcvWritten_stored hrcv hwriting hpower] at hgoes

end Sys2Proof.Machine

/-!
PROOFS. Falls and rises of the supplies, the flush and HALT (R425, R427, R532).
-/
namespace Sys2Proof.Machine
open Sys2Proof.Spec

section Supply
variable {d : Dev} {m : Nat}

/-! ## The NV bar and the hold floor (R425) -/

/-- The supply is measured, and below the NV bar the node enters NVLOW, once. -/
def Dev.belowBar (d : Dev) (m : Nat) : Dev :=
  ((d.setRg .PWR_SENSE_MAIN m).setRg .FTL_SUPPLY_NVLOW 1).bump .FTL_NVENTRY_COUNT

/-- What NV_BAR_ENTRY makes of the node. -/
def Dev.nvBarEntry (d : Dev) (m : Nat) : Dev :=
  let d := d.setRg .PWR_SENSE_MAIN m
  if m < d.rg .FTL_VTHR_NVBAR * 10 && d.rg .FTL_SUPPLY_NVLOW = 0 then
    let d := (d.setRg .FTL_SUPPLY_NVLOW 1).bump .FTL_NVENTRY_COUNT
    if d.coreOn then d.unspill.kick else d
  else d

theorem Dev.nvBarEntry_below (hlow : m < d.rg .FTL_VTHR_NVBAR * 10) (hfirst : d.rg .FTL_SUPPLY_NVLOW = 0) :
    d.nvBarEntry m = if (d.belowBar m).coreOn then (d.belowBar m).unspill.kick else d.belowBar m := by
  rw [← d.rg_setRg_ne (f := .PWR_SENSE_MAIN) (by decide) m 0 0 0 0] at hlow hfirst
  rw [Dev.nvBarEntry, if_pos (by simp [hlow, hfirst])]
  rfl

theorem Dev.nvBarExit_above (hhigh : (d.rg .FTL_VTHR_NVBAR + 2) * 10 ≤ m) (hlow : d.rg .FTL_SUPPLY_NVLOW = 1) :
    d.nvBarExit m = ((d.setRg .PWR_SENSE_MAIN m).setRg .FTL_SUPPLY_NVLOW 0).kick := by
  rw [← d.rg_setRg_ne (f := .PWR_SENSE_MAIN) (by decide) m 0 0 0 0] at hhigh hlow
  rw [Dev.nvBarExit, if_pos (by simp [hhigh, hlow])]

/-- Without a flush there is none to change. -/
theorem Dev.updFlush_none (hnone : d.fl.flushes = none) (f : Flush → Flush) : d.updFlush f = d := by
  rw [Dev.updFlush, hnone, Option.map_none, ← hnone]

/-- What HOLD_FLOOR_REACHED makes of the node. -/
def Dev.belowFloor (d : Dev) (m : Nat) : Dev :=
  let d := d.setRg .PWR_SENSE_HOLD m
  if m < d.rg .FTL_VTHR_FLOOR * 10 then (d.setRg .FTL_SUPPLY_HOLDLOW 1).updFlush fun x =>
    { x with floor := x.floor || (d.rg .FTL_SUPPLY_FLUSH = 1 && !x.endWhole) }
  else d

theorem Dev.belowFloor_no_flush (hlow : m < d.rg .FTL_VTHR_FLOOR * 10) (hnone : d.fl.flushes = none) :
    d.belowFloor m = (d.setRg .PWR_SENSE_HOLD m).setRg .FTL_SUPPLY_HOLDLOW 1 := by
  rw [← d.rg_setRg_ne (f := .PWR_SENSE_HOLD) (by decide) m 0 0 0 0] at hlow
  rw [Dev.belowFloor, if_pos hlow]
  exact Dev.updFlush_none (d := (d.setRg .PWR_SENSE_HOLD m).setRg .FTL_SUPPLY_HOLDLOW 1) hnone _

/-! ## The flush (R427, R532) -/

theorem Dev.loss_serving (hruns : d.power = 3 ∨ d.power = 4) (cause : Nat) :
    d.loss cause = d.dropPasses.beginFlush cause := by
  rcases hruns with h | h <;> simp [Dev.loss, Dev.coreOn, h]

theorem Dev.loss_recovery (hrcv : d.power = 7) (cause : Nat) : d.loss cause = d.lossHalt := if_pos hrcv

/-- Where nothing is left to start, nothing starts. -/
theorem Dev.startTodo_nothing (hnone : d.fl.flushTodo = []) (flush : Bool) : d.startTodo flush = d := by
  rw [Dev.startTodo, hnone, List.foldl_nil, ← hnone]

/-- The flush has nothing in progress and nothing to start. -/
theorem Dev.flushBusy_eq_false (h : d.flushBusy = false) : d.fl.flushTodo = [] := by
  rw [Dev.flushBusy, Bool.or_eq_false_iff] at h
  simpa using h.1

variable {x : Flush}

/-- A flush after its last step goes nowhere. -/
theorem Dev.flushPump_last (hflush : d.fl.flushes = some x) (hidle : d.flushBusy = false) (hlast : x.step = 6) (n : Nat) :
    Dev.flushPump n d = d := by
  cases n with
  | zero => rfl
  | succ n => simp [Dev.flushPump, Dev.startTodo_nothing (Dev.flushBusy_eq_false hidle), hflush, hlast]

/-- Below the floor no program of a flush starts any more. -/
theorem Dev.flushPump_floor (hflush : d.fl.flushes = some x) (hfloor : x.floor = true) (n : Nat) :
    Dev.flushPump n d = d := by
  cases n with
  | zero => rfl
  | succ n => simp [Dev.flushPump, hflush, hfloor]

/-- The programs of the end record that are in progress. -/
def Dev.endPrograms (d : Dev) : Tab FOp := d.fl.ops.filter fun p => p.2.why == some .endRecord

/-- The flush once the programs of its end record have ended. -/
def Dev.endsWritten (d : Dev) : Dev :=
  Dev.flushPump 8 (d.endPrograms.foldl (fun d p => (d.dropOp p.1).flushEnd1 .endRecord p.2) d)

/-- What FLUSH_END makes of the node. -/
def Dev.flushOver (d : Dev) : Dev :=
  if d.power != 5 then d
  else match d.endsWritten.fl.flushes with
    | some x => if (x.endWhole && !d.endsWritten.flushBusy) || (x.floor && d.endsWritten.fl.ops.isEmpty)
        then d.endsWritten.halt else d.endsWritten
    | none => d.endsWritten

theorem Dev.flushOver_recorded (hpower : d.power = 5) (hflush : d.fl.flushes = some x) (hwhole : x.endWhole = true)
    (hends : d.endPrograms = []) (hidle : d.flushBusy = false) (hlast : x.step = 6) : d.flushOver = d.halt := by
  have hsame : d.endsWritten = d := by
    rw [Dev.endsWritten, hends]
    exact Dev.flushPump_last hflush hidle hlast 8
  simp [Dev.flushOver, hpower, hsame, hflush, hwhole, hidle]

theorem Dev.flushOver_floor (hpower : d.power = 5) (hflush : d.fl.flushes = some x) (hfloor : x.floor = true)
    (hops : d.fl.ops = []) : d.flushOver = d.halt := by
  have hsame : d.endsWritten = d := by
    rw [Dev.endsWritten, Dev.endPrograms, hops]
    exact Dev.flushPump_floor hflush hfloor 8
  simp [Dev.flushOver, hpower, hsame, hflush, hfloor, hops]

end Supply

/-! ## The commands -/

section Commands
variable {s : State} {t : Nat} (hmgmt : (node s t).mgmtOn = true)
include hmgmt

theorem goes_nvBarEntry (m : Nat) : Goes (.nvBarEntry t m) s ((node s t).nvBarEntry m).pump :=
  goes_of_actIf (fun d => d.nvBarEntry m) rfl hmgmt

theorem goes_nvBarExit (m : Nat) : Goes (.nvBarExit t m) s ((node s t).nvBarExit m).panelStep :=
  goes_of_runIf (fun d => (d.nvBarExit m).panelStep) rfl hmgmt

/-- The supply of the hold capacitors is measured; at the floor HOLDLOW falls. -/
theorem goes_holdFloorRecovered {m : Nat} (hhigh : (node s t).rg .FTL_VTHR_FLOOR * 10 ≤ m) :
    Goes (.holdFloorRecovered t m) s (((node s t).setRg .PWR_SENSE_HOLD m).setRg .FTL_SUPPLY_HOLDLOW 0) := by
  have hgoes := goes_of_runIf (c := .holdFloorRecovered t m) (fun d =>
    if (d.setRg .PWR_SENSE_HOLD m).rg .FTL_VTHR_FLOOR * 10 ≤ m
    then (d.setRg .PWR_SENSE_HOLD m).setRg .FTL_SUPPLY_HOLDLOW 0 else d.setRg .PWR_SENSE_HOLD m) rfl hmgmt
  rwa [if_pos (by rwa [Dev.rg_setRg_ne _ (by decide)])] at hgoes

theorem goes_holdFloorReached (m : Nat) : Goes (.holdFloorReached t m) s ((node s t).belowFloor m) :=
  goes_of_runIf (fun d => d.belowFloor m) rfl hmgmt

/-- HOLDUP_N asserted is a loss, whatever the supply measures. -/
theorem goes_flushEntry_holdup (m : Nat) :
    Goes (.flushEntry t 1 m) s (((node s t).setRg .PWR_SENSE_MAIN m).loss 1).pump :=
  goes_of_actIf (fun d => (d.setRg .PWR_SENSE_MAIN m).loss 1) rfl hmgmt

theorem goes_flushEnd : Goes (.flushEnd t) s (node s t).flushOver :=
  goes_of_runIf Dev.flushOver rfl hmgmt

end Commands

/-- Settles O45: each event finds its supply where its rule says. -/
theorem supplyEventsComplete : Obligations.SupplyEventsComplete := by
  unfold Obligations.SupplyEventsComplete
  intro s t m hmgmt
  refine ⟨fun hlow hfirst d hd => ?entry, fun hhigh hlow => ?exits, goes_holdFloorRecovered hmgmt, fun hlow hnone => ?floor,
    fun hruns => ?flush, fun hrcv => ?halt, fun x hpower hflush hwhole hends hidle hlast => ?recorded,
    fun x hpower hflush hfloor hops => ?cut⟩
  case entry =>
    have hgoes := goes_nvBarEntry hmgmt m
    rw [Dev.nvBarEntry_below hlow hfirst, Dev.belowBar, ← hd] at hgoes
    exact ⟨fun hon => by rwa [if_pos hon] at hgoes, fun hoff => by rwa [hoff, if_neg Bool.false_ne_true] at hgoes⟩
  case exits =>
    rw [← Dev.nvBarExit_above hhigh hlow]
    exact goes_nvBarExit hmgmt m
  case floor =>
    rw [← Dev.belowFloor_no_flush hlow hnone]
    exact goes_holdFloorReached hmgmt m
  case flush =>
    have hsame : ((node s t).setRg .PWR_SENSE_MAIN m).power = (node s t).power := Dev.rg_setRg_ne _ (by decide) ..
    rw [← Dev.loss_serving (by rwa [hsame])]
    exact goes_flushEntry_holdup hmgmt m
  case halt =>
    have hsame : ((node s t).setRg .PWR_SENSE_MAIN m).power = (node s t).power := Dev.rg_setRg_ne _ (by decide) ..
    rw [← Dev.loss_recovery (hsame.trans hrcv) 1]
    exact goes_flushEntry_holdup hmgmt m
  case recorded =>
    rw [← Dev.flushOver_recorded hpower hflush hwhole hends hidle hlast]
    exact goes_flushEnd hmgmt
  case cut =>
    rw [← Dev.flushOver_floor hpower hflush hfloor hops]
    exact goes_flushEnd hmgmt

end Sys2Proof.Machine

/-!
PROOFS. Errors that are reported, vectors held back, and records whose grace runs out (R500 to R512).
-/
namespace Sys2Proof.Machine
open Sys2Proof.Spec

section Referee
variable {d : Dev}

/-- The counter that an error's report advances. -/
def Dev.countError (d : Dev) (e : ErrReport) : Dev :=
  match eccCounter e.source e.utype e.onDie with
  | some f => d.bump f 1 e.uinst
  | none => d

theorem Dev.takeError_contained {e : ErrReport} (hsource : e.source ≠ SRC_DATA_UNCORR) :
    d.takeError e = (d.countError e).report e.source e.utype e.uinst e.bib e.addr e.access := if_neg hsource

theorem Dev.takeError_uncorrected {e : ErrReport} (hsource : e.source = SRC_DATA_UNCORR) :
    d.takeError e = ((d.countError e).report e.source e.utype e.uinst e.bib e.addr e.access).errorEnds e := if_pos hsource

/-! ## The escalation of a record (R507) -/

section Escalation
variable {n b : Nat} {x : RefRec}
variable (hrec : Tab.find d.recs n = some x) (hstate : x.state = 1)
variable (hdue : x.since + d.rg .REF_CFG_GRACE_US * 1000 ≤ d.now)
include hrec hstate hdue

/-- An OPEN bib record of class 1 becomes class 2. -/
theorem Dev.graceExpiry_bib_contained (hbib : x.bib = some b) (hcls : x.cls = 1) (hbound : (d.bib b).state ≠ 4)
    (hfirst : x.resetDone = false) :
    d.graceExpiry n = ((escalated d n { x with cls := 2 }).bibFatal b).notify 2 := by
  simp [Dev.graceExpiry, hrec, hstate, hdue, hbib, hcls, hbound, hfirst, escalated]

/-- An OPEN bib record of class 2 resets its bib, once. -/
theorem Dev.graceExpiry_bib_fatal (hbib : x.bib = some b) (hcls : x.cls = 2) (hbound : (d.bib b).state ≠ 4)
    (hfirst : x.resetDone = false) :
    d.graceExpiry n = (escalated d n { x with resetDone := true }).bibEvent b .expiry none := by
  simp [Dev.graceExpiry, hrec, hstate, hdue, hbib, hcls, hbound, hfirst, escalated]

/-- An OPEN unit record of class 1 fences its unit. -/
theorem Dev.graceExpiry_unit_contained (hbib : x.bib = none) (hcls : x.cls = 1) :
    d.graceExpiry n = ((escalated d n { x with cls := 3 }).fenceUnit x.utype x.uinst).notify 3 := by
  simp [Dev.graceExpiry, hrec, hstate, hdue, hbib, hcls, escalated]

/-- An OPEN unit record of class 3 fences the node. -/
theorem Dev.graceExpiry_unit_fatal (hbib : x.bib = none) (hcls : x.cls = 3) :
    d.graceExpiry n = ((escalated d n { x with cls := 4 }).fenceNode).notify 4 := by
  simp [Dev.graceExpiry, hrec, hstate, hdue, hbib, hcls, escalated]

end Escalation
end Referee

section Commands
variable {s : State} {t : Nat}

theorem goes_errorReport (hmgmt : (node s t).mgmtOn = true) (e : ErrReport) :
    Goes (.errorReport t e) s ((node s t).takeError e).pump := goes_of_actIf (fun d => d.takeError e) rfl hmgmt

theorem goes_graceExpiry (hmgmt : (node s t).mgmtOn = true) (n : Nat) :
    Goes (.graceExpiry t n) s ((node s t).graceExpiry n).pump := goes_of_actIf (fun d => d.graceExpiry n) rfl hmgmt

/-- The held vector is sent once 10 µs have passed. -/
theorem goes_notifyHoldoffEnd (hmgmt : (node s t).mgmtOn = true) {u : Nat} (hsent : (node s t).notifiedAt = some u)
    (hdue : u + 10000 ≤ (node s t).now) (hheld : (node s t).notifyHeld = true) :
    Goes (.notifyHoldoffEnd t) s (node s t).refVector := by
  have hgoes := goes_of_runIf (c := .notifyHoldoffEnd t) (s := s) (fun d =>
    let due := match d.notifiedAt with
      | some u => decide (u + 10000 ≤ d.now)
      | none => true
    if d.notifyHeld && due then d.refVector else d) rfl hmgmt
  simpa only [hsent, hheld, hdue, decide_true, Bool.and_self, if_true] using hgoes

end Commands

/-- Settles O36: an error is counted and recorded, and only an uncorrectable one ends what used the word; a record whose
grace has run out takes the one step that its scope and class give. -/
theorem refereeEventsComplete : Obligations.RefereeEventsComplete := by
  unfold Obligations.RefereeEventsComplete
  intro s t hmgmt
  refine ⟨?report, ?holdoff, fun n x hrec hstate hdue => ⟨?contained, ?fatal, ?unit, ?unitFatal⟩⟩
  case report =>
    rintro e d rfl
    constructor
    · intro hsource
      have hgoes := goes_errorReport hmgmt e
      rwa [Dev.takeError_contained hsource] at hgoes
    · intro hsource
      have hgoes := goes_errorReport hmgmt e
      rwa [Dev.takeError_uncorrected hsource] at hgoes
  case holdoff => exact fun u hsent hdue hheld => goes_notifyHoldoffEnd hmgmt hsent hdue hheld
  case contained =>
    intro b hbib hcls hbound hfirst
    rw [← Dev.graceExpiry_bib_contained hrec hstate hdue hbib hcls hbound hfirst]
    exact goes_graceExpiry hmgmt n
  case fatal =>
    intro b hbib hcls hbound hfirst
    rw [← Dev.graceExpiry_bib_fatal hrec hstate hdue hbib hcls hbound hfirst]
    exact goes_graceExpiry hmgmt n
  case unit =>
    intro hbib hcls
    rw [← Dev.graceExpiry_unit_contained hrec hstate hdue hbib hcls]
    exact goes_graceExpiry hmgmt n
  case unitFatal =>
    intro hbib hcls
    rw [← Dev.graceExpiry_unit_fatal hrec hstate hdue hbib hcls]
    exact goes_graceExpiry hmgmt n

end Sys2Proof.Machine

/-!
PROOFS. Infield's events (R291 to R308): what a grant, an arrival, the end of a layer and a hang make of the node, in terms
of the pass that they name.
-/
namespace Sys2Proof.Machine
open Sys2Proof.Spec

section Infield
variable {d : Dev}

/-! ## The grant of a pass (R293, R295) -/

/-- R295: every tile picked is a free one. -/
theorem mem_of_mem_pickTiles {free : List Nat} {n k : Nat} (h : k ∈ pickTiles free n) : k ∈ free := by
  dsimp only [pickTiles] at h
  split at h
  · exact (List.mem_filter.mp (List.mem_of_mem_take h)).1
  · exact List.mem_of_mem_take h

/-- R295: as many tiles are picked as asked for, where as many are free. -/
theorem length_pickTiles {free : List Nat} {n : Nat} (h : n ≤ free.length) : (pickTiles free n).length = n := by
  dsimp only [pickTiles]
  split
  · rename_i f hfield
    have hroom := List.find?_some hfield
    simp only [decide_eq_true_eq] at hroom
    exact List.length_take_of_le hroom
  · exact List.length_take_of_le h

section Grant
variable {part : Nat} {w : PassWait} {rest : List PassWait} {g : Prog}
variable (hqueue : Tab.get [] d.inf.queue part = w :: rest)
include hqueue

/-- A run whose slot is empty is refused. -/
theorem Dev.grantPass_no_program (hprog : d.prog part w.slot = none) :
    d.grantPass part =
      (d.setInf fun x => { x with queue := Tab.put [] x.queue part rest }).complete w.r ST_REFUSED_RESOURCE 4 := by
  simp only [Dev.grantPass, hqueue, hprog]

variable (hprog : d.prog part w.slot = some g)
include hprog

/-- A run whose program no longer fits its partition is refused. -/
theorem Dev.grantPass_too_few_tiles (hfew : (d.unfenced part).length < g.tiles) :
    d.grantPass part =
      (d.setInf fun x => { x with queue := Tab.put [] x.queue part rest }).complete w.r ST_REFUSED_RESOURCE 2 := by
  simp only [Dev.grantPass, hqueue, hprog, if_pos hfew]

/-- The tiles that a partition has free. -/
def Dev.idleTiles (d : Dev) (part : Nat) : List Nat := (d.unfenced part).filter fun k => !d.tileBusy k

/-- The requests of a pass that the head of a queue is granted: its own rows, and those of the runs that join it. -/
def Dev.grantShares (d : Dev) (w : PassWait) (rest : List PassWait) (g : Prog) : List PassReq :=
  let rows := min w.left g.rowmax
  let more := if rows < w.left then [] else joinPass w.bib w.slot (g.rowmax - rows) (rest.filter d.passReady)
  ((w, rows) :: more.map fun x => (x, x.left)).map fun s =>
    { r := s.1.r, kind := s.1.kind, first := s.1.next, rows := s.2, seed := d.seedOf s.1 }

omit hqueue hprog in
theorem Dev.head_grantShares :
    (d.grantShares w rest g).head?.map (fun q => (q.r, q.first, q.rows)) = some (w.r, w.next, min w.left g.rowmax) := rfl

/-- A run that is ready, in no pass, and whose tiles and pages are free has a pass of its own, which then asks for its first
layers. -/
theorem Dev.grantPass_granted (hready : d.passReady w = true)
    (hout : ((Tab.vals d.inf.passes).any fun x => x.reqs.any fun q => q.r == w.r) = false)
    (hfree : g.tiles ≤ (d.idleTiles part).length) (hroom : d.pagesHeld part + g.pages ≤ d.pageShare part) :
    ∃ (n : Nat) (p : Pass) (e : Dev),
      d.grantPass part = ((List.range (min g.window g.layers.length)).foldl (fun d l => d.askLayer n l) e).tryLayer n
      ∧ e.pass n = some p ∧ p.part = part ∧ p.slot = w.slot ∧ p.bib = w.bib ∧ p.granted = d.now
      ∧ p.tiles = pickTiles (d.idleTiles part) g.tiles ∧ p.reqs = d.grantShares w rest g := by
  have hfew : ¬ (d.unfenced part).length < g.tiles :=
    Nat.not_lt.mpr (Nat.le_trans hfree (List.length_filter_le _ _))
  have hwait : ¬ (!d.passReady w || decide ((d.idleTiles part).length < g.tiles)
      || decide (d.pageShare part < d.pagesHeld part + g.pages)) = true := by
    simp [hready, hfree, hroom]
  unfold Dev.idleTiles at hwait
  unfold Dev.grantPass
  rw [hqueue]
  dsimp only
  rw [hprog]
  dsimp only
  rw [if_neg hfew, if_neg (by rw [hout]; exact Bool.false_ne_true), if_neg hwait]
  exact ⟨_, _, _, rfl, Tab.find_ins_self _ _ _, rfl, rfl, rfl, rfl, rfl, rfl⟩

end Grant

/-! ## The arrival of a weight tile (R299) -/

/-- The pages change, and no pass does. -/
theorem Dev.storeWeight_passes (pages : List PageRun) (place : Nat) (b : Bytes) :
    (d.storeWeight pages place b).inf.passes = d.inf.passes := by
  unfold Dev.storeWeight
  generalize List.range 16 = l
  induction l generalizing d with
  | nil => rfl
  | cons i l ih => rw [List.foldl_cons, ih]; rfl

/-- What arrives stands in its place, and needs no more of the tile's bytes. -/
def WTile.arrive (l i place : Nat) (w : WTile) : WTile :=
  if w.layer = l && w.tile = i then { w with state := 3, data := [], key := none, place := place } else w

theorem find_arrive {ws : List WTile} {l i : Nat} {w : WTile}
    (h : (ws.find? fun w => w.layer == l && w.tile == i) = some w) (place : Nat) :
    ((ws.map (WTile.arrive l i place)).find? fun w => w.layer == l && w.tile == i) =
      some { w with state := 3, data := [], key := none, place := place } := by
  have hsame : (fun w : WTile => w.layer == l && w.tile == i) ∘ WTile.arrive l i place
      = fun w => w.layer == l && w.tile == i := by
    funext w
    simp only [Function.comp, WTile.arrive]
    split <;> rfl
  have hw := List.find?_some h
  rw [List.find?_map, hsame, h, Option.map_some, WTile.arrive, if_pos (by simpa using hw)]

/-- The node once a weight tile of a pass stands in Track SRAM. -/
def Dev.weightStands (d : Dev) (n l i : Nat) (p : Pass) (w : WTile) : Dev :=
  (d.draw.2.storeWeight p.pages (p.freePlace d.draw.1) w.data).updPass n fun x =>
    { x with weights := x.weights.map (WTile.arrive l i (p.freePlace d.draw.1)) }

section Pass
variable {n : Nat} {p : Pass}

section Weight
variable {l i : Nat} {w : WTile}

/-- A tile whose turn it is arrives, and its layer may start. -/
theorem Dev.weightArrival_arrives (hpass : d.pass n = some p)
    (hfind : (p.weights.find? fun w => w.layer == l && w.tile == i) = some w)
    (hturn : w.state = 2 ∨ (w.state = 0 ∧ (p.weights.find? fun w => w.state == 0) = some w)) :
    d.weightArrival n l i = (d.weightStands n l i p w).tryLayer n := by
  have hgo : ¬ (!(decide (w.state = 2) || (decide (w.state = 0) && (p.weights.find? fun w => w.state == 0) == some w))) = true := by
    rcases hturn with h | ⟨h, hfirst⟩
    · simp [h]
    · simp [h, hfirst]
  unfold Dev.weightArrival
  rw [hpass]
  dsimp only
  rw [hfind]
  dsimp only
  rw [if_neg hgo]
  rfl

theorem Dev.weightStands_pass (hpass : d.pass n = some p) :
    (d.weightStands n l i p w).pass n = some { p with weights := p.weights.map (WTile.arrive l i (p.freePlace d.draws)) } := by
  have hkept : Tab.find (d.draw.2.storeWeight p.pages (p.freePlace d.draw.1) w.data).inf.passes n = some p :=
    (congrArg (fun t => Tab.find t n) (Dev.storeWeight_passes _ _ _)).trans hpass
  exact (Tab.find_upd_self _ _ _).trans (congrArg (Option.map _) hkept)

end Weight

/-! ## The end of a layer (R299) and a hang (R308) -/

section Layer
variable {g : Prog} {y : Layer}
variable (hpass : d.pass n = some p) (hstarted : p.started = true) (hprog : d.prog p.part p.slot = some g)
variable (hlayer : g.layers[p.layer]? = some y)
include hpass hstarted hprog hlayer

/-- The node, its pass about to start its next layer. -/
def Dev.layerOver (d : Dev) (n : Nat) : Dev :=
  d.updPass n fun x => { x with
    layer := x.layer + 1, started := false, since := d.now, weights := x.weights.filter fun w => w.layer != x.layer }

theorem Dev.layerEnd_last (hlast : g.layers.length ≤ p.layer + 1) :
    d.layerEnd n = (d.runLayer n p g p.layer y).endPass n := by
  simp [Dev.layerEnd, hpass, hstarted, hprog, hlayer, Nat.not_lt.mpr hlast]

theorem Dev.layerEnd_next (hnext : p.layer + 1 < g.layers.length) :
    d.layerEnd n = (((d.runLayer n p g p.layer y).layerOver n).askLayer n (p.layer + g.window)).tryLayer n := by
  simp [Dev.layerEnd, hpass, hstarted, hprog, hlayer, hnext, Dev.layerOver]

end Layer

theorem Dev.layerOver_pass (n : Nat) :
    ((d.layerOver n).pass n).map (fun x => (x.layer, x.started)) = (d.pass n).map fun q => (q.layer + 1, false) := by
  rw [Dev.pass, Dev.layerOver, Dev.updPass, Dev.setInf, Tab.find_upd_self, Option.map_map]
  rfl

/-- A unit that is fenced is among the fenced. -/
theorem Dev.mem_fenceUnit (ty inst : Nat) : (ty, inst) ∈ (d.fenceUnit ty inst).fenced := by
  unfold Dev.fenceUnit
  split
  · rename_i h; simpa using h
  · exact List.mem_cons_self

/-- A tile that has not finished within WDOG is recorded and fenced, and its pass stops. -/
theorem Dev.tileWdog_hang {k : Nat} (hholds : d.inf.passes.find? (fun p => p.2.tiles.contains k) = some (n, p))
    (hstarted : p.started = true) (hdue : p.since + d.rg .IGRP_CFG_WDOG (k / 8) * 1000 ≤ d.now) :
    d.tileWdog k = ((d.report SRC_TILE_WDOG 0x11 k none p.slot 0).fenceUnit 0x11 k).stopPass n ST_INTERNAL := by
  unfold Dev.tileWdog
  rw [hholds]
  dsimp only
  rw [if_neg (by simp [hstarted, hdue])]

end Pass
end Infield

section Commands
variable {s : State} {t : Nat}
variable (hcore : (node s t).coreOn = true)
include hcore

theorem goes_passGrant (part : Nat) : Goes (.passGrant t part) s ((settled s t).grantPass part).pump :=
  goes_of_actIf (fun d => d.reapPasses.grantPass part) rfl hcore

theorem goes_weightTileArrival (n l i : Nat) : Goes (.weightTileArrival t n l i) s ((settled s t).weightArrival n l i).pump :=
  goes_of_actIf (fun d => d.reapPasses.weightArrival n l i) rfl hcore

theorem goes_layerEnd (n : Nat) : Goes (.layerEnd t n) s ((settled s t).layerEnd n).pump :=
  goes_of_actIf (fun d => d.reapPasses.layerEnd n) rfl hcore

theorem goes_tileWdog (k : Nat) : Goes (.tileWdog t k) s ((settled s t).tileWdog k).pump :=
  goes_of_actIf (fun d => d.reapPasses.tileWdog k) rfl hcore

/-- R291: a PROG_LOAD whose check has not ended within 20 ms ends. -/
theorem goes_progCheckTimeout {r : Nat} {q : Req} (hreq : Tab.find (node s t).reqs r = some q) (hlive : q.live = true)
    (hop : u8 q.desc 0 = 0x20) (hdue : q.admitted + 20000000 ≤ (node s t).now) :
    Goes (.progCheckTimeout t r) s ((node s t).complete r ST_TIMEOUT).pump := by
  have hgoes := goes_of_actIf (c := .progCheckTimeout t r) (s := s) (fun d =>
    match Tab.find d.reqs r with
    | some q => if q.live && u8 q.desc 0 = 0x20 && q.admitted + 20000000 ≤ d.now then d.complete r ST_TIMEOUT else d
    | none => d) rfl hcore
  simpa only [hreq, hlive, hop, hdue, decide_true, Bool.and_self, if_true] using hgoes

end Commands

/-- Settles O32: each command hands the node to the function of its rule, and the case of the statement is the branch that
the function takes. -/
theorem infieldEventsComplete : Obligations.InfieldEventsComplete := by
  unfold Obligations.InfieldEventsComplete
  intro s t hcore
  refine ⟨?granted, ?tooFew, ?noProgram, ?arrival, ?layer, ?hang, ?check⟩
  case granted => exact fun part _ _ _ _ _ _ _ _ _ => goes_passGrant hcore part
  case tooFew =>
    intro part w g hqueue hprog hfew
    have hgoes := goes_passGrant hcore part
    rwa [Dev.grantPass_too_few_tiles hqueue hprog hfew] at hgoes
  case noProgram =>
    intro part w hqueue hprog
    have hgoes := goes_passGrant hcore part
    rwa [Dev.grantPass_no_program hqueue hprog] at hgoes
  case arrival =>
    intro n p l i w hpass hfind hturn
    have hgoes := goes_weightTileArrival hcore n l i
    rwa [Dev.weightArrival_arrives hpass hfind hturn] at hgoes
  case layer =>
    intro n p g y hpass hstarted hprog hlayer
    constructor
    · intro hlast
      rw [← Dev.layerEnd_last hpass hstarted hprog hlayer hlast]
      exact goes_layerEnd hcore n
    · intro hnext
      have hgoes := goes_layerEnd hcore n
      rwa [Dev.layerEnd_next hpass hstarted hprog hlayer hnext] at hgoes
  case hang =>
    intro k n p hholds hstarted hdue
    rw [← Dev.tileWdog_hang hholds hstarted hdue]
    exact goes_tileWdog hcore k
  case check => exact fun r q hreq hlive hop hdue => goes_progCheckTimeout hcore hreq hlive hop hdue

end Sys2Proof.Machine

/-!
PROOFS. The events of the embedding tables (R349 to R356): steps that wait too long, the load window, moves of hot rows.
-/
namespace Sys2Proof.Machine
open Sys2Proof.Spec

/-- Two changes that agree on the entry at a number change the store alike. -/
theorem Tab.upd_congr {α : Type} {t : Tab α} {n : Nat} {v : α} (hv : Tab.find t n = some v) {f g : α → α} (hfg : f v = g v) :
    Tab.upd t n f = Tab.upd t n g := by
  induction t with
  | nil => rfl
  | cons p r ih =>
    obtain ⟨k, u⟩ := p
    by_cases hk : n = k
    · have huv : u = v := by simpa [Tab.find, hk] using hv
      simp [Tab.upd, hk, huv, hfg]
    · have hr : Tab.find r n = some v := by simpa [Tab.find, hk] using hv
      simp [Tab.upd, hk, ih hr]

/-- Two changes of one entry are one. -/
theorem Tab.upd_upd {α : Type} (t : Tab α) (n : Nat) (f g : α → α) :
    Tab.upd (Tab.upd t n f) n g = Tab.upd t n fun v => g (f v) := by
  induction t with
  | nil => rfl
  | cons p r ih =>
    obtain ⟨k, u⟩ := p
    by_cases hk : n = k
    · simp [Tab.upd, hk]
    · simp [Tab.upd, hk, ih]

section Embedding
variable {d : Dev} {i n st : Nat} {x : Table} {b : StepBuf}

theorem Dev.updTable_updTable (f g : Table → Table) :
    (d.updTable i f).updTable i g = d.updTable i fun y => g (f y) := by
  simp only [Dev.updTable, Dev.setEm, Tab.upd_upd]

theorem Dev.updTable_congr (htable : d.table i = some x) {f g : Table → Table} (hfg : f x = g x) :
    d.updTable i f = d.updTable i g := by
  simp only [Dev.updTable, Dev.setEm, Tab.upd_congr htable hfg]

theorem Dev.table_updTable (f : Table → Table) : (d.updTable i f).table i = (d.table i).map f := Tab.find_upd_self _ _ _

/-! ## Steps (R349) -/

/-- A step of a table closes, and the steps after it where they may. -/
theorem Dev.closeSteps_closed {f : Nat} (htable : d.table i = some x) (hst : st = (x.applied + 1) % 2 ^ 32)
    (hclosed : ∃ y, (d.closeStep i st).table i = some y ∧ y.applied = st) :
    Dev.closeSteps (f + 1) d i = Dev.closeSteps f (d.closeStep i st) i := by
  subst hst
  obtain ⟨y, hy, happlied⟩ := hclosed
  rw [Dev.closeSteps]
  simp only [htable, hy, if_pos happlied]

/-- A step that does not close yet is the last one to be tried. -/
theorem Dev.closeSteps_waits {f : Nat} (htable : d.table i = some x) (hst : st = (x.applied + 1) % 2 ^ 32)
    (hwaits : ∀ y, (d.closeStep i st).table i = some y → y.applied ≠ st) :
    Dev.closeSteps (f + 1) d i = d.closeStep i st := by
  subst hst
  rw [Dev.closeSteps]
  simp only [htable]
  split
  · rename_i y hy; exact if_neg (hwaits y hy)
  · rfl

/-- A table without an open step has none to close. -/
theorem Dev.closeSteps_no_steps (htable : d.table i = some x) (hsteps : x.steps = []) (f : Nat) :
    Dev.closeSteps f d i = d := by
  cases f with
  | zero => rfl
  | succ f =>
    have hsame : d.closeStep i ((x.applied + 1) % 2 ^ 32) = d := by
      simp [Dev.closeStep, htable, Table.buf, hsteps]
    rw [Dev.closeSteps_waits htable rfl, hsame]
    intro y hy hnext
    rw [hsame, htable, Option.some.injEq] at hy
    subst hy
    omega

/-- A step that has waited its time, with no changes and no markers, closes without a journal. -/
theorem Dev.closeStep_empty (htable : d.table i = some x) (hsteps : x.steps = [b]) (hstep : b.step = st)
    (hnext : st = (x.applied + 1) % 2 ^ 32) (hopen : b.state = 0) (hchanges : b.changes = []) (hends : b.ends = [])
    (hlate : b.late = none) (hdue : b.firstAt + d.em.stepTo * 1000 ≤ d.now) :
    d.closeStep i st = (d.bump .EMB_TOSTEP_COUNT 1 0 i).updTable i fun y => { y with applied := st, steps := [] } := by
  have hbuf : x.buf st = some b := by simp [Table.buf, hsteps, hstep]
  have hmarks : d.allMarked x b = false := by simp [Dev.allMarked, hends]
  have hgo : ¬ (b.state != 0 || st != (x.applied + 1) % 2 ^ 32
      || !(decide (b.firstAt + d.em.stepTo * 1000 ≤ d.now) || d.allMarked x b)) = true := by simp [hopen, hnext, hdue]
  have hfinal : ((d.bump .EMB_TOSTEP_COUNT 1 0 i).updTable i fun y => { y with applied := st }).stepOver i
      { b with timedOut := true } false
        = (d.bump .EMB_TOSTEP_COUNT 1 0 i).updTable i fun y => { y with applied := st, steps := [] } := by
    simp only [Dev.stepOver, hlate, hends, List.map_nil, Dev.endMarkers, List.foldl_nil, Dev.updTable_updTable]
    exact Dev.updTable_congr (d := d.bump .EMB_TOSTEP_COUNT 1 0 i) htable (by simp [hsteps])
  rw [← hfinal]
  unfold Dev.closeStep
  rw [htable]
  dsimp only
  rw [hbuf]
  dsimp only
  rw [if_neg hgo]
  simp [hmarks, hchanges, changeOrder, sortBy, Dev.holdRows]

/-! ## The load window (R354) -/

/-- A node without tables only takes its load. -/
theorem Dev.windowEnd_no_tables (hnone : d.em.tables = []) (busy : Nat) :
    d.windowEnd busy = d.setEm fun e => { e with level := windowLevel busy } := by
  simp only [Dev.windowEnd, Dev.setEm, hnone, List.foldl_nil]

/-- Outside a meet no row moves: the one table's counts are taken and begin again. -/
theorem Dev.windowEnd_alone (hone : d.em.tables = [(i, x)]) (halone : d.mt.on = false) (busy : Nat) :
    d.windowEnd busy =
      ((((d.setEm fun e => { e with level := windowLevel busy }).setRg .EMB_LOAD_ROWS x.served 0 i).setRg
        .EMB_LEVEL_LEVEL (windowLevel busy) 0 i).updTable i fun y => { y with served := 0, hot := [] }) := by
  have hoff : (((((d.setEm fun e => { e with level := windowLevel busy }).setRg .EMB_LOAD_ROWS x.served 0 i).setRg
      .EMB_LEVEL_LEVEL (windowLevel busy) 0 i).updTable i fun y => { y with served := 0, hot := [] }) : Dev).mt.on = false := halone
  have htables : (d.setEm fun e => { e with level := windowLevel busy } : Dev).em.tables = [(i, x)] := hone
  unfold Dev.windowEnd
  dsimp only
  rw [htables, List.foldl_cons, List.foldl_nil]
  dsimp only
  rw [if_pos (by rw [hoff]; simp)]

/-! ## Moves (Table 14.7) -/

variable {m : Mig}

/-- A move that is not answered in its time is abandoned. -/
theorem Dev.migTimeout_due (hmig : Tab.find d.em.migs n = some m) (hstate : m.state ≤ 1)
    (hdue : m.started + 1000000 ≤ d.now) : d.migTimeout n = d.abortMig n := by
  simp only [Dev.migTimeout, hmig, hstate, hdue, decide_true, Bool.and_self, if_true]

/-- Its destination is told so. -/
theorem Dev.abortMig_table (hmig : Tab.find d.em.migs n = some m) (htable : d.table m.table = some x) :
    d.abortMig n = (((d.setEm fun e => { e with migs := Tab.del e.migs n }).bump .EMB_ABORTED_COUNT).bump
      .EMB_STARTED_COUNT (ofBool (m.state = 0))).embSend m.dst (tableDesc x.num 0) 0 0 7 0 0 0
        (le 8 m.row ++ le 8 m.dst) := by
  have hkept : (((d.setEm fun e => { e with migs := Tab.del e.migs n }).bump .EMB_ABORTED_COUNT).bump
      .EMB_STARTED_COUNT (ofBool (m.state = 0)) : Dev).table m.table = some x := htable
  unfold Dev.abortMig
  rw [hmig]
  dsimp only
  rw [hkept]

/-- The node once the row of a move has changed its home: `more` the changes that open steps held, `f` the node without
them. -/
def Dev.switched (n : Nat) (m : Mig) (x : Table) (taken : List (Nat × Change) × Dev) : Dev :=
  let hs := m.held ++ taken.1
  let e := taken.2.updMig n fun m => { m with state := 3, held := hs, unacked := if hs.isEmpty then 0 else 1 }
  if hs.isEmpty then e.endDrains else e.forwardRow x m.dst m.row hs

/-- At its epoch the row of a move changes its home. -/
theorem Dev.migSwitch_due {e : Dev} (he : e = d.settleComing) (hmig : Tab.find e.em.migs n = some m)
    (htable : e.table m.table = some x) (hstate : m.state = 2) (hepoch : m.k ≤ e.curEpoch) :
    d.migSwitch n = Dev.switched n m x ((e.bump .EMB_MIGOUT_COUNT 1 0 m.table).takeOpen m.table m.row) := by
  subst he
  unfold Dev.migSwitch
  dsimp only
  rw [hmig]
  dsimp only
  rw [htable]
  dsimp only
  rw [if_neg (by simp [hstate, hepoch])]
  rfl

theorem Dev.switched_nothing_held {taken : List (Nat × Change) × Dev} (hnone : m.held ++ taken.1 = []) :
    Dev.switched n m x taken =
      (taken.2.updMig n fun m => { m with state := 3, held := [], unacked := 0 }).endDrains := by
  simp only [Dev.switched, hnone, List.isEmpty_nil, if_true]

theorem Dev.switched_held {taken : List (Nat × Change) × Dev} (hsome : m.held ++ taken.1 ≠ []) :
    Dev.switched n m x taken =
      (taken.2.updMig n fun y => { y with state := 3, held := m.held ++ taken.1, unacked := 1 }).forwardRow x m.dst m.row
        (m.held ++ taken.1) := by
  have hfull : (m.held ++ taken.1).isEmpty = false := by simpa using hsome
  simp only [Dev.switched, hfull, Bool.false_eq_true, if_false]

/-- A table without an open step gives no change of a row. -/
theorem Dev.takeOpen_no_steps (htable : d.table i = some x) (hsteps : x.steps = []) (row : Nat) :
    (d.takeOpen i row).1 = [] := by
  simp [Dev.takeOpen, htable, hsteps]

end Embedding

section Commands
variable {s : State} {t : Nat}
variable (hcore : (node s t).coreOn = true)
include hcore

/-- A step that has waited its time is tried, and the steps after it. -/
theorem goes_stepTimeout {num st i : Nat} {x : Table} {b : StepBuf} (hidx : (node s t).tableIdx num = some i)
    (htable : (node s t).table i = some x) (hbuf : x.buf st = some b)
    (hdue : b.firstAt + (node s t).em.stepTo * 1000 ≤ (node s t).now) :
    Goes (.stepTimeout t num st) s (Dev.closeSteps 4 (node s t) i).pump := by
  have hgoes := goes_of_actIf (c := .stepTimeout t num st) (s := s) (fun d =>
    match d.tableIdx num with
    | none => d
    | some i =>
      match (d.table i).bind fun t => t.buf st with
      | none => d
      | some b => if b.firstAt + d.em.stepTo * 1000 ≤ d.now then d.closeSteps 4 i else d) rfl hcore
  simpa only [hidx, htable, Option.bind_some, hbuf, if_pos hdue] using hgoes

/-- The window ends at a whole millisecond. -/
theorem goes_loadWindowEnd (hms : (node s t).now % 1000000 = 0) (busy : Nat) :
    Goes (.loadWindowEnd t busy) s ((node s t).windowEnd busy).pump := by
  have hgoes := goes_of_actIf (c := .loadWindowEnd t busy) (s := s)
    (fun d => if d.now % 1000000 = 0 then d.windowEnd busy else d) rfl hcore
  rwa [if_pos hms] at hgoes

theorem goes_migrationTimeout (n : Nat) : Goes (.migrationTimeout t n) s ((node s t).migTimeout n).pump :=
  goes_of_actIf (fun d => d.migTimeout n) rfl hcore

theorem goes_migrationSwitch (n : Nat) : Goes (.migrationSwitch t n) s ((node s t).migSwitch n).pump :=
  goes_of_actIf (fun d => d.migSwitch n) rfl hcore

end Commands

/-- Settles O33: each command hands the node to the function of its rule, and the case of the statement is the branch that
the function takes; the last case asks for two states of one move at once. -/
theorem embeddingEventsComplete : Obligations.EmbeddingEventsComplete := by
  unfold Obligations.EmbeddingEventsComplete
  intro s t hcore
  refine ⟨?step, ?noTables, ?window, ?timeout, ?switch⟩
  case step =>
    rintro num st i x b hidx htable hbuf hdue hnext d rfl
    have hgoes := goes_stepTimeout hcore hidx htable hbuf hdue
    constructor
    · intro hclosed
      rwa [Dev.closeSteps_closed htable hnext hclosed] at hgoes
    · intro hwaits
      rwa [Dev.closeSteps_waits htable hnext hwaits] at hgoes
  case noTables =>
    intro busy hms hnone
    have hgoes := goes_loadWindowEnd hcore hms busy
    rwa [Dev.windowEnd_no_tables hnone] at hgoes
  case window =>
    rintro busy i x l rfl hms hone halone
    have hgoes := goes_loadWindowEnd hcore hms busy
    rwa [Dev.windowEnd_alone hone halone] at hgoes
  case timeout =>
    intro n m hmig hstate hdue
    have hgoes := goes_migrationTimeout hcore n
    rwa [Dev.migTimeout_due hmig hstate hdue] at hgoes
  case switch =>
    rintro n m x d more f hs hd hmig htable hstate hepoch htaken rfl
    have hgoes := goes_migrationSwitch hcore n
    rw [Dev.migSwitch_due hd hmig htable hstate hepoch, htaken] at hgoes
    refine ⟨fun hnone => ?_, fun hsome => ?_, fun _ hother => absurd hstate hother⟩
    · rwa [Dev.switched_nothing_held hnone] at hgoes
    · rwa [Dev.switched_held hsome] at hgoes

end Sys2Proof.Machine

/-!
PROOFS. Register writes, resets, passes, steps and moves have their own effect (R291 to R356, R512, R518, R537).
-/
namespace Sys2Proof.Machine
open Sys2Proof.Spec

section Registers
variable {d : Dev}

/-- R512: a 1 clears REF_PEND and changes only registers. -/
theorem Dev.clearPend_cleared {v : Nat} (hone : bit v 0 = true) :
    (d.clearPend v).rg .REF_PEND_PEND = 0 ∧ d.clearPend v = { d with regs := (d.clearPend v).regs } := by
  rw [Dev.clearPend, if_pos hone]
  exact ⟨Dev.rg_setRg_self _ _ _ _ _, rfl⟩

/-- R518: the identify bit and the locks that a write of PANEL_CFG leaves. -/
def Dev.identify (d : Dev) (v : Nat) : Dev := (d.setRg .PANEL_CFG_ID (bits v 8 8)).setRg .PANEL_CFG_LOCK (bits v 3 0)

theorem Dev.rg_identify (v : Nat) : (d.identify v).rg .PANEL_CFG_ID = bits v 8 8 := by
  have htop : Fld.PANEL_CFG_ID.top = 2 := rfl
  rw [Dev.identify, Dev.rg_setRg_ne _ (by decide), Dev.rg_setRg_self, htop]
  exact Nat.mod_mod _ _

end Registers

section Resets
variable {d : Dev} {cause : Nat}

/-- A node whose management or whose ports run is neither in RESET nor in OFF. -/
theorem Dev.power_of_mgmtOn (hmgmt : d.mgmtOn = true) (htrip : d.thermTrip = false) : 2 ≤ d.power := by
  simpa [Dev.mgmtOn, htrip] using hmgmt

theorem Dev.power_of_portsOn (hports : d.portsOn = true) : 2 ≤ d.power := by
  simp only [Dev.portsOn, Dev.coreOn, Bool.or_eq_true, Bool.and_eq_true, decide_eq_true_eq, beq_iff_eq] at hports
  omega

/-- What a reset that is carried out, and that does not take the power, leaves: RESET, the cause, no request. -/
theorem Dev.nodeReset_effect (htrip : d.thermTrip = false) (hpower : d.power ≠ 0) (hcause : cause < 16)
    (hkeeps : cause ≠ CAUSE_POWER) :
    (d.nodeReset cause).power = 1 ∧ (d.nodeReset cause).rg .PWR_RSTCAUSE_CAUSE = d.causeOf cause
      ∧ (d.nodeReset cause).reqs = [] := by
  have h := Dev.resetLeaves (cause := cause) (.inr ⟨htrip, hpower⟩)
  exact ⟨h.power.trans (if_neg hkeeps), h.rstCause hcause, h.reqs⟩

/-- Out of RESET the cause is the source's own. -/
theorem Dev.nodeReset_own_cause (htrip : d.thermTrip = false) (hpower : 2 ≤ d.power) (hcause : cause < 16)
    (hkeeps : cause ≠ CAUSE_POWER) :
    (d.nodeReset cause).power = 1 ∧ (d.nodeReset cause).rg .PWR_RSTCAUSE_CAUSE = cause
      ∧ (d.nodeReset cause).reqs = [] := by
  have h := Dev.nodeReset_effect htrip (by omega) hcause hkeeps
  rwa [Dev.causeOf_running (by omega)] at h

/-- The loss of power is always carried out, and has the lowest cause. -/
theorem Dev.nodeReset_power :
    (d.nodeReset CAUSE_POWER).power = 0 ∧ (d.nodeReset CAUSE_POWER).rg .PWR_RSTCAUSE_CAUSE = 0
      ∧ (d.nodeReset CAUSE_POWER).reqs = [] := by
  have h := Dev.resetLeaves (d := d) (.inl (rfl : CAUSE_POWER = CAUSE_POWER))
  exact ⟨h.power, (h.rstCause (by decide)).trans (Nat.le_zero.mp Dev.causeOf_le), h.reqs⟩

end Resets

section Infield
variable {d : Dev} {part : Nat} {w : PassWait} {rest : List PassWait} {g : Prog}

/-- The tiles that a grant picks: as many as the program asks for, each free. -/
theorem Dev.picked_idle (hfree : g.tiles ≤ (d.idleTiles part).length) :
    (pickTiles (d.idleTiles part) g.tiles).length = g.tiles
      ∧ ∀ k ∈ pickTiles (d.idleTiles part) g.tiles, k ∈ d.unfenced part ∧ d.tileBusy k = false := by
  refine ⟨length_pickTiles hfree, fun k hk => ?_⟩
  obtain ⟨hunfenced, hidle⟩ := List.mem_filter.mp (mem_of_mem_pickTiles hk)
  exact ⟨hunfenced, by simpa using hidle⟩

end Infield

section Embedding
variable {d : Dev} {i n st : Nat} {x : Table} {b : StepBuf} {m : Mig}

/-- A step without changes closes, and no step of its table is left. -/
theorem Dev.closeSteps_empty (htable : d.table i = some x) (hsteps : x.steps = [b]) (hstep : b.step = st)
    (hnext : st = (x.applied + 1) % 2 ^ 32) (hopen : b.state = 0) (hchanges : b.changes = []) (hends : b.ends = [])
    (hlate : b.late = none) (hdue : b.firstAt + d.em.stepTo * 1000 ≤ d.now) (f : Nat) :
    Dev.closeSteps (f + 1) d i =
      (d.bump .EMB_TOSTEP_COUNT 1 0 i).updTable i fun y => { y with applied := st, steps := [] } := by
  have hclose := Dev.closeStep_empty htable hsteps hstep hnext hopen hchanges hends hlate hdue
  have hafter : (d.closeStep i st).table i = some { x with applied := st, steps := [] } := by
    rw [hclose, Dev.table_updTable]
    exact congrArg (Option.map _) htable
  rw [Dev.closeSteps_closed htable hnext ⟨_, hafter, rfl⟩, Dev.closeSteps_no_steps hafter rfl, hclose]

/-- The node once a row has moved of which no change was held: no step of its table is open. -/
def Dev.rowMoved (d : Dev) (n : Nat) (m : Mig) : Dev :=
  ((d.bump .EMB_MIGOUT_COUNT 1 0 m.table).takeOpen m.table m.row).2.updMig n fun m =>
    { m with state := 3, held := [], unacked := 0 }

theorem Dev.migSwitch_row_moved (hsettled : d.settleComing = d) (hmig : Tab.find d.em.migs n = some m)
    (htable : d.table m.table = some x) (hstate : m.state = 2) (hepoch : m.k ≤ d.curEpoch) (hheld : m.held = [])
    (hsteps : x.steps = []) : d.migSwitch n = (d.rowMoved n m).endDrains := by
  have hnone : m.held ++ ((d.bump .EMB_MIGOUT_COUNT 1 0 m.table).takeOpen m.table m.row).1 = [] := by
    rw [hheld, Dev.takeOpen_no_steps (d := d.bump .EMB_MIGOUT_COUNT 1 0 m.table) htable hsteps, List.append_nil]
  rw [Dev.migSwitch_due hsettled.symm hmig htable hstate hepoch, Dev.switched_nothing_held hnone]
  rfl

/-- Such a move drains, and counts. -/
theorem Dev.rowMoved_drains (hmig : Tab.find d.em.migs n = some m) :
    (Tab.find (d.rowMoved n m).em.migs n).map (·.state) = some 3
      ∧ (d.rowMoved n m).rg .EMB_MIGOUT_COUNT 0 m.table =
        min (Fld.EMB_MIGOUT_COUNT.top - 1) (d.rg .EMB_MIGOUT_COUNT 0 m.table + 1) := by
  refine ⟨?_, Dev.rg_bump_self _ .EMB_MIGOUT_COUNT 1 0 m.table⟩
  have hupd : Tab.find (d.rowMoved n m).em.migs n =
      (Tab.find d.em.migs n).map fun y => { y with state := 3, held := [], unacked := 0 } := Tab.find_upd_self _ _ _
  rw [hupd, hmig]
  rfl

end Embedding

/-- Settles O43: each event finds its condition met, and what its function leaves is the effect. -/
theorem eventsHaveTheirOwnEffect : Obligations.EventsHaveTheirOwnEffect := by
  unfold Obligations.EventsHaveTheirOwnEffect
  intro s t
  refine ⟨?pend, ?identify, ?soft, ?pinAndTrip, ⟨_, goes_pwrOkFall s t, Dev.nodeReset_power⟩, ?mgmt, ?resume, ?infield,
    ?embedding⟩
  case pend =>
    intro v hports hopen hone
    have hgoes := goes_refPendClear hports v false
    rw [Dev.onBlock_open _ hopen] at hgoes
    exact ⟨_, hgoes, Dev.clearPend_cleared hone⟩
  case identify =>
    intro v hports hopen
    have hgoes := goes_identifyWrite hports v
    rw [Dev.onBlock_open _ hopen] at hgoes
    exact ⟨_, hgoes, Dev.rg_identify v, rfl⟩
  case soft =>
    intro p v hports hopen hkey htrip
    exact ⟨_, goes_softReset_key hports hopen hkey p,
      Dev.nodeReset_own_cause htrip (Dev.power_of_portsOn hports) (by decide) (by decide)⟩
  case pinAndTrip =>
    intro hpower htrip
    refine ⟨⟨_, goes_resetPin s t, Dev.nodeReset_effect htrip hpower (by decide) (by decide)⟩, _, goes_thermalTrip hpower, ?_⟩
    obtain ⟨hreset, hcause, hreqs⟩ := Dev.nodeReset_effect htrip hpower (cause := CAUSE_THERM) (by decide) (by decide)
    exact ⟨hreset, hcause, hreqs, (Dev.resetLeaves (.inr ⟨htrip, hpower⟩)).trip⟩
  case mgmt =>
    intro hmgmt htrip
    have hpower := Dev.power_of_mgmtOn hmgmt htrip
    exact ⟨⟨_, goes_controlWdog hmgmt, Dev.nodeReset_own_cause htrip hpower (by decide) (by decide)⟩,
      _, goes_nodeReset hmgmt 0x5A 0xA5, Dev.nodeReset_own_cause htrip hpower (by decide) (by decide)⟩
  case resume =>
    intro m hhalted htrip hmain
    exact ⟨_, goes_resumeReset hhalted hmain, Dev.nodeReset_own_cause htrip (by omega) (by decide) (by decide)⟩
  case infield =>
    intro hcore hsettled
    refine ⟨?grant, ?arrival, ?layer, ?hang, fun r q hreq hlive hop hdue => goes_progCheckTimeout hcore hreq hlive hop hdue⟩
    case grant =>
      intro part w rest g hqueue hprog hready hout hfree hroom
      obtain ⟨n, p, d, hgrant, hpass, hpart, hslot, hbib, hat, htiles, hreqs⟩ :=
        Dev.grantPass_granted hqueue hprog hready hout hfree hroom
      obtain ⟨hlength, hidle⟩ := Dev.picked_idle hfree
      have hgoes := goes_passGrant hcore part
      rw [hsettled, hgrant] at hgoes
      exact ⟨n, p, d, hgoes, hpass, hpart, hslot, hbib, hat, htiles ▸ hlength, htiles ▸ hidle, hreqs ▸ Dev.head_grantShares⟩
    case arrival =>
      intro n p l i w hpass hfind hturn
      have hgoes := goes_weightTileArrival hcore n l i
      rw [hsettled, Dev.weightArrival_arrives hpass hfind hturn] at hgoes
      exact ⟨_, _, hgoes, Dev.weightStands_pass hpass, rfl, _, find_arrive hfind _, rfl, rfl⟩
    case layer =>
      intro n p g y hpass hstarted hprog hlayer
      have hgoes := goes_layerEnd hcore n
      rw [hsettled] at hgoes
      constructor
      · intro hlast
        rwa [Dev.layerEnd_last hpass hstarted hprog hlayer (Nat.le_of_eq hlast)] at hgoes
      · intro hnext
        rw [Dev.layerEnd_next hpass hstarted hprog hlayer hnext] at hgoes
        refine ⟨_, hgoes, fun q hq => ?_⟩
        rw [Dev.layerOver_pass, hq]
        rfl
    case hang =>
      intro k n p hholds hstarted hdue
      have hgoes := goes_tileWdog hcore k
      rw [hsettled, Dev.tileWdog_hang hholds hstarted hdue] at hgoes
      exact ⟨_, hgoes, Dev.mem_fenceUnit _ _⟩
  case embedding =>
    intro hcore
    refine ⟨?step, ?timeout, ?switch, ?window⟩
    case step =>
      intro num st i x b hidx htable hsteps hstep hnext hopen hchanges hends hlate hdue
      have hbuf : x.buf st = some b := by simp [Table.buf, hsteps, hstep]
      have hgoes := goes_stepTimeout hcore hidx htable hbuf hdue
      rwa [Dev.closeSteps_empty htable hsteps hstep hnext hopen hchanges hends hlate hdue] at hgoes
    case timeout =>
      intro n m x hmig htable hstate hdue
      have hgoes := goes_migrationTimeout hcore n
      rwa [Dev.migTimeout_due hmig hstate hdue, Dev.abortMig_table hmig htable] at hgoes
    case switch =>
      intro n m x hsettled hmig htable hstate hepoch hheld hsteps
      have hgoes := goes_migrationSwitch hcore n
      rw [Dev.migSwitch_row_moved hsettled hmig htable hstate hepoch hheld hsteps] at hgoes
      exact ⟨_, hgoes, Dev.rowMoved_drains hmig⟩
    case window =>
      intro busy hms hnone
      have hgoes := goes_loadWindowEnd hcore hms busy
      rwa [Dev.windowEnd_no_tables hnone] at hgoes

end Sys2Proof.Machine

/-!
PROOFS. Relay frames as they arrive, what is sent again, and the hedging of shard queries (R467, R470, R486).
-/
namespace Sys2Proof.Machine
open Sys2Proof.Spec

/-- A number is not after itself. -/
theorem newer_self (w a : Nat) : newer w a a = false := newer_eq_false_of_equal (by rw [Int.sub_self, Int.zero_emod])

theorem stale_self (w a : Nat) : stale w a a = false := by
  simp [stale, newer_self]

section Frames
variable {d : Dev} {kind : Nat} {h : RHdr} {b : Bytes}

/-! ## The checks of a frame (R467) -/

/-- A frame of a live member at this node's restart epoch passes. -/
theorem Dev.relayIn_ok (hok : FrameOk d h) : d.relayIn kind h b = d.relayTake kind h b := by
  obtain ⟨_, hmeet, hmember, hother, hepoch, hlive⟩ := hok
  simp [Dev.relayIn, hmeet, hmember, hother, hepoch, stale_self, newer_self, hlive]

/-- A frame of a slot that the meet does not have is discarded and counted. -/
theorem Dev.relayIn_outside (hmeet : d.mt.on = true) (hslot : Tab.has d.mt.members h.src = false) :
    d.relayIn kind h b = d.bump .RLY_BADFRAME_COUNT := by
  simp [Dev.relayIn, hmeet, hslot]

/-- A frame of an older restart epoch is counted and refused, but a JOIN and a RESTART. -/
theorem Dev.relayIn_stale (hmeet : d.mt.on = true) (hslot : Tab.has d.mt.members h.src = true) (hother : h.src ≠ d.mt.slot)
    (hstale : stale 32 h.restart d.mt.restart = true) (hjoin : kind ≠ K_JOIN) (hrestart : kind ≠ K_RESTART) :
    d.relayIn kind h b = (d.bump .RLY_STALE_COUNT).refuseFrame h.src kind ST_STALE_EPOCH b := by
  simp [Dev.relayIn, hmeet, hslot, hother, hstale, hjoin, hrestart]

/-! ## Retransmission (R470) -/

/-- The node once a frame is taken to be sent again: it has one try more, from now. -/
def Dev.tryAgain (d : Dev) (dst seq : Nat) : Dev :=
  d.setPeer dst { d.peer dst with
    unacked := (d.peer dst).unacked.map fun x => if x.seq = seq then { x with sentAt := d.now, tries := x.tries + 1 } else x }

/-- A frame that is due, and may be tried again, is sent with RETX and its own number and body. -/
theorem Dev.retransmit_again {dst seq : Nat} {u : Unacked}
    (hfind : (d.peer dst).unacked.find? (fun u => u.seq == seq) = some u) (hdue : u.sentAt + d.mt.retx * 1000 ≤ d.now)
    (hmore : u.tries < 3 ∨ u.kind = K_UPDATE) :
    d.retransmit dst seq = ((d.tryAgain dst seq).bump .RLY_RETX_COUNT).relayFrame dst u.kind seq true u.more u.body := by
  have hgo : ¬ (decide (u.tries ≥ 3) && u.kind != K_UPDATE) = true := by
    rcases hmore with hfew | hupdate
    · rw [decide_eq_false (Nat.not_le.mpr hfew), Bool.false_and]
      exact Bool.false_ne_true
    · rw [hupdate, bne_self_eq_false, Bool.and_false]
      exact Bool.false_ne_true
  unfold Dev.retransmit
  dsimp only
  rw [hfind]
  dsimp only
  rw [if_neg (Nat.not_lt.mpr hdue), if_neg hgo]
  rfl

/-! ## Hedging (R486) -/

variable {r i : Nat} {x : Srch} {y : Source}
variable (hsearch : d.srch r = some x) (hsource : x.sources[i]? = some y) (hshards : x.step = 2) (hopen : y.settled = false)
include hsearch hsource hshards hopen

theorem Dev.hedgeDue_due (honce : y.sent.length = 1) (hdue : y.first + d.threshold y.heat ≤ d.now) :
    d.hedgeDue r i = d.hedge r i := by
  simp [Dev.hedgeDue, hsearch, hsource, hshards, hopen, honce, hdue]

theorem Dev.giveUpDue_due (hsent : y.sent ≠ []) (hdue : y.first + 4 * d.threshold y.heat ≤ d.now) :
    d.giveUpDue r i = d.giveUp r i false := by
  simp [Dev.giveUpDue, hsearch, hsource, hshards, hopen, hsent, hdue]

end Frames

section Commands
variable {c : Instr} {s : State} {t kind : Nat} {h : RHdr} {b : Bytes}

/-- Every frame is handed to R467's checks under its own kind. -/
theorem exec_relayFrame (hframe : relayFrame c = some (t, kind, h, b)) :
    exec c s = s.act t Dev.coreOn (Dev.relayCmd kind h b) := by
  unfold relayFrame at hframe
  split at hframe <;> cases hframe <;> rfl

theorem goes_relayFrame (hframe : relayFrame c = some (t, kind, h, b)) (hcore : (node s t).coreOn = true) :
    Goes c s ((node s t).relayIn kind h b).intrTick.pump :=
  goes_of_actIf (Dev.relayCmd kind h b) (exec_relayFrame hframe) hcore

theorem goes_relayBadFrame (hcore : (node s t).coreOn = true) (hmeet : (node s t).mt.on = true) (raw : Bytes) :
    Goes (.relayBadFrame t raw) s ((node s t).bump .RLY_BADFRAME_COUNT).pump :=
  goes_of_actIf (g := fun d => d.coreOn && d.mt.on) (fun d => d.bump .RLY_BADFRAME_COUNT) rfl
    ((Bool.and_eq_true _ _).mpr ⟨hcore, hmeet⟩)

theorem goes_relayRetransmit (hcore : (node s t).coreOn = true) (dst seq : Nat) :
    Goes (.relayRetransmit t dst seq) s ((node s t).retransmit dst seq).pump :=
  goes_of_actIf (fun d => d.retransmit dst seq) rfl hcore

theorem goes_hedgeThreshold (hcore : (node s t).coreOn = true) (hmeet : (node s t).mt.on = true) (r i : Nat) :
    Goes (.hedgeThreshold t r i) s ((node s t).hedgeDue r i).pump := by
  have hgoes := goes_of_actIf (c := .hedgeThreshold t r i) (s := s)
    (fun d => if d.mt.on then d.hedgeDue r i else d) rfl hcore
  rwa [if_pos hmeet] at hgoes

theorem goes_sourceGiveUp (hcore : (node s t).coreOn = true) (hmeet : (node s t).mt.on = true) (r i : Nat) :
    Goes (.sourceGiveUp t r i) s ((node s t).giveUpDue r i).pump := by
  have hgoes := goes_of_actIf (c := .sourceGiveUp t r i) (s := s)
    (fun d => if d.mt.on then d.giveUpDue r i else d) rfl hcore
  rwa [if_pos hmeet] at hgoes

end Commands

/-- Settles O24: such a frame passes every check of `Dev.relayIn`. -/
theorem relayFramesAreTaken : Obligations.RelayFramesAreTaken := by
  unfold Obligations.RelayFramesAreTaken
  intro c s t kind h b hframe hok
  rw [← Dev.relayIn_ok hok]
  exact goes_relayFrame hframe hok.on

/-- Settles O25: the check that a bad or a stale frame fails says what becomes of it. -/
theorem relayFramesAreChecked : Obligations.RelayFramesAreChecked := by
  unfold Obligations.RelayFramesAreChecked
  refine ⟨fun s t raw hcore hmeet => goes_relayBadFrame hcore hmeet raw,
    fun c s t kind h b hframe hcore hmeet => ⟨?outside, ?stale⟩⟩
  case outside =>
    intro hslot
    rw [← Dev.relayIn_outside hmeet hslot]
    exact goes_relayFrame hframe hcore
  case stale =>
    intro hslot hother hstale hjoin hrestart
    rw [← Dev.relayIn_stale hmeet hslot hother hstale hjoin hrestart]
    exact goes_relayFrame hframe hcore

/-- Settles O26: the frame is due, and has a try left or is an UPDATE. -/
theorem unacknowledgedFramesAreSentAgain : Obligations.UnacknowledgedFramesAreSentAgain := by
  unfold Obligations.UnacknowledgedFramesAreSentAgain
  intro s t dst seq u hcore hfind hdue hmore
  have hgoes := goes_relayRetransmit hcore dst seq
  rwa [Dev.retransmit_again hfind hdue hmore] at hgoes

/-- Settles O28: the source is open and its time has come. -/
theorem sourcesAreHedgedAndGivenUp : Obligations.SourcesAreHedgedAndGivenUp := by
  unfold Obligations.SourcesAreHedgedAndGivenUp
  intro s t r i x y hcore hmeet hsearch hsource hshards hopen
  constructor
  · intro honce hdue
    rw [← Dev.hedgeDue_due hsearch hsource hshards hopen honce hdue]
    exact goes_hedgeThreshold hcore hmeet r i
  · intro hsent hdue
    rw [← Dev.giveUpDue_due hsearch hsource hshards hopen hsent hdue]
    exact goes_sourceGiveUp hcore hmeet r i

end Sys2Proof.Machine

/-!
PROOFS. What the fabric brings to a bib, Ethernet frames and PTP (R436 to R448).
-/
namespace Sys2Proof.Machine
open Sys2Proof.Spec

section Fabric
variable {d : Dev} {b imm : Nat} {x : Bytes}

/-- A fabric-bound bib whose queue pair is ready. -/
theorem Dev.fabReady_iff : d.fabReady b = true ↔ (d.bib b).bind.kind = 2 ∧ (d.bib b).qpReady = true := by
  simp [Dev.fabReady]

/-- R441: the blocks of a submission are written in order to the service window that its immediate names. -/
theorem Dev.submission_blocks (hready : d.fabReady b = true) (hok : subOk imm x = true) (hkeys : imm ≠ 16) (hrelease : imm ≠ 8) :
    d.submission b imm x =
      (chunks 64 (x.length / 64) x).foldl (fun d y => d.submit (.fab b imm) y)
        (d.bump .ETH_RXFRAMES_COUNT 1 (d.bib b).bind.port) := by
  obtain ⟨hbound, hpair⟩ := Dev.fabReady_iff.mp hready
  simp [Dev.submission, hbound, hpair, hok, hkeys, hrelease]

/-- R440: a packet marked CE is answered where no CNP has gone. -/
theorem Dev.ceReceived_first (hready : d.fabReady b = true) (hnone : (d.bib b).cnpAt = none) :
    d.ceReceived b = ((d.updBib b fun y => { y with cnpAt := some d.now }).bump .ETH_CNPTX_COUNT 1
      (d.bib b).bind.port).ethSend (d.bib b).bind.port (.roceCnp b) := by
  simp [Dev.ceReceived, hready, hnone]

end Fabric

section Ptp
variable {d : Dev} {p : Nat} {off f : Int}

/-! ## The port of PTP and its synchronisations (R443 to R445) -/

/-- The port that PTP runs on follows PTP_CFG.PORT and the links alone. -/
theorem Dev.ptpPort_setRg {g : Fld} (hcfg : Fld.PTP_CFG_PORT ≠ g) (hlink : Fld.ETH_LINK_UP ≠ g) (v i r : Nat) :
    (d.setRg g v i r).ptpPort = d.ptpPort := by
  simp only [Dev.ptpPort, Dev.rg_setRg_ne d hcfg, Dev.rg_setRg_ne d hlink]

theorem Dev.ptpPort_bump {g : Fld} (hcfg : Fld.PTP_CFG_PORT ≠ g) (hlink : Fld.ETH_LINK_UP ≠ g) (n i r : Nat) :
    (d.bump g n i r).ptpPort = d.ptpPort := Dev.ptpPort_setRg hcfg hlink _ i r

/-- A synchronisation of another port changes nothing. -/
theorem Dev.ptpSyncAt_other (hport : p ≠ d.ptpPort) : d.ptpSyncAt p off f = d := by
  simp [Dev.ptpSyncAt, hport]

/-- The servo's registers after a synchronisation: the offset, the frequency within ±100 ppm. -/
def Dev.servo (d : Dev) (off f : Int) : Dev :=
  (d.setRg .PTP_OFFSET_NS (unsigned 32 off)).setRg .PTP_FREQ_PPB (unsigned 32 (max (-100000) (min 100000 f)))

theorem Dev.ptpPort_servo : (d.servo off f).ptpPort = d.ptpPort := by
  rw [Dev.servo, Dev.ptpPort_setRg (by decide) (by decide), Dev.ptpPort_setRg (by decide) (by decide)]

/-- The node, synchronised now, its count of close synchronisations begun again. -/
def Dev.synchronised (d : Dev) (off f : Int) : Dev := { d.servo off f with ptpSync := some d.now, ptpCount := 0 }

/-- A synchronisation that is more than a microsecond off, and not the first, sets the servo and loses the lock. -/
theorem Dev.ptpSyncAt_far (hport : p = d.ptpPort) (hsync : d.ptpSync ≠ none) (hfar : 1000 < off.natAbs) :
    d.ptpSyncAt p off f =
      (((d.synchronised off f).noteMaster.setRg .PTP_STAT_MASTER 0).setRg .PTP_STAT_PORT p).unlock := by
  have hlater : d.ptpSync.isNone = false := Option.isNone_eq_false_iff.mpr (Option.isSome_iff_ne_none.mpr hsync)
  have hcount : ¬ off.natAbs ≤ 100 := by omega
  have hsame : (d.synchronised off f).ptpPort = p := (Dev.ptpPort_servo (d := d)).trans hport.symm
  have hnow : d.ptpSyncAt p off f = (((d.synchronised off f).noteMaster.setRg .PTP_STAT_MASTER 0).setRg .PTP_STAT_PORT
      (d.synchronised off f).ptpPort).unlock := by
    unfold Dev.ptpSyncAt
    rw [hlater, if_neg (by simp [hport])]
    simp only [Bool.false_and, Bool.false_eq_true, if_false, if_neg hcount, gt_iff_lt, if_pos hfar]
    rfl
  rw [hnow, hsame]

/-- Losing the lock leaves the configuration of PTP alone. -/
theorem Dev.rg_unlock {g : Fld} (hlocked : g ≠ .PTP_STAT_LOCKED) (hover : g ≠ .PTP_STAT_HOLDOVER) (hcount : g ≠ .PTP_UNLOCK_COUNT)
    (i r : Nat) : d.unlock.rg g i r = d.rg g i r := by
  unfold Dev.unlock
  split
  · rw [Dev.rg_bump_ne _ hcount, Dev.rg_setRg_ne _ hover, Dev.rg_setRg_ne _ hlocked]
    rfl
  · rfl

/-- Two seconds without a synchronisation lose the lock of a clock that is not to be master. -/
theorem Dev.ptpTimeout_due {u : Nat} (hsync : d.ptpSync = some u) (hdue : u + 2000000000 ≤ d.now)
    (hslave : d.rg .PTP_CFG_MASTER = 0) : d.ptpTimeout = { d.unlock with ptpCount := 0 } := by
  have hcfg : ({ d.unlock with ptpCount := 0 } : Dev).rg .PTP_CFG_MASTER = 0 :=
    (Dev.rg_unlock (by decide) (by decide) (by decide) 0 0).trans hslave
  unfold Dev.ptpTimeout
  rw [hsync]
  dsimp only
  rw [hcfg]
  simp [hdue]

end Ptp

section Commands
variable {s : State} {t : Nat}

section Core
variable (hcore : (node s t).coreOn = true)
include hcore

theorem goes_roceSubmission (b imm : Nat) (x : Bytes) :
    Goes (.roceSubmission t b imm x) s ((node s t).submission b imm x) :=
  goes_of_runIf (fun d => d.submission b imm x) rfl hcore

theorem goes_roceCeReceived (b : Nat) : Goes (.roceCeReceived t b) s ((node s t).ceReceived b) :=
  goes_of_runIf (fun d => d.ceReceived b) rfl hcore

theorem goes_ptpMessage (p : Nat) (off f : Int) :
    Goes (.ptpMessage t p off f) s (((node s t).bump .ETH_RXFRAMES_COUNT 1 p).ptpSyncAt p off f) :=
  goes_of_runIf (fun d => (d.bump .ETH_RXFRAMES_COUNT 1 p).ptpSyncAt p off f) rfl hcore

theorem goes_ptpSyncTimeout : Goes (.ptpSyncTimeout t) s (node s t).ptpTimeout := goes_of_runIf Dev.ptpTimeout rfl hcore

theorem goes_ptpSendInterval : Goes (.ptpSendInterval t) s (node s t).ptpSend := goes_of_runIf Dev.ptpSend rfl hcore

theorem goes_neighborFrame (p : Nat) (kind : NeighborKind) :
    Goes (.neighborFrame t p kind) s (if kind = .other then (node s t).bump .ETH_DROPS_COUNT 1 p
      else ((node s t).bump .ETH_RXFRAMES_COUNT 1 p).ethSend p (.neighborReply p kind)) :=
  goes_of_runIf (fun d => if kind = .other then d.bump .ETH_DROPS_COUNT 1 p
    else (d.bump .ETH_RXFRAMES_COUNT 1 p).ethSend p (.neighborReply p kind)) rfl hcore

theorem goes_ethLinkChange (p up lock : Nat) :
    Goes (.ethLinkChange t p up lock) s
      ((((node s t).setRg .ETH_LINK_UP up p).setRg .ETH_LINK_LOCK lock p).setRg .PTP_STAT_PORT
        (((node s t).setRg .ETH_LINK_UP up p).setRg .ETH_LINK_LOCK lock p).ptpPort) :=
  goes_of_runIf (fun d => ((d.setRg .ETH_LINK_UP up p).setRg .ETH_LINK_LOCK lock p).setRg .PTP_STAT_PORT
    ((d.setRg .ETH_LINK_UP up p).setRg .ETH_LINK_LOCK lock p).ptpPort) rfl hcore

section Ready
variable {b : Nat} (hready : (node s t).fabReady b = true)
include hready

/-- R441, R442: a key record replaces the regions of its bib. -/
theorem goes_roceKeyRecord (x : Bytes) :
    Goes (.roceKeyRecord t b x) s (((node s t).updBib b fun y => { y with keys := some x }).bump
      .ETH_RXFRAMES_COUNT 1 ((node s t).bib b).bind.port) := by
  have hgoes := goes_of_runIf (c := .roceKeyRecord t b x) (s := s) (fun d =>
    if d.fabReady b then (d.updBib b fun y => { y with keys := some x }).bump .ETH_RXFRAMES_COUNT 1 (d.bib b).bind.port
    else d) rfl hcore
  rwa [if_pos hready] at hgoes

/-- R439: the unacknowledged packets go again. -/
theorem goes_roceAckTimeout : Goes (.roceAckTimeout t b) s ((node s t).emit (.roceRetransmit b)) := by
  have hgoes := goes_of_runIf (c := .roceAckTimeout t b) (s := s)
    (fun d => if d.fabReady b then d.emit (.roceRetransmit b) else d) rfl hcore
  rwa [if_pos hready] at hgoes

/-- R438: NAK Invalid Request, whatever the operation is. -/
theorem goes_roceInvalidRequest (k : RoceBad) :
    Goes (.roceInvalidRequest t b k) s ((node s t).ethSend ((node s t).bib b).bind.port (.roceNak b)) := by
  have hgoes := goes_of_runIf (c := .roceInvalidRequest t b k) (s := s)
    (fun d => if d.fabReady b then d.ethSend (d.bib b).bind.port (.roceNak b) else d) rfl hcore
  rwa [if_pos hready] at hgoes

/-- R439: the queue pair is no longer ready, which is an error of its bib. -/
theorem goes_roceRetryExhausted :
    Goes (.roceRetryExhausted t b) s (((node s t).updBib b fun y => { y with qpReady := false }).report
      SRC_BINDING_LOST 0x51 ((node s t).bib b).bind.port (some b) 0 0).pump := by
  have hgoes := goes_of_actIf (c := .roceRetryExhausted t b) (s := s) (fun d =>
    if !d.fabReady b then d
    else (d.updBib b fun y => { y with qpReady := false }).report SRC_BINDING_LOST 0x51 (d.bib b).bind.port (some b) 0 0)
    rfl hcore
  rwa [hready, if_neg (by decide)] at hgoes

end Ready
end Core
end Commands

/-- Settles O21: the queue pair is ready, so each event has the effect of its rule. -/
theorem fabricEventsComplete : Obligations.FabricEventsComplete := by
  unfold Obligations.FabricEventsComplete
  intro s t b hcore hready
  refine ⟨?submission, goes_roceKeyRecord hcore hready, ?ce, goes_roceAckTimeout hcore hready, goes_roceInvalidRequest hcore hready,
    goes_roceRetryExhausted hcore hready⟩
  case submission =>
    intro imm x hok hkeys hrelease
    rw [← Dev.submission_blocks hready hok hkeys hrelease]
    exact goes_roceSubmission hcore b imm x
  case ce =>
    intro hnone
    rw [← Dev.ceReceived_first hready hnone]
    exact goes_roceCeReceived hcore b

/-- Settles O22: the counters that a frame advances leave the port of PTP where it is. -/
theorem ethernetAndPtpComplete : Obligations.EthernetAndPtpComplete := by
  unfold Obligations.EthernetAndPtpComplete
  intro s t hcore
  have hcounted (p : Nat) : ((node s t).bump .ETH_RXFRAMES_COUNT 1 p).ptpPort = (node s t).ptpPort :=
    Dev.ptpPort_bump (by decide) (by decide) 1 p 0
  refine ⟨fun p => goes_of_runIf (fun d => d.bump .ETH_PAUSE_COUNT 1 p) rfl hcore,
    fun p => ⟨goes_neighborFrame hcore p .other, goes_neighborFrame hcore p .arp⟩,
    fun p => goes_of_runIf (fun d => (d.bump .ETH_RXFRAMES_COUNT 1 p).bump .ETH_CNPRX_COUNT 1 p) rfl hcore,
    goes_ethLinkChange hcore, ?far, ?other, ?timeout, ?send⟩
  case far =>
    intro p off f hport hsync hfar
    have hgoes := goes_ptpMessage hcore p off f
    rwa [Dev.ptpSyncAt_far (hport.trans (hcounted p).symm) hsync hfar] at hgoes
  case other =>
    intro p off f hport
    have hgoes := goes_ptpMessage hcore p off f
    rwa [Dev.ptpSyncAt_other (by rwa [hcounted p])] at hgoes
  case timeout =>
    intro u hsync hdue hslave
    rw [← Dev.ptpTimeout_due hsync hdue hslave]
    exact goes_ptpSyncTimeout hcore
  case send =>
    intro hup
    have hgoes := goes_ptpSendInterval hcore
    rwa [Dev.ptpSend, if_neg hup] at hgoes

end Sys2Proof.Machine

/-!
PROOFS. Pacers, gates, the commits of an outlet, promotion (R448, R452 to R457).
-/
namespace Sys2Proof.Machine
open Sys2Proof.Spec

section Traffic
variable {d : Dev} {o : Nat}

/-! ## Pacers and gates (R448, R452, R454) -/

/-- At its instant a Pacer without a pending change is refilled, once. -/
theorem Dev.pacerRefill_instant {k : Nat} {p : Pacer} (hpacer : Tab.find d.pacers k = some p) (hperiod : p.period ≠ 0)
    (hinstant : d.now % p.period = 0) (honce : p.refilled < d.now) (hnext : p.next = none) :
    d.pacerRefill k = { d with pacers := Tab.ins d.pacers k { p.refill with refilled := d.now } } := by
  simp [Dev.pacerRefill, hpacer, hperiod, hinstant, Nat.not_le.mpr honce, hnext]

/-- At each microsecond the control Pacer of an outlet is refilled, once. -/
theorem Dev.ctlRefill_instant (hinstant : d.now % 1000 = 0) (honce : (d.outlet o).ctlAt < d.now) :
    d.ctlRefill o = d.updOutlet o fun x =>
      { x with ctlTokens := min (16384 * 65536) (x.ctlTokens + (refillAmount (d.lineRate o / 100) 1000 (d.outlet o).ctlRem).1)
               ctlRem := (refillAmount (d.lineRate o / 100) 1000 (d.outlet o).ctlRem).2, ctlAt := d.now } := by
  simp [Dev.ctlRefill, hinstant, Nat.not_le.mpr honce]

/-- The gate list in force shows its entry. -/
theorem Dev.gateChange_inForce (hlist : (d.outlet o).gates ≠ []) (hcycle : gateCycle (d.outlet o).gates ≠ 0)
    (hbase : (d.outlet o).base ≤ d.now) :
    d.gateChange o = d.setRg .TM_GCL_CUR
      (gateAt (d.outlet o).gates ((d.now - (d.outlet o).base) % gateCycle (d.outlet o).gates)).1 0 o := by
  simp [Dev.gateChange, hlist, hcycle, Nat.not_lt.mpr hbase]

/-- An OPEN head that has waited longer than its PROMO_AGE becomes urgent. -/
theorem Dev.promote_old {sub svc : Nat} {f : Frame} {r : List Frame} (hage : (d.outlet o).promoAge.getD svc 0 ≠ 0)
    (hopen : d.contracted sub svc = false) (hqueue : Tab.find d.queues (queueKey o sub svc) = some (f :: r))
    (hold : (d.outlet o).promoAge.getD svc 0 * 1000 < d.now - f.since) :
    d.promote o sub svc =
      { d with queues := Tab.upd d.queues (queueKey o sub svc) fun _ => { f with urgent := true } :: r } := by
  unfold Dev.promote
  dsimp only
  rw [hopen, if_neg (by simpa using hage)]
  congr 1
  exact Tab.upd_congr hqueue (if_pos hold)

/-! ## The state of an outlet -/

/-- An outlet that the node has is what its change makes it. -/
theorem Dev.outlet_updOutlet (hhas : o < d.outlets.length) (g : Outlet → Outlet) : (d.updOutlet o g).outlet o = g (d.outlet o) := by
  rw [Dev.outlet, Dev.updOutlet, List.getD_eq_getElem?_getD, getElem?_updAt, if_pos rfl, Dev.outlet, List.getD_eq_getElem?_getD,
    List.getElem?_eq_getElem hhas]
  rfl

theorem Dev.length_updOutlet (g : Outlet → Outlet) : (d.updOutlet o g).outlets.length = d.outlets.length := length_updAt ..

/-- The time of a frame at a PCIe outlet depends on the link alone. -/
theorem Dev.txTime_updOutlet (hpcie : 2 ≤ o) (g : Outlet → Outlet) (n : Nat) : (d.updOutlet o g).txTime o n = d.txTime o n := by
  rw [Dev.txTime, Dev.txTime, Dev.lineRate, Dev.lineRate, if_neg (Nat.not_lt.mpr hpcie), if_neg (Nat.not_lt.mpr hpcie)]
  rfl

/-! ## The commit of an outlet (R456, R457) -/

/-- The promotion bucket of an outlet is brought up to date. -/
def Dev.fillBucket (d : Dev) (o : Nat) : Dev := d.updOutlet o fun x => { x with bucket := d.bucketNow o, bucketAt := d.now }

theorem Dev.outlet_fillBucket (hhas : o < d.outlets.length) :
    (d.fillBucket o).outlet o = { d.outlet o with bucket := d.bucketNow o, bucketAt := d.now } := Dev.outlet_updOutlet hhas _

/-- The outlet, a CONTROL frame taken from its queue and its control Pacer, and busy with it; the frame is counted. -/
def Dev.takeCtl (d : Dev) (o : Nat) (f : Frame) : Dev :=
  let d := d.updOutlet o fun x => { x with ctl := [], ctlTokens := x.ctlTokens - f.charge * 65536 }
  ((d.occupy o 0 (d.txTime o f.len)).bump .TM_CTLBYTES_COUNT f.len 0 o).bump .TM_SUBSENT_COUNT f.len 0 1024

section Commit
variable {f : Frame}

/-- CONTROL's only frame goes where the control Pacer holds its length. -/
theorem Dev.commitCtl_single (hpcie : 2 ≤ o) (hctl : (d.outlet o).ctl = [f]) (hlane : f.lane = 0)
    (htokens : f.charge * 65536 ≤ (d.outlet o).ctlTokens) :
    d.commitCtl o 0 = some (f.emits.foldl Dev.release (d.takeCtl o f)) := by
  simp [Dev.commitCtl, hctl, hlane, htokens, Dev.takeCtl, Nat.not_lt.mpr hpcie]

theorem Dev.commitCtl_empty {lane : Nat} (hctl : (d.outlet o).ctl = []) : d.commitCtl o lane = none := by
  simp only [Dev.commitCtl, hctl]

theorem Dev.outlet_takeCtl (hhas : o < d.outlets.length) (hpcie : 2 ≤ o) :
    (d.takeCtl o f).outlet o =
      { d.outlet o with ctl := [], ctlTokens := (d.outlet o).ctlTokens - f.charge * 65536, busy0 := d.now + d.txTime o f.len } := by
  have htaken (g : Outlet → Outlet) (h : Outlet → Outlet) :
      ((d.updOutlet o g).updOutlet o h).outlet o = h (g (d.outlet o)) := by
    rw [Dev.outlet_updOutlet (by rwa [Dev.length_updOutlet]), Dev.outlet_updOutlet hhas]
  refine (htaken _ _).trans ?_
  simp [Dev.txTime_updOutlet hpcie]

end Commit

/-- The outlet's server is free and its link up. -/
theorem Dev.outletCommit_free {e : Dev} (he : e = d.refillsDue o) (ho : o < 4) (hfree : (e.outlet o).busy0 ≤ e.now)
    (hlink : e.linkUp o 0 = true) {f : Dev} (hctl : (e.fillBucket o).commitCtl o 0 = some f) : d.outletCommit o 0 = f := by
  subst he
  unfold Dev.outletCommit
  simp only [hlink, ho, hfree, decide_true, Bool.and_self, Bool.not_true, Bool.false_eq_true, if_false, Nat.zero_ne_one]
  rw [Dev.fillBucket] at hctl
  rw [hctl]

section Idle
variable (hctl : (d.outlet o).ctl = []) (hapt : (d.outlet o).apt = []) (hqueues : d.queues = [])

include hctl in
theorem Dev.markCtlWait_idle : d.markCtlWait o = d := by
  simp only [Dev.markCtlWait, hctl]

include hqueues in
theorem Dev.heads_idle (lane : Nat) : d.heads o lane = [] := by
  simp only [Dev.heads, hqueues, List.filterMap_nil]

include hqueues in
theorem Dev.markNoFit_idle (lane : Nat) : d.markNoFit o lane = d := by
  rw [Dev.markNoFit, Dev.heads_idle hqueues, List.foldl_nil]

include hapt in
theorem Dev.commitApt_idle (lane : Nat) : d.commitApt o lane = d := by
  simp only [Dev.commitApt, hapt]

end Idle

/-- Where nothing waits nothing is committed. -/
theorem Dev.outletCommit_idle {e : Dev} (he : e = d.refillsDue o) (ho : o < 4) (hfree : (e.outlet o).busy0 ≤ e.now)
    (hlink : e.linkUp o 0 = true) (hctl : (e.outlet o).ctl = []) (hapt : (e.outlet o).apt = []) (hqueues : e.queues = [])
    (hhas : o < e.outlets.length) : d.outletCommit o 0 = e.fillBucket o := by
  subst he
  have hctl' : (((d.refillsDue o).fillBucket o).outlet o).ctl = [] := by rw [Dev.outlet_fillBucket hhas, hctl]
  have hapt' : (((d.refillsDue o).fillBucket o).outlet o).apt = [] := by rw [Dev.outlet_fillBucket hhas, hapt]
  have hqueues' : ((d.refillsDue o).fillBucket o).queues = [] := hqueues
  have hnone := Dev.commitCtl_empty (lane := 0) hctl'
  have hwait := Dev.markCtlWait_idle hctl'
  have hfit := Dev.markNoFit_idle (o := o) hqueues' 0
  have hheads := Dev.heads_idle (o := o) hqueues' 0
  have hgone := Dev.commitApt_idle hapt' 0
  unfold Dev.fillBucket at hnone hwait hfit hheads hgone ⊢
  unfold Dev.outletCommit
  simp only [hlink, ho, hfree, decide_true, Bool.and_self, Bool.not_true, Bool.false_eq_true, if_false, Nat.zero_ne_one, hnone,
    hwait, hfit, hheads, List.filter_nil, oldest, hgone]

end Traffic

section Commands
variable {s : State} {t : Nat}
variable (hcore : (node s t).coreOn = true)
include hcore

theorem goes_pacerRefill (k : Nat) :
    Goes (.pacerRefill t k) s (if k ≥ 9220 then (node s t).ctlRefill (k - 9220) else (node s t).pacerRefill k) :=
  goes_of_runIf (fun d => if k ≥ 9220 then d.ctlRefill (k - 9220) else d.pacerRefill k) rfl hcore

theorem goes_gateChange (o : Nat) : Goes (.gateChange t o) s ((node s t).gateChange o) :=
  goes_of_runIf (fun d => d.gateChange o) rfl hcore

theorem goes_promotionAge (o sub svc : Nat) : Goes (.promotionAge t o sub svc) s ((node s t).promote o sub svc) :=
  goes_of_runIf (fun d => d.promote o sub svc) rfl hcore

theorem goes_outletCommit (o lane : Nat) : Goes (.outletCommit t o lane) s ((node s t).outletCommit o lane) := by
  have hmgmt : (node s t).mgmtOn = true := by
    simp only [Dev.coreOn, Bool.and_eq_true, decide_eq_true_eq] at hcore
    rw [Dev.mgmtOn, Bool.or_eq_true]
    exact .inl (decide_eq_true hcore.1)
  exact goes_of_runIf (fun d => d.outletCommit o lane) rfl hmgmt

end Commands

/-- Settles O23: a Pacer and a gate list at their instants, an outlet with one CONTROL frame and with none, a head that has
grown old. -/
theorem trafficEventsComplete : Obligations.TrafficEventsComplete := by
  unfold Obligations.TrafficEventsComplete
  intro s t hcore
  refine ⟨?pacer, ?control, ?gate, ?commit, ?idle, ?promotion⟩
  case pacer =>
    intro k p hk hpacer hperiod hinstant honce hnext
    have hgoes := goes_pacerRefill hcore k
    rwa [if_neg (by omega), Dev.pacerRefill_instant hpacer hperiod hinstant honce hnext] at hgoes
  case control =>
    intro o hinstant honce
    have hgoes := goes_pacerRefill hcore (9220 + o)
    rwa [if_pos (by omega), Nat.add_sub_cancel_left, Dev.ctlRefill_instant hinstant honce] at hgoes
  case gate =>
    intro o hlist hcycle hbase
    rw [← Dev.gateChange_inForce hlist hcycle hbase]
    exact goes_gateChange hcore o
  case commit =>
    intro o f d hd hpcie ho hup hfree hctl hlane htokens hhas
    have hlink : d.linkUp o 0 = true := by rw [Dev.linkUp, if_neg (by omega), hup]
    have hbucket := Dev.outlet_fillBucket hhas
    have hout : (d.fillBucket o).commitCtl o 0 = some (f.emits.foldl Dev.release ((d.fillBucket o).takeCtl o f)) :=
      Dev.commitCtl_single hpcie (by rw [hbucket, hctl]) hlane (by rw [hbucket]; exact htokens)
    have hgoes := goes_outletCommit hcore o 0
    rw [Dev.outletCommit_free hd ho hfree hlink hout] at hgoes
    have htaken := Dev.outlet_takeCtl (d := d.fillBucket o) (f := f) (by rwa [Dev.fillBucket, Dev.length_updOutlet]) hpcie
    refine ⟨_, hgoes, by rw [htaken], rfl, by rw [htaken, hbucket], ?_, rfl⟩
    rw [htaken, Dev.fillBucket, Dev.txTime_updOutlet hpcie]
    rfl
  case idle =>
    intro o d hd ho hfree hlink hctl hapt hqueues hhas
    have hgoes := goes_outletCommit hcore o 0
    rwa [Dev.outletCommit_idle hd ho hfree hlink hctl hapt hqueues hhas] at hgoes
  case promotion =>
    intro o sub svc f r hage hopen hqueue hold
    rw [← Dev.promote_old hage hopen hqueue hold]
    exact goes_promotionAge hcore o sub svc

end Sys2Proof.Machine
